-- ==== Sys2Proof/Word.lean ====
section
/-! DEFINITION. Word.lean: the plain types every file uses: bytes, 7-bit bus addresses, segment and slot
numbers, and a group of four like things (one for each segment or alert line). -/

namespace Sys2Proof

/-- A byte of a frame or of a bus transaction. -/
abbrev Byte := BitVec 8

/-- A 7-bit two-wire address, alias or target (00, Conventions). -/
abbrev Addr := BitVec 7

/-- A segment number, 0 to 3 (00, Conventions). Alert lines are numbered alike. -/
abbrev Seg := Fin 4

/-- A slot number, 0 to 47 (R1). -/
abbrev Slot := Fin 48

/-- The direction of a transaction, stated apart from the address (00, Conventions). -/
inductive Dir where
  | read
  | write
  deriving DecidableEq, Repr

/-- Four like things, one for each segment (or each alert line). -/
structure Quad (α : Type) where
  s0 : α
  s1 : α
  s2 : α
  s3 : α
  deriving DecidableEq, Repr

namespace Quad

variable {α β : Type}

def get (q : Quad α) : Seg → α
  | 0 => q.s0
  | 1 => q.s1
  | 2 => q.s2
  | 3 => q.s3

def set (q : Quad α) (k : Seg) (x : α) : Quad α :=
  match k with
  | 0 => { q with s0 := x }
  | 1 => { q with s1 := x }
  | 2 => { q with s2 := x }
  | 3 => { q with s3 := x }

def map (f : α → β) (q : Quad α) : Quad β :=
  { s0 := f q.s0, s1 := f q.s1, s2 := f q.s2, s3 := f q.s3 }

def zipWith {γ : Type} (f : α → β → γ) (q : Quad α) (p : Quad β) : Quad γ :=
  { s0 := f q.s0 p.s0, s1 := f q.s1 p.s1, s2 := f q.s2 p.s2, s3 := f q.s3 p.s3 }

def fill (x : α) : Quad α :=
  { s0 := x, s1 := x, s2 := x, s3 := x }

def toList (q : Quad α) : List α :=
  [q.s0, q.s1, q.s2, q.s3]

end Quad

/-- The segments in ascending order. -/
def allSegs : List Seg := [0, 1, 2, 3]

/-- The slots in ascending order. -/
def allSlots : List Slot := List.finRange 48

end Sys2Proof
end

