-- ==== Sys2Proof/Config.lean ====
section
/-! DEFINITION. Config.lean: the sizes, limits and defaults the part fixes. The spec leaves no result value
undefined, so there is no free value here (log entry 24). -/

namespace Sys2Proof.Config

/-- The lowest and highest address that is not reserved (00, Conventions; R2). -/
def addrLow : Nat := 0x08
def addrHigh : Nat := 0x77

/-- The pool's bytes (R77), the bytes a reservation holds (R32, R79), the cost an entry adds to its data
bytes (R77), and the most data bytes a posted write keeps (R48). -/
def poolBytes : Nat := 512
def reservationBytes : Nat := 18
def entryOverhead : Nat := 2
def maxPostedBytes : Nat := 16

/-- The share of each segment after a full reset and a level 2 restart (R94). -/
def defaultShare : Nat := 128

/-- The limit of the outstanding count (R166, R167). -/
def maxOutstanding : Nat := 8

/-- Saturation of the undelivered count (R7), of the absence age (R7) and of reprobe failures (R6). -/
def maxUndelivered : Nat := 255
def maxAbsenceAge : Nat := 65535
def maxReprobeFailures : Nat := 3

/-- Failed attempts that end a recovery, and the ms between two attempts (R69). -/
def maxAttempts : Nat := 3
def attemptWait : Nat := 10

/-- The threshold a discovered record gets (R16), and the fill byte when none is given (R3, R184). -/
def defaultThreshold : Nat := 8
def defaultFill : Byte := 0xFF

/-- What released lines read as (R35, R38), and the fill byte of a catch-all transaction (R46, R50). -/
def releasedByte : Byte := 0xFF

/-- The default settings of R149, in the units of that rule. -/
def defaultHoldLimit : Nat := 25
def defaultStallLimit : Nat := 10
def defaultActivePeriod : Nat := 10
def defaultRelaxedPeriod : Nat := 8
def defaultIdleTimeout : Nat := 30
def defaultHoldOff : Nat := 20
def defaultLifetime : Nat := 60

/-- The number of ms in one 100 ms step (R95) and in one second. -/
def stepMs : Nat := 100
def secondMs : Nat := 1000

end Sys2Proof.Config
end

