-- ==== Sys2Proof/Syntax.lean ====
section
/-! DEFINITION. Syntax.lean: the events the block takes, one constructor for each row of
spec/opcode_table.json, in the table's order. The table gives the rows no operands; the operands here are what
the rules say an event carries. -/

namespace Sys2Proof

/-- The segments on which a start condition issued within the event finds a line low (R58, R66). -/
abbrev LowLines := List Seg

/-- The stop-ended ends of a delivery (R60). -/
inductive DeliveryEnd where
  | complete
  | addressNak
  | dataNak
  deriving DecidableEq, Repr

/-- How a probe of a record that was not cut ended on the bus (R97). The byte is the one an identity probe
read; a quick probe reads none. -/
inductive ProbeAnswer where
  | answered (byte : Byte)
  | notAnswered
  deriving DecidableEq, Repr

/-- What R65 has a stall timer follow on its segment's clock: the engine releases the clock and finds it held low; the
clock rises; or the timer expires while the target holds it, `low` being the lines found low at starts (log entry 7). -/
inductive ClockEvent where
  | heldLow
  | rises
  | expires (low : LowLines)
  deriving DecidableEq, Repr

/-- The eight frames a frame code can name (R161, R181). -/
inductive FrameKind where
  | status
  | writeEnable
  | writeDisable
  | push
  | pop
  | restartEnable
  | restart
  | ackRestart
  deriving DecidableEq, Repr

/-- A stretch of a STATUS frame in which no other event of the part falls (R164): `bits` are what the host clocks in
it. The first stretch of a frame follows its code; an `onward` one goes on, MCS still asserted, where the stretch before
it stopped. -/
structure StatusStretch where
  bits : Nat
  onward : Bool
  deriving DecidableEq, Repr

inductive Instr where
  /-- An address byte after a start (or repeated start) reaches UP (R30). -/
  | addressEvent (addr : Addr) (dir : Dir) (low : LowLines)
  /-- A repeated start (R40), with the address byte that follows it when that byte is complete; `cut`: it came in
  the middle of a byte (R41). -/
  | repeatedStart (cut : Bool) (next : Option (Addr × Dir)) (low : LowLines)
  /-- An upstream stop (R39). -/
  | stopCondition (low : LowLines)
  /-- A data byte written by the upstream master (R37, R48, R35). -/
  | writeEvent (byte : Byte)
  /-- The upstream master's acknowledge (true) or NAK of a read byte (R38). -/
  | masterReadAnswer (ack : Bool)
  /-- The target's acknowledge (true) or NAK of an address on segment `seg` (R36). -/
  | targetAddressAnswer (seg : Seg) (ack : Bool)
  /-- The target's acknowledge (true) or NAK of a written byte on segment `seg` (R37, R60). -/
  | targetByteAnswer (seg : Seg) (ack : Bool)
  /-- A byte clocked in from the target of a forwarded read (R38). -/
  | readByteArrives (seg : Seg) (byte : Byte)
  /-- The upstream hold timer expires (R44). -/
  | holdLimitExpiry
  /-- The stop of a forward or catch-all transaction is on the segment bus (R63). -/
  | forwardEnd (seg : Seg) (low : LowLines)
  /-- The stop of a delivery is on the segment bus (R60). -/
  | deliveryEnd (seg : Seg) (outcome : DeliveryEnd) (low : LowLines)
  /-- The stop of a probe of a record is on the segment bus (R17, R97). -/
  | probeEnd (seg : Seg) (answer : ProbeAnswer) (low : LowLines)
  /-- The stop of a discovery probe is on the segment bus (R121); `found`: the target acknowledged. -/
  | discoveryProbeEnd (seg : Seg) (found : Bool) (low : LowLines)
  /-- The stall timer of a segment expires, or, for R65's other events, it starts or stops (log entry 7). -/
  | stall (seg : Seg) (clock : ClockEvent)
  /-- A segment line is found low during a transaction (R66). -/
  | busFault (seg : Seg)
  /-- A recovery attempt ends with both lines high (R70). -/
  | recoveryAttemptSucceeds (seg : Seg) (low : LowLines)
  /-- A recovery attempt fails (R69). -/
  | recoveryAttemptFails (seg : Seg)
  /-- The 10 ms between two attempts have run (R69). -/
  | attemptTimerExpiry (seg : Seg)
  /-- The closing of a transaction left open by a restart ends or is given up (R76). -/
  | closingEnd (seg : Seg) (low : LowLines)
  /-- The survey timer expires (R101). -/
  | surveyTimerExpiry (low : LowLines)
  /-- The idle timer expires (R103). -/
  | idleTimerExpiry
  /-- The 100 ms step timer expires (R107). -/
  | stepTimerExpiry (low : LowLines)
  /-- The 1 s timer expires (R112). -/
  | secondTimerExpiry
  /-- DC takes the LOOKUP at the head of the command queue (R136). So for each command row below. -/
  | lookup
  | bind (low : LowLines)
  | edit
  | rebind (low : LowLines)
  | retire
  | clearCounts
  | probe (low : LowLines)
  | discover (low : LowLines)
  | cancel
  | pause
  | resume (low : LowLines)
  | flush (low : LowLines)
  | partition
  | setTiming
  | setProtect
  | fixProtect
  | setAlert
  | changes
  /-- A STATUS frame, or a stretch of one (R164): the MCLK clocks after the frame code, or after the stretch before. -/
  | status (clocks : StatusStretch)
  | writeEnable
  | writeDisable
  /-- A PUSH frame that ends on a byte boundary (R166): the bytes after the frame code. -/
  | push (bytes : List Byte)
  /-- A POP frame (R168): `clocks` MCLK clocks after the frame code; `emptyAtCode`: the response queue was
  empty at the end of the frame code byte. -/
  | pop (clocks : Nat) (emptyAtCode : Bool)
  | restartEnable
  /-- A RESTART frame that ends on a byte boundary (R170): the bytes after the frame code. -/
  | restart (bytes : List Byte) (low : LowLines)
  | ackRestart
  /-- A frame that ends on a byte boundary and whose code names no frame (R173). -/
  | unknownFrame (code : Byte)
  /-- A frame of `bits` bits, other than STATUS and POP, that ends off a byte boundary (R163). -/
  | partialFrame (bits : Nat)
  /-- MCS asserted and released with no MCLK edge (R161). -/
  | emptyFrame
  /-- Power-on, or RSTN going low (R27, R171). -/
  | fullReset
  /-- The PROT pin changes to high (true) or low (R158). -/
  | protChange (high : Bool)
  /-- RSTN is released or the supply has risen (R171, R174); `mcsAsserted`: MCS is asserted at that moment. -/
  | fullResetEnd (mcsAsserted : Bool)
  deriving DecidableEq, Repr

end Sys2Proof
end

