-- ==== Sys2Proof/WellFormed.lean ====
section
/-! DEFINITION. WellFormed.lean: which operands an event can have. A list of low lines names each segment once,
in ascending order; an unknown frame code is none of the eight codes; a partial frame ends off a byte boundary. -/

namespace Sys2Proof

/-- The eight frame codes of R181. -/
def frameCodes : List Byte := [0xA0, 0xA3, 0xA4, 0xB1, 0xB2, 0xC9, 0xCA, 0xCB]

/-- A frame code that names no frame (R173). -/
def unknownCode (code : Byte) : Bool := !frameCodes.contains code

/-- A number of bits that is not a whole number of bytes (R163). -/
def offBoundary (bits : Nat) : Bool := bits % 8 != 0

/-- Segment numbers in ascending order, each once. -/
def ascending : List Seg → Bool
  | [] => true
  | [_] => true
  | a :: b :: rest => decide (a < b) && ascending (b :: rest)

/-- The operands an event of the table can have. -/
def Instr.wf : Instr → Bool
  | .addressEvent _ _ low => ascending low
  | .repeatedStart _ _ low => ascending low
  | .stopCondition low => ascending low
  | .writeEvent _ => true
  | .masterReadAnswer _ => true
  | .targetAddressAnswer _ _ => true
  | .targetByteAnswer _ _ => true
  | .readByteArrives _ _ => true
  | .holdLimitExpiry => true
  | .forwardEnd _ low => ascending low
  | .deliveryEnd _ _ low => ascending low
  | .probeEnd _ _ low => ascending low
  | .discoveryProbeEnd _ _ low => ascending low
  | .stall _ (.expires low) => ascending low
  | .stall _ .heldLow | .stall _ .rises => true
  | .busFault _ => true
  | .recoveryAttemptSucceeds _ low => ascending low
  | .recoveryAttemptFails _ => true
  | .attemptTimerExpiry _ => true
  | .closingEnd _ low => ascending low
  | .surveyTimerExpiry low => ascending low
  | .idleTimerExpiry => true
  | .stepTimerExpiry low => ascending low
  | .secondTimerExpiry => true
  | .lookup => true
  | .bind low => ascending low
  | .edit => true
  | .rebind low => ascending low
  | .retire => true
  | .clearCounts => true
  | .probe low => ascending low
  | .discover low => ascending low
  | .cancel => true
  | .pause => true
  | .resume low => ascending low
  | .flush low => ascending low
  | .partition => true
  | .setTiming => true
  | .setProtect => true
  | .fixProtect => true
  | .setAlert => true
  | .changes => true
  | .status _ => true
  | .writeEnable => true
  | .writeDisable => true
  | .push _ => true
  | .pop _ _ => true
  | .restartEnable => true
  | .restart _ low => ascending low
  | .ackRestart => true
  | .unknownFrame code => unknownCode code
  | .partialFrame bits => offBoundary bits
  | .emptyFrame => true
  | .fullReset => true
  | .protChange _ => true
  | .fullResetEnd _ => true

end Sys2Proof
end

