-- ==== Sys2Proof/Decode.lean ====
section
/-! DEFINITION. Decode.lean: the command a word of spec/opcode_table.json's bits spells, and the row a frame received
on the management port is. The table gives no row of this block any bits (98_reader.md: 55 rows, none with fixed
bits), so no word spells a command. -/

namespace Sys2Proof

def decodeTableWord (_nbits _w : Nat) : Option Instr := none

/-- The frame a frame code names (R181); every other value names none (R173). -/
def frameOf (code : Byte) : Option FrameKind :=
  match code.toNat with
  | 0xA0 => some .status
  | 0xA3 => some .writeEnable
  | 0xA4 => some .writeDisable
  | 0xB1 => some .push
  | 0xB2 => some .pop
  | 0xC9 => some .restartEnable
  | 0xCA => some .restart
  | 0xCB => some .ackRestart
  | _ => none

/-- The row of a frame of `code`, the whole bytes `rest` and `tail` bits more (R161). Bytes that a code does not use are
as if absent (R163). STATUS and POP are taken
whatever bit they end on (R163, R164, R168); every other frame that ends off a byte boundary is partial (R163). -/
def decodeCoded (code : Byte) (rest : List Byte) (tail : Nat) (emptyAtCode : Bool) (low : LowLines) : Instr :=
  match frameOf code with
  | some .status => .status { bits := 8 * rest.length + tail, onward := false }
  | some .pop => .pop (8 * rest.length + tail) emptyAtCode
  | kind =>
    if tail ≠ 0 then .partialFrame (8 * (rest.length + 1) + tail)
    else
      match kind with
      | some .writeEnable => .writeEnable
      | some .writeDisable => .writeDisable
      | some .push => .push rest
      | some .restartEnable => .restartEnable
      | some .restart => .restart rest low
      | some .ackRestart => .ackRestart
      | some .status | some .pop | none => .unknownFrame code

/-- The row of the frame in which the host clocked the whole bytes `bytes` and then `tail` bits, 0 to 7, more (R161,
R163). `emptyAtCode`: the response queue was empty at the end of the code byte; `low`: the lines found low within
the event. -/
def decodeFrame (bytes : List Byte) (tail : Nat) (emptyAtCode : Bool) (low : LowLines) : Instr :=
  match bytes with
  | [] => if tail = 0 then .emptyFrame else .partialFrame tail
  | code :: rest => decodeCoded code rest tail emptyAtCode low

/-- The rows of a STATUS frame that other events of the part cut into stretches of these bits (R164): one row each, with
those events between them. -/
def statusRows : List Nat → List Instr
  | [] => []
  | n :: rest => .status { bits := n, onward := false } :: rest.map fun m => .status { bits := m, onward := true }

end Sys2Proof
end

