-- ==== Sys2Proof/Machine/State.lean ====
section
/-! DEFINITION. Machine/State.lean: everything the spec gives the part, block by block, as plain data, and the
state after a full reset. -/

namespace Sys2Proof.Machine

/-! ### UP, the Upstream Port (R29, R33, R44) -/

inductive UpPhase where
  | unaddressed
  | address
  | write
  | read
  deriving DecidableEq, Repr

inductive UpMode where
  | forward
  | posted
  | standIn
  | catchAll
  | refused
  deriving DecidableEq, Repr

inductive Policy where
  | refuse
  | fill
  deriving DecidableEq, Repr

/-- The answer a transaction was given at its address event (R29, R30). -/
structure Answer where
  policy : Policy
  fill : Byte
  deriving DecidableEq, Repr

/-- A running timer that expires `limit` ms after its start; `elapsed` ms have run. -/
structure Timer where
  limit : Nat
  elapsed : Nat
  deriving DecidableEq, Repr

/-- UP's transaction context (R29). `downOpen` is the field "downstream open": absent for no, and for yes the
segment whose current transaction it is (log entry 21). -/
structure UpContext where
  phase : UpPhase
  mode : Option UpMode
  address : Option (Addr × Dir)
  slot : Option Slot
  segment : Option Seg
  answer : Option Answer
  downOpen : Option Seg
  lastByteGiven : Bool
  staged : List Byte
  hold : Option Timer
  deriving DecidableEq, Repr

/-- What UP last put on the upstream bus: the acknowledge bit (true: acknowledged) and the byte it drives for
the master to read; absent: the lines are released (log entry 19). -/
structure UpLines where
  ack : Option Bool
  data : Option Byte
  deriving DecidableEq, Repr

structure UpPort where
  ctx : UpContext
  out : UpLines
  /-- 1 to 255 ms (R44). -/
  holdLimit : Nat
  /-- Off, or the segment that unknown aliases go to (R33). -/
  catchAll : Option Seg
  deriving DecidableEq, Repr

/-- UNADDRESSED with every other field absent, empty, no or stopped (R29), but for a downstream transaction
that has still to end (R39, R45, R46). -/
def UpContext.unaddressed (downOpen : Option Seg) : UpContext :=
  { phase := .unaddressed, mode := none, address := none, slot := none, segment := none, answer := none,
    downOpen := downOpen, lastByteGiven := false, staged := [], hold := none }

/-- Both upstream lines released. -/
def UpLines.released : UpLines := { ack := none, data := none }

/-! ### DIR, the Binding Directory (R1 to R13) -/

/-- The states of a slot that holds a record (R2, R9); FREE is the absence of a record. -/
inductive RecState where
  | pending
  | bound
  | quarantined
  | absent
  | retiring
  deriving DecidableEq, Repr

inductive RecClass where
  | dynamic
  | held
  deriving DecidableEq, Repr

inductive Origin where
  | host
  | discovery
  deriving DecidableEq, Repr

inductive Cause where
  | errors
  | mismatch
  deriving DecidableEq, Repr

inductive Marker where
  | none
  | forward
  | probe
  | delivery
  deriving DecidableEq, Repr

/-- One binding record (R1 to R8). `expiryHeld` is the absence expiry claim DIR may hold for it (R26). -/
structure Record where
  state : RecState
  aliasAddr : Addr
  segment : Seg
  target : Addr
  cls : RecClass
  origin : Origin
  policy : Policy
  fill : Byte
  posting : Bool
  probeReg : Option Byte
  identity : Option Byte
  frozen : Bool
  errorCount : Nat
  threshold : Nat
  cause : Option Cause
  reprobeFailures : Nat
  holdOff : Nat
  absenceAge : Nat
  undelivered : Nat
  used : Bool
  marker : Marker
  expiryHeld : Bool
  deriving DecidableEq, Repr

/-- The 48 slots and the alias index, a map from each 7-bit address to a slot (R1, R13). -/
structure Directory where
  slots : Vector (Option Record) 48
  aliasIndex : Vector (Option Slot) 128
  deriving DecidableEq, Repr

/-! ### SE0 to SE3, the segment engines (R52, R53) -/

inductive EngState where
  | idle
  | active
  | recovering
  | paused
  | failed
  deriving DecidableEq, Repr

/-- 100, 400 and 1000 kHz (R64). -/
inductive Rate where
  | khz100
  | khz400
  | khz1000
  deriving DecidableEq, Repr

inductive TxKind where
  | forward
  | catchAll
  | delivery
  | quickProbe
  | identityProbe
  | discoveryProbe
  deriving DecidableEq, Repr

inductive TxPhase where
  | address
  | data
  | closing
  deriving DecidableEq, Repr

/-- What a transaction on the bus waits for (R59, R60). -/
inductive BusStep where
  /-- the target's answer to the address -/
  | address
  /-- UP's next step; the engine holds the segment clock low -/
  | waitUp
  /-- the target's answer to this written byte -/
  | send (byte : Byte)
  /-- a byte from the target -/
  | fetch
  /-- the upstream master's answer to this read byte; the engine holds the segment clock low -/
  | hold (byte : Byte)
  /-- the rise of the clock, released for the bit in which the master's NAK is given downstream -/
  | nak
  /-- the stop -/
  | stop
  deriving DecidableEq, Repr

/-- Why the stop of a transaction is sent, which is the end R63 reports. -/
inductive StopReason where
  | onRequest
  | addressNak
  | dataNak
  | complete
  deriving DecidableEq, Repr

/-- A current transaction (R53). `carried`, the bytes carried so far, counts as log entry 30 says; `phase` is CLOSING
at every stop (log entry 31). `ownsMarker`: the record's in-flight marker stands for this transaction;
`sameRecord`: the slot still holds the record the transaction was taken for, and no REBIND has moved that record to
another pair since (R17, R20, log entry 13); `silent`: a closing left by a restart, which reports nothing (R76). -/
structure Tx where
  kind : TxKind
  slot : Option Slot
  target : Addr
  dir : Dir
  phase : TxPhase
  carried : Nat
  step : BusStep
  register : Option Byte
  reason : Option StopReason
  ownsMarker : Bool
  sameRecord : Bool
  silent : Bool
  deriving DecidableEq, Repr

/-- The forward request that waits for the arbiter (R53, R55): of kind FORWARD with a slot, or CATCH-ALL
without one. -/
structure FwdRequest where
  slot : Option Slot
  target : Addr
  dir : Dir
  deriving DecidableEq, Repr

/-- The discovery context (R119). -/
structure Discovery where
  low : Addr
  high : Addr
  base : Addr
  tag : Byte
  next : Option Addr
  onBus : Option Addr
  cancelRequested : Bool
  found : Nat
  created : Nat
  known : Nat
  collisions : Nat
  lastFinished : Option Addr
  deriving DecidableEq, Repr

/-- One engine's context (R53). `busRate` is the rate the transaction or attempt on the bus began with (R64). -/
structure Engine where
  state : EngState
  pausePending : Bool
  resumeWaiting : Bool
  tx : Option Tx
  request : Option FwdRequest
  probeQueue : List Slot
  discovery : Option Discovery
  attemptCount : Nat
  stall : Option Timer
  attempt : Option Timer
  rate : Rate
  busRate : Rate
  deriving DecidableEq, Repr

/-- An engine after a full reset (R76). -/
def Engine.reset : Engine :=
  { state := .idle, pausePending := false, resumeWaiting := false, tx := none, request := none,
    probeQueue := [], discovery := none, attemptCount := 0, stall := none, attempt := none,
    rate := .khz100, busRate := .khz100 }

/-! ### PWP, the Posted Write Pool (R77, R81) -/

structure Entry where
  slot : Slot
  data : List Byte
  retried : Bool
  deriving DecidableEq, Repr

/-- A segment's share, its posted queue (head first), and the purge mark on its head entry (R77, R87). -/
structure PoolSeg where
  share : Nat
  queue : List Entry
  purgeMark : Bool
  deriving DecidableEq, Repr

/-- The pool. `reservation` names the segment of the one open reservation of 18 bytes. -/
structure Pool where
  segs : Quad PoolSeg
  reservation : Option Seg
  deriving DecidableEq, Repr

/-! ### HM, the Health Monitor (R95) -/

inductive Cadence where
  | active
  | relaxed
  deriving DecidableEq, Repr

/-- Timers in ms; settings in the units of R95. -/
structure Health where
  cadence : Cadence
  surveyLeft : Nat
  idleLeft : Option Nat
  stepRun : Nat
  secondRun : Nat
  activePeriod : Nat
  relaxedPeriod : Nat
  idleTimeout : Nat
  holdOff : Nat
  lifetime : Nat
  deriving DecidableEq, Repr

/-! ### Commands, responses and DC (R131 to R134, R182, R187) -/

inductive CmdKind where
  | lookup
  | bind
  | edit
  | rebind
  | retire
  | clearCounts
  | probe
  | discover
  | cancel
  | pause
  | resume
  | flush
  | partition
  | setTiming
  | setProtect
  | fixProtect
  | setAlert
  | changes
  deriving DecidableEq, Repr

/-- A command in the command queue: its kind, its tag and the bytes after them (R182). -/
structure Command where
  kind : CmdKind
  tag : Byte
  args : List Byte
  deriving DecidableEq, Repr

/-- The outcome codes of R134. -/
inductive ResultCode where
  | done
  | badField
  | notFound
  | slotFree
  | slotInUse
  | aliasInUse
  | targetInUse
  | tableFull
  | protectedSlot
  | busy
  | retired
  | segmentFault
  | cancelled
  | alreadyRunning
  | notQuiescent
  | badPartition
  | locked
  | fixed
  deriving DecidableEq, Repr

/-- A response: kind, tag, outcome, and the result bytes of R187 that follow them. -/
structure Response where
  kind : CmdKind
  tag : Byte
  code : ResultCode
  results : List Byte
  deriving DecidableEq, Repr

/-- What a long operation waits on (R133). A RETIRE keeps the count its claim removed (R141). A PROBE's note is
with the queued request of its slot, or, `onBus`, with the probe the arbiter has taken (R143, log entry 14). -/
inductive LongWork where
  | retire (slot : Slot) (removed : Nat)
  | probe (slot : Slot) (onBus : Bool)
  | discover (seg : Seg)
  | pause (seg : Seg)
  | resume (seg : Seg)
  deriving DecidableEq, Repr

/-- A command taken and not yet answered. `answer` is the response the event being taken gives it; the event's
end queues it, so between events it is absent (R132, log entry 15). -/
structure LongOp where
  work : LongWork
  tag : Byte
  answer : Option Response
  deriving DecidableEq, Repr

/-- DC's long operations, in the order the commands were taken (R132, R133). -/
structure Controller where
  ops : List LongOp
  deriving DecidableEq, Repr

/-! ### MP, the Management Port (R162) -/

inductive FrameResult where
  | ok
  | partialEnd
  | unknown
  | kind
  | form
  | full
  | notEnabled
  | empty
  | ignored
  deriving DecidableEq, Repr

/-- Where MDO is looked at (R161): as the frame code is shifted in, at byte `j` after it, or while MCS is not
asserted. -/
inductive MdoPoint where
  | code
  | after (j : Nat)
  | outside
  deriving DecidableEq, Repr

/-- What MDO shifted after the frame code of a frame (R161); `MdoShift.shown` says what stands on MDO at every point,
the code and the time between frames included (log entry 16). -/
inductive MdoShift where
  /-- The whole bytes the host clocked in a POP (R168). -/
  | bytes (shifted : List Byte)
  /-- The status words a STATUS captured, one for each repetition begun, and the bits the host clocked (R164). -/
  | status (words : List (BitVec 16)) (bits : Nat)
  /-- 0x00 for as long as the host clocked: every other frame (R161, R173). -/
  | zeros
  deriving DecidableEq, Repr

/-- `waitRelease`: MCS was asserted when a full reset ended and has not been released (R171). `mdo`: what MDO shifted in
the last frame (log entry 16). -/
structure Port where
  commands : List Command
  responses : List Response
  outstanding : Nat
  latch : Bool
  restartEnable : Bool
  notice : Bool
  lastResult : FrameResult
  waitRelease : Bool
  mdo : MdoShift
  deriving DecidableEq, Repr

/-- MP after every reset and restart (R162). -/
def Port.reset : Port :=
  { commands := [], responses := [], outstanding := 0, latch := false, restartEnable := false, notice := true,
    lastResult := .ok, waitRelease := false, mdo := .bytes [] }

/-! ### PU, the Protection Unit (R153) -/

/-- `prot`: PROT is high. -/
structure Protection where
  code : Fin 8
  lock : Bool
  fixed : Bool
  prot : Bool
  deriving DecidableEq, Repr

/-! ### AU, the Alert Unit (R174, R178) -/

inductive AlertCondition where
  | disabled
  | quarantined
  | absent
  | notBound
  | undelivered
  deriving DecidableEq, Repr

inductive Drive where
  | openDrain
  | pushPull
  deriving DecidableEq, Repr

inductive LineLevel where
  | high
  | low
  | released
  deriving DecidableEq, Repr

/-- An alert line's configuration; bit n of `slots` names slot n (R186). -/
structure AlertConfig where
  condition : AlertCondition
  slots : BitVec 48
  drive : Drive
  deriving DecidableEq, Repr

/-- The two marks of a member of the segment-fault set; a segment with neither is not a member (R176). -/
structure FaultMarks where
  recovered : Bool
  failed : Bool
  deriving DecidableEq, Repr

/-- `responsesEnabled` and `changesEnabled` are the ATTN cause mask; `alert` and `attn` are the lines as AU
drives them (`attn`: asserted). -/
structure Alerts where
  changed : Vector Bool 48
  faults : Quad FaultMarks
  lines : Quad AlertConfig
  responsesEnabled : Bool
  changesEnabled : Bool
  alert : Quad LineLevel
  attn : Bool
  deriving DecidableEq, Repr

def FaultMarks.none : FaultMarks := { recovered := false, failed := false }

/-- An alert line after a full reset and a level 2 restart (R174). -/
def AlertConfig.reset : AlertConfig := { condition := .disabled, slots := 0, drive := .openDrain }

/-! ### The part -/

/-- The part: its nine blocks, the full reset being held (R171), and the commands that wait to be taken. -/
structure State where
  up : UpPort
  dir : Directory
  eng : Quad Engine
  /-- The stall limit, one value for all four engines (R65). -/
  stallLimit : Nat
  pool : Pool
  hm : Health
  dc : Controller
  mp : Port
  pu : Protection
  au : Alerts
  inReset : Bool
  pending : List Instr
  deriving DecidableEq, Repr

/-- Why the part could stop. The spec describes no stop: every event has an effect, a refusal code in a
response or a frame result, or no effect. So there is no fault. -/
inductive Fault where
  deriving DecidableEq, Repr

/-- Why the model could refuse a command. -/
inductive Refusal where
  /-- A command without a meaning yet, raised by exec's arms alone (safe). No arm raises it. -/
  | notModelled (mnemonic : String)
  deriving DecidableEq, Repr

/-- The hub-wide timing settings and timers after a full reset (R95, R115, R117). -/
def Health.reset : Health :=
  { cadence := .active, surveyLeft := Config.defaultActivePeriod * Config.stepMs,
    idleLeft := some (Config.defaultIdleTimeout * Config.secondMs), stepRun := 0, secondRun := 0,
    activePeriod := Config.defaultActivePeriod, relaxedPeriod := Config.defaultRelaxedPeriod,
    idleTimeout := Config.defaultIdleTimeout, holdOff := Config.defaultHoldOff,
    lifetime := Config.defaultLifetime }

def UpPort.reset : UpPort :=
  { ctx := .unaddressed none, out := .released, holdLimit := Config.defaultHoldLimit, catchAll := none }

def Directory.reset : Directory :=
  { slots := Vector.replicate 48 none, aliasIndex := Vector.replicate 128 none }

def PoolSeg.reset : PoolSeg := { share := Config.defaultShare, queue := [], purgeMark := false }

def Pool.reset : Pool := { segs := Quad.fill PoolSeg.reset, reservation := none }

def Protection.reset : Protection := { code := 0, lock := false, fixed := false, prot := false }

/-- AU once a full reset has ended: sets empty, lines DISABLED and released, ATTN asserted (R174). -/
def Alerts.reset : Alerts :=
  { changed := Vector.replicate 48 false, faults := Quad.fill FaultMarks.none,
    lines := Quad.fill AlertConfig.reset, responsesEnabled := true, changesEnabled := true,
    alert := Quad.fill .released, attn := true }

/-- The part when a full reset has ended (R27, R51, R76, R93, R94, R115, R152, R153, R162, R174), with MCS
released and PROT low (log entry 17). -/
def State.reset : State :=
  { up := UpPort.reset, dir := Directory.reset, eng := Quad.fill Engine.reset,
    stallLimit := Config.defaultStallLimit, pool := Pool.reset, hm := Health.reset, dc := { ops := [] },
    mp := Port.reset, pu := Protection.reset, au := Alerts.reset, inReset := false, pending := [] }

end Sys2Proof.Machine
end

