-- ==== Sys2Proof/Machine/Ops.lean ====
section
/-! DEFINITION. Machine/Ops.lean: the named reads and updates of the part's state, the claims the blocks pass to
each other (charges, undelivered claims, purges, probe requests, withdrawals, a slot becoming FREE), and the
settling of long operations. Every meaning is built from these. -/

namespace Sys2Proof.Machine

/-- Each entry of a vector changed by `f`; unlike Vector.map, the kernel evaluates it. -/
def mapEach {α β : Type} {n : Nat} (f : α → β) (v : Vector α n) : Vector β n := Vector.ofFn fun i => f v[i]

/-! ### Reads and updates of one block -/

def State.setUp (s : State) (u : UpPort) : State := { s with up := u }
def State.setDir (s : State) (d : Directory) : State := { s with dir := d }
def State.setEng (s : State) (e : Quad Engine) : State := { s with eng := e }
def State.setPool (s : State) (p : Pool) : State := { s with pool := p }
def State.setHm (s : State) (h : Health) : State := { s with hm := h }
def State.setDc (s : State) (d : Controller) : State := { s with dc := d }
def State.setMp (s : State) (m : Port) : State := { s with mp := m }
def State.setPu (s : State) (p : Protection) : State := { s with pu := p }
def State.setAu (s : State) (a : Alerts) : State := { s with au := a }

/-- The record in slot `i`, if it is not FREE (R14, lookup by slot). -/
def State.recAt (s : State) (i : Slot) : Option Record := s.dir.slots[i.val]

def State.putRec (s : State) (i : Slot) (r : Option Record) : State :=
  s.setDir { s.dir with slots := s.dir.slots.set i.val r }

/-- Change the record of slot `i`; nothing for a FREE slot. -/
def State.modRec (s : State) (i : Slot) (f : Record → Record) : State :=
  match s.recAt i with
  | some r => s.putRec i (some (f r))
  | none => s

def State.engine (s : State) (k : Seg) : Engine := s.eng.get k

def State.modEngine (s : State) (k : Seg) (f : Engine → Engine) : State :=
  s.setEng (s.eng.set k (f (s.eng.get k)))

def State.poolSeg (s : State) (k : Seg) : PoolSeg := s.pool.segs.get k

def State.modPool (s : State) (k : Seg) (f : PoolSeg → PoolSeg) : State :=
  s.setPool { s.pool with segs := s.pool.segs.set k (f (s.pool.segs.get k)) }

def State.setCtx (s : State) (c : UpContext) : State := s.setUp { s.up with ctx := c }
def State.setOut (s : State) (o : UpLines) : State := s.setUp { s.up with out := o }

/-- HM's segment view (R95) follows the engine: a segment in service is IDLE, ACTIVE or RECOVERING. -/
def inService : EngState → Bool
  | .idle => true
  | .active => true
  | .recovering => true
  | .paused => false
  | .failed => false

def State.segInService (s : State) (k : Seg) : Bool := inService (s.engine k).state

/-! ### Protection (R153) -/

/-- The protected count of a protect code (R153). -/
def protectedCount (code : Fin 8) : Nat :=
  match code with
  | 0 => 0
  | 1 => 4
  | 2 => 8
  | 3 => 16
  | 4 => 24
  | 5 => 32
  | 6 => 40
  | 7 => 48

def State.isProtected (s : State) (i : Slot) : Bool := decide (i.val < protectedCount s.pu.code)

/-! ### Lookups (R14, R13) -/

def State.lookupAlias (s : State) (a : Addr) : Option Slot := s.dir.aliasIndex[a.toNat]'a.isLt

/-- The slot that holds a record of segment `k` and target `t`. -/
def State.lookupPair (s : State) (k : Seg) (t : Addr) : Option Slot :=
  allSlots.find? fun i =>
    match s.recAt i with
    | some r => r.segment == k && r.target == t
    | none => false

/-- A record not FREE holds alias `a` (R13: the check is made against all records not FREE). -/
def State.aliasTaken (s : State) (a : Addr) : Bool :=
  allSlots.any fun i =>
    match s.recAt i with
    | some r => r.aliasAddr == a
    | none => false

/-- The lowest-numbered slot that is FREE and unprotected (R15, R16). -/
def State.lowestFree (s : State) : Option Slot :=
  allSlots.find? fun i => (s.recAt i).isNone && !s.isProtected i

/-- Addresses 0x00 to 0x07 and 0x78 to 0x7F (00, Conventions). -/
def reserved (a : Addr) : Bool := decide (a.toNat < Config.addrLow) || decide (Config.addrHigh < a.toNat)

/-! ### AU's changed-slot set (R175) -/

def State.markChanged (s : State) (i : Slot) : State :=
  s.setAu { s.au with changed := s.au.changed.set i.val true }

/-! ### Long operations (R132, R133) -/

/-- Give every long operation that `f` answers its answer; one that has been answered keeps its first answer. -/
def State.settleOps (s : State) (f : LongOp → Option Response) : State :=
  s.setDc { ops := s.dc.ops.map fun o =>
    match o.answer with
    | some _ => o
    | none => { o with answer := f o } }

def plainResponse (kind : CmdKind) (tag : Byte) (code : ResultCode) : Response :=
  { kind := kind, tag := tag, code := code, results := [] }

/-- A 16-bit count, most significant byte first (R187). -/
def twoBytes (n : Nat) : List Byte := [BitVec.ofNat 8 (n / 256), BitVec.ofNat 8 n]

def oneByte (n : Nat) : Byte := BitVec.ofNat 8 n

/-- Answer PAUSE or RESUME operations of segment `k` (R70, R71, R73, R74). -/
def State.answerPause (s : State) (k : Seg) (code : ResultCode) : State :=
  s.settleOps fun o => if o.work = .pause k then some (plainResponse .pause o.tag code) else none

def State.answerResume (s : State) (k : Seg) (code : ResultCode) : State :=
  s.settleOps fun o => if o.work = .resume k then some (plainResponse .resume o.tag code) else none

/-- Answer every PROBE that waits on slot `i`, wherever its note stands (R145). -/
def State.answerProbes (s : State) (i : Slot) (code : ResultCode) : State :=
  s.settleOps fun o =>
    if o.work = .probe i true ∨ o.work = .probe i false then some (plainResponse .probe o.tag code) else none

/-- Answer the PROBEs whose note is with the queued request of slot `i` (R71, R145). -/
def State.answerQueuedProbes (s : State) (i : Slot) (code : ResultCode) : State :=
  s.settleOps fun o => if o.work = .probe i false then some (plainResponse .probe o.tag code) else none

/-- Answer DONE every RETIRE that waits on slot `i`, each with its own count (R141, R187). -/
def State.answerRetires (s : State) (i : Slot) : State :=
  s.settleOps fun o =>
    match o.work with
    | .retire j n =>
      if j = i then some { kind := .retire, tag := o.tag, code := .done, results := twoBytes n } else none
    | _ => none

/-- Put the note of every PROBE of slot `i` with the probe on the bus, or with the queued request (R143). -/
def State.moveNotes (s : State) (i : Slot) (onBus : Bool) : State :=
  s.setDc { ops := s.dc.ops.map fun o =>
    match o.work with
    | .probe j _ => if j = i then { o with work := .probe j onBus } else o
    | _ => o }

/-! ### UP's answers (R35, R42) -/

def UpPort.startHold (u : UpPort) : Option Timer := some { limit := u.holdLimit, elapsed := 0 }

/-- Not acknowledged: UP releases the clock and enters UNADDRESSED; a downstream transaction still open stays
so until its stop. -/
def State.upNak (s : State) : State :=
  s.setUp { s.up with ctx := .unaddressed s.up.ctx.downOpen, out := { ack := some false, data := none } }

def phaseOf : Dir → UpPhase
  | .read => .read
  | .write => .write

/-- The fill byte of the answer field; 0xFF where there is none (R50). -/
def UpContext.fillByte (c : UpContext) : Byte :=
  match c.answer with
  | some a => a.fill
  | none => Config.releasedByte

/-- The hub answers the address itself from the answer field (R35): under REFUSE it is not acknowledged, under
FILL it is, and a read's first byte is the fill byte. -/
def State.upStandIn (s : State) : State :=
  let c := s.up.ctx
  match c.answer, c.address with
  | some { policy := .fill, fill := f }, some (_, d) =>
    s.setUp { s.up with
      ctx := { c with phase := phaseOf d, mode := some .standIn, segment := none, hold := none }
      out := { ack := some true, data := if d = .read then some f else none } }
  | _, _ => s.upNak

/-- What UP answers when a waiting forward request is withdrawn (R42). -/
inductive Withdrawal where
  | standIn
  | nak
  deriving DecidableEq, Repr

/-- Withdraw the forward request that waits at engine `k`, if any (R42): a catch-all request, and one whose
slot became FREE, is not acknowledged; any other is answered by stand-in. -/
def State.withdraw (s : State) (k : Seg) (how : Withdrawal) : State :=
  match (s.engine k).request with
  | none => s
  | some q =>
    let s1 := s.modEngine k fun e => { e with request := none }
    match q.slot, how with
    | some _, .standIn => s1.upStandIn
    | _, _ => s1.upNak

/-- The same, only when the request is for slot `i`. -/
def State.withdrawSlot (s : State) (k : Seg) (i : Slot) (how : Withdrawal) : State :=
  match (s.engine k).request with
  | some { slot := some j, .. } => if j = i then s.withdraw k how else s
  | _ => s

/-! ### Posted queues (R77, R87) -/

def Entry.cost (e : Entry) : Nat := e.data.length + Config.entryOverhead

def queueCost : List Entry → Nat
  | [] => 0
  | e :: rest => e.cost + queueCost rest

/-- The entry at the head of segment `k`'s queue is on the bus. -/
def State.deliveryOnBus (s : State) (k : Seg) : Bool :=
  match (s.engine k).tx with
  | some t => t.kind == .delivery && !t.silent
  | none => false

/-- A posted entry of slot `i` stands in the queue of segment `k`. -/
def State.hasQueued (s : State) (k : Seg) (i : Slot) : Bool :=
  (s.poolSeg k).queue.any fun e => e.slot == i

/-- One undelivered claim on slot `i` (R19, R7): the count rises, saturating at 255, and a rise adds the slot
to the changed-slot set. A claim on a FREE slot is discarded. -/
def State.undeliveredClaim (s : State) (i : Slot) : State :=
  match s.recAt i with
  | some r =>
    if r.undelivered < Config.maxUndelivered then
      (s.putRec i (some { r with undelivered := r.undelivered + 1 })).markChanged i
    else s
  | none => s

/-- One claim for each of these entries. -/
def State.undeliveredClaims (s : State) : List Entry → State
  | [] => s
  | e :: rest => (s.undeliveredClaim e.slot).undeliveredClaims rest

/-- The entries of segment `k`'s queue that no delivery has on the bus. -/
def State.waitingEntries (s : State) (k : Seg) : List Entry :=
  if s.deliveryOnBus k then (s.poolSeg k).queue.drop 1 else (s.poolSeg k).queue

/-- The entry on the bus, if a delivery runs on segment `k`. -/
def State.busEntries (s : State) (k : Seg) : List Entry :=
  if s.deliveryOnBus k then (s.poolSeg k).queue.take 1 else []

/-- The entries a purge of segment `k` removes now (R87): those it covers that are not on the bus. -/
def State.purgeable (s : State) (k : Seg) (covers : Entry → Bool) : List Entry :=
  (s.waitingEntries k).filter covers

/-- A purge of segment `k`'s queue (R87): each entry it covers is removed with one undelivered claim; the entry
on the bus gets the purge mark and stays. -/
def State.purge (s : State) (k : Seg) (covers : Entry → Bool) : State :=
  (s.modPool k fun p =>
    { p with
      queue := s.busEntries k ++ (s.waitingEntries k).filter fun e => !covers e
      purgeMark := p.purgeMark || (s.busEntries k).any covers }).undeliveredClaims (s.purgeable k covers)

/-! ### Slots becoming FREE (R12, R24) -/

/-- The engine's note of a record it has a transaction for no longer names the record of slot `i`. -/
def Engine.forgetSlot (i : Slot) (e : Engine) : Engine :=
  { e with
    probeQueue := e.probeQueue.filter fun j => j != i
    tx := e.tx.map fun t => if t.slot = some i then { t with sameRecord := false, ownsMarker := false } else t }

/-- Slot `i` becomes FREE (R12): its alias leaves the index, the slot leaves the probe queue and joins the
changed-slot set, a waiting forward request for it is not acknowledged (R42), waiting RETIREs are answered
(R24) and waiting PROBEs are answered RETIRED (R145). -/
def State.freeSlot (s : State) (i : Slot) : State :=
  match s.recAt i with
  | none => s
  | some r =>
    let s1 := (s.putRec i none).setDir
      { slots := s.dir.slots.set i.val none,
        aliasIndex := s.dir.aliasIndex.set r.aliasAddr.toNat none r.aliasAddr.isLt }
    let s2 := (s1.setEng (s1.eng.map (Engine.forgetSlot i))).markChanged i
    let s3 := s2.withdrawSlot r.segment i .nak
    (s3.answerRetires i).answerProbes i .retired

/-- A RETIRING record that owes nothing, no queued entry and no transaction on the bus, becomes FREE (R24). -/
def State.retireCheck (s : State) (i : Slot) : State :=
  match s.recAt i with
  | some r =>
    if r.state = .retiring ∧ r.marker = .none ∧ s.hasQueued r.segment i = false then s.freeSlot i else s
  | none => s

def State.retireChecks (s : State) : List Entry → State
  | [] => s
  | e :: rest => (s.retireCheck e.slot).retireChecks rest

/-- A purge by FLUSH, RETIRE or FAILED, with the retirements it ends (R87, R24). -/
def State.purgeAndRetire (s : State) (k : Seg) (covers : Entry → Bool) : State :=
  (s.purge k covers).retireChecks (s.purgeable k covers)

/-! ### Changes of a record's state (R10, R11) -/

def Record.toBound (r : Record) : Record :=
  { r with state := .bound, errorCount := 0, reprobeFailures := 0, cause := none, holdOff := 0, absenceAge := 0,
           expiryHeld := false }

def Record.toQuarantined (cause : Cause) (holdOff : Nat) (r : Record) : Record :=
  { r with state := .quarantined, reprobeFailures := 0, cause := some cause, holdOff := holdOff, absenceAge := 0,
           used := false, expiryHeld := false }

def Record.toAbsent (r : Record) : Record :=
  { r with state := .absent, cause := none, holdOff := 0, absenceAge := 0, used := false, expiryHeld := false }

def Record.toRetiring (r : Record) : Record :=
  { r with state := .retiring, cause := none, holdOff := 0, used := false, expiryHeld := false }

/-- PENDING by REBIND, at a new segment and target; the identity is kept only with frozen on (R10, R20). -/
def Record.toRebound (k : Seg) (t : Addr) (r : Record) : Record :=
  { r with state := .pending, segment := k, target := t, errorCount := 0, reprobeFailures := 0, cause := none,
           holdOff := 0, absenceAge := 0, used := false, expiryHeld := false,
           identity := if r.frozen then r.identity else none }

/-- What leaving BOUND does beside the record (R11): PWP purges the record's entries (`purges`; a RETIRE asks
for its own purge), and a waiting forward is withdrawn. `k` is the segment the record had. -/
def State.leaveBound (s : State) (i : Slot) (k : Seg) (purges : Bool) : State :=
  let s1 := s.withdrawSlot k i .standIn
  if purges then s1.purge k fun e => e.slot == i else s1

/-- Change the state of the record in slot `i` by `f`, with the effects of R11. -/
def State.moveRec (s : State) (i : Slot) (f : Record → Record) : State :=
  match s.recAt i with
  | none => s
  | some r =>
    let s1 := (s.putRec i (some (f r))).markChanged i
    if r.state = .bound ∧ (f r).state ≠ .bound then
      s1.leaveBound i r.segment (decide ((f r).state ≠ .retiring))
    else s1

/-- One charge (R18, R106): taken only while the record is BOUND; at the threshold the record enters
QUARANTINED with cause ERRORS. -/
def State.charge (s : State) (i : Slot) : State :=
  match s.recAt i with
  | some r =>
    if r.state = .bound then
      if r.threshold ≤ r.errorCount + 1 then
        s.moveRec i fun r => { r with errorCount := r.errorCount + 1 }.toQuarantined .errors s.hm.holdOff
      else s.putRec i (some { r with errorCount := r.errorCount + 1 })
    else s
  | none => s

/-- The used claim (R8): taken only while the record is BOUND. -/
def State.usedClaim (s : State) (i : Slot) : State :=
  s.modRec i fun r => if r.state = .bound then { r with used := true } else r

/-- The end of a transaction clears the record's in-flight marker (R8, R18). -/
def State.clearMarker (s : State) (i : Slot) : State := s.modRec i fun r => { r with marker := .none }

/-! ### Absence expiry (R26) -/

/-- DIR takes an absence expiry claim on slot `i`, holds it while a transaction of the record is on the bus, or
discards it (R26). A claim held is judged again when the transaction ends (log entry 12). -/
def State.absenceExpiry (s : State) (i : Slot) : State :=
  match s.recAt i with
  | some r =>
    if r.state = .absent ∧ r.cls = .dynamic ∧ s.isProtected i = false then
      if r.marker = .none then s.freeSlot i else s.putRec i (some { r with expiryHeld := true })
    else s
  | none => s

/-- After a transaction of slot `i` has ended and its outcome has been applied: a retirement may end (R24) and
a held expiry claim is taken or dropped (R26). -/
def State.afterEnd (s : State) (i : Slot) : State :=
  let s1 := s.retireCheck i
  match s1.recAt i with
  | some r => if r.expiryHeld then (s1.putRec i (some { r with expiryHeld := false })).absenceExpiry i else s1
  | none => s1

/-! ### Probe requests (R56, R96, R98) -/

/-- A probe request joins the queued request of its slot or goes to the tail (R56). -/
def Engine.enqueueProbe (i : Slot) (e : Engine) : Engine :=
  { e with probeQueue := if i ∈ e.probeQueue then e.probeQueue else e.probeQueue ++ [i] }

/-- A refused probe request (R98): the hold-off of a QUARANTINED record starts again full, and a PROBE that
waits on the request is answered SEGMENT_FAULT (R145). -/
def State.refuseProbe (s : State) (i : Slot) : State :=
  (s.modRec i fun r => if r.state = .quarantined then { r with holdOff := s.hm.holdOff } else r).answerQueuedProbes
    i .segmentFault

/-- HM asks for a probe of slot `i` on its record's segment (R96). -/
def State.requestProbe (s : State) (i : Slot) : State :=
  match s.recAt i with
  | some r =>
    if (s.engine r.segment).state = .failed then s.refuseProbe i
    else s.modEngine r.segment (Engine.enqueueProbe i)
  | none => s

/-- HM asks for a probe of each of these slots, in their order. -/
def State.requestProbes (s : State) : List Slot → State
  | [] => s
  | i :: rest => (s.requestProbe i).requestProbes rest

/-- The slots of PENDING records that `p` picks, in ascending order: the order in which the requests of one event reach
a probe queue (R56, R96, log entry 33). -/
def State.pendingSlots (s : State) (p : Record → Bool) : List Slot :=
  allSlots.filter fun i =>
    match s.recAt i with
    | some r => r.state == .pending && p r
    | none => false

/-! ### Discovery's end (R125) -/

/-- The result bytes of a discovery (R187). -/
def Discovery.results (d : Discovery) : List Byte :=
  [oneByte d.found, oneByte d.created, oneByte d.known, oneByte d.collisions,
   match d.lastFinished with
   | some a => a.zeroExtend 8
   | none => 0xFF]

/-- The discovery of segment `k` ends with `code`: its context is given up and its DISCOVER answered (R125). -/
def State.endDiscovery (s : State) (k : Seg) (code : ResultCode) : State :=
  match (s.engine k).discovery with
  | none => s
  | some d =>
    (s.modEngine k fun e => { e with discovery := none }).settleOps fun o =>
      if o.work = .discover k then
        some { kind := .discover, tag := o.tag, code := code, results := d.results }
      else none

/-! ### The engine's states (R58, R69, R71, R73) -/

/-- The engine enters PAUSED (R73): the pending PAUSE is answered DONE and a waiting forward withdrawn. -/
def State.enterPaused (s : State) (k : Seg) : State :=
  let s1 := s.modEngine k fun e =>
    { e with state := .paused, pausePending := false, tx := none, stall := none, attempt := none }
  (s1.answerPause k .done).withdraw k .standIn

/-- A transaction is off the bus with its stop: the engine enters IDLE, or PAUSED when a pause is pending
(R58, R73, R76). -/
def State.releaseBus (s : State) (k : Seg) : State :=
  if (s.engine k).pausePending then s.enterPaused k
  else s.modEngine k fun e => { e with state := .idle, tx := none, stall := none }

/-- The engine enters RECOVERING and begins its first attempt at once, at the rate in force (R69, R64). -/
def Engine.toRecovering (e : Engine) : Engine :=
  { e with state := .recovering, tx := none, stall := none, attemptCount := 0, attempt := none, busRate := e.rate }

def State.enterRecovering (s : State) (k : Seg) : State := s.modEngine k Engine.toRecovering

/-- Each of these slots' requests is refused (R71, R98). -/
def State.refuseProbes (s : State) : List Slot → State
  | [] => s
  | i :: rest => (s.refuseProbe i).refuseProbes rest

def State.markFault (s : State) (k : Seg) (f : FaultMarks → FaultMarks) : State :=
  s.setAu { s.au with faults := s.au.faults.set k (f (s.au.faults.get k)) }

/-- The third attempt has failed: the engine enters FAILED, with all that R71 lists. -/
def State.enterFailed (s : State) (k : Seg) : State :=
  let s1 := s.modEngine k fun e =>
    { e with state := .failed, attempt := none, stall := none, tx := none, pausePending := false,
             resumeWaiting := false }
  let s2 := s1.withdraw k .standIn
  let s3 := s2.purgeAndRetire k fun _ => true
  let dropped := (s3.engine k).probeQueue
  let s4 := (s3.modEngine k fun e => { e with probeQueue := [] }).refuseProbes dropped
  let s5 := s4.endDiscovery k .segmentFault
  let s6 := (s5.answerPause k .segmentFault).answerResume k .segmentFault
  s6.markFault k fun m => { m with failed := true }

/-! ### Asking the engine to end a forward (R59) -/

/-- The point a transaction reaches when its end is asked for: the byte on the bus is finished first; a read
byte held for the master's answer gets a NAK, and then the stop is sent (R59, R41), which also follows a NAK being
given (R39). -/
def BusStep.closing : BusStep → BusStep
  | .address => .address
  | .waitUp => .stop
  | .send b => .send b
  | .fetch => .fetch
  | .hold _ | .nak => .stop
  | .stop => .stop

def Tx.isForward (t : Tx) : Bool := t.kind == .forward || t.kind == .catchAll

/-- UP asks engine `k` to end its forward (R59): phase CLOSING, on request. A target's hold that is being timed goes on
being timed, in that last byte as in any other phase. -/
def State.requestEnd (s : State) (k : Seg) : State :=
  s.modEngine k fun e =>
    match e.tx with
    | some t =>
      if t.isForward ∧ t.phase ≠ .closing ∧ t.silent = false then
        { e with tx := some { t with phase := .closing, step := t.step.closing, reason := some .onRequest } }
      else e
    | none => e

/-- UP asks for the end of the downstream transaction it still has open, if any (R39, R40). -/
def State.requestEndOpen (s : State) : State :=
  match s.up.ctx.downOpen with
  | some k => s.requestEnd k
  | none => s

/-! ### Traffic notices (R34, R102) -/

def Health.idleStart (h : Health) : Option Nat :=
  if h.idleTimeout = 0 then none else some (h.idleTimeout * Config.secondMs)

def Health.notice (h : Health) : Health :=
  match h.cadence with
  | .active => { h with idleLeft := h.idleStart }
  | .relaxed =>
    { h with cadence := .active, surveyLeft := min h.surveyLeft (h.activePeriod * Config.stepMs),
             idleLeft := h.idleStart }

/-! ### Responses (R130, R169) -/

/-- A response joins the tail of the response queue. -/
def State.pushResponse (s : State) (r : Response) : State :=
  s.setMp { s.mp with responses := s.mp.responses ++ [r] }

/-- The answers the event has given leave DC's set and join the response queue, in the order the commands were
taken (R132). -/
def State.deliver (s : State) : State :=
  (s.setDc { ops := s.dc.ops.filter fun o => o.answer.isNone }).setMp
    { s.mp with responses := s.mp.responses ++ s.dc.ops.filterMap fun o => o.answer }

end Sys2Proof.Machine
end

