-- ==== Sys2Proof/Machine/Operands.lean ====
section
/-! DEFINITION. Machine/Operands.lean: how the bytes of a command are decoded (R135, R182 to R186). A decoder
answers none where a field is out of range: the command is refused BAD_FIELD. -/

namespace Sys2Proof.Machine

/-- The kind a kind byte names (R182). -/
def kindOf (b : Byte) : Option CmdKind :=
  match b.toNat with
  | 0x01 => some .lookup
  | 0x02 => some .bind
  | 0x03 => some .edit
  | 0x04 => some .rebind
  | 0x05 => some .retire
  | 0x06 => some .clearCounts
  | 0x07 => some .probe
  | 0x08 => some .discover
  | 0x09 => some .cancel
  | 0x0A => some .pause
  | 0x0B => some .resume
  | 0x0C => some .flush
  | 0x0D => some .partition
  | 0x0E => some .setTiming
  | 0x0F => some .setProtect
  | 0x10 => some .fixProtect
  | 0x11 => some .setAlert
  | 0x12 => some .changes
  | _ => none

/-- A command's length, from the kind byte to its last field (R182). -/
def commandLength : CmdKind → Nat
  | .lookup => 5
  | .bind => 11
  | .edit => 19
  | .rebind => 5
  | .retire => 4
  | .clearCounts => 3
  | .probe => 3
  | .discover => 6
  | .cancel => 3
  | .pause => 3
  | .resume => 3
  | .flush => 3
  | .partition => 10
  | .setTiming => 11
  | .setProtect => 4
  | .fixProtect => 2
  | .setAlert => 13
  | .changes => 2

/-- The modifying commands (R160, R130). -/
def modifying : CmdKind → Bool
  | .lookup => false
  | .bind => true
  | .edit => true
  | .rebind => true
  | .retire => true
  | .clearCounts => false
  | .probe => false
  | .discover => true
  | .cancel => false
  | .pause => true
  | .resume => true
  | .flush => true
  | .partition => true
  | .setTiming => true
  | .setProtect => true
  | .fixProtect => true
  | .setAlert => true
  | .changes => false

/-! ### Single fields -/

def slotOf (b : Byte) : Option Slot := if h : b.toNat < 48 then some ⟨b.toNat, h⟩ else none

def segOf (b : Byte) : Option Seg := if h : b.toNat < 4 then some ⟨b.toNat, h⟩ else none

/-- An alias or target, 0x08 to 0x77. -/
def addrOf (b : Byte) : Option Addr :=
  if Config.addrLow ≤ b.toNat ∧ b.toNat ≤ Config.addrHigh then some (b.truncate 7) else none

/-- An address LOOKUP may name, 0x00 to 0x7F (R183). -/
def anyAddrOf (b : Byte) : Option Addr := if b.toNat < 128 then some (b.truncate 7) else none

/-- A byte that is 0x00 or 0x01. -/
def switchOf (b : Byte) : Option Bool := if b = 0x00 then some false else if b = 0x01 then some true else none

/-- A count from 1 to 255. -/
def positiveOf (b : Byte) : Option Nat := if b = 0 then none else some b.toNat

/-- A slot, or 0xFF for every slot or any slot: the outer none is out of range, `some none` is 0xFF. -/
def slotOrAllOf (b : Byte) : Option (Option Slot) :=
  if b = 0xFF then some none else (slotOf b).map some

/-! ### The commands of R183 -/

/-- The three ways of LOOKUP (R136, R183). -/
inductive LookupKey where
  | slot (i : Slot)
  | byAlias (a : Addr)
  | pair (k : Seg) (t : Addr)
  deriving DecidableEq, Repr

def decodeLookup : List Byte → Option LookupKey
  | [method, key1, key2] =>
    match method.toNat with
    | 0 => (slotOf key1).map .slot
    | 1 => (anyAddrOf key1).map .byAlias
    | 2 =>
      match segOf key1, anyAddrOf key2 with
      | some k, some t => some (.pair k t)
      | _, _ => none
    | _ => none
  | _ => none

def decodeRebind : List Byte → Option (Slot × Seg × Addr)
  | [slot, seg, target] =>
    match slotOf slot, segOf seg, addrOf target with
    | some i, some k, some t => some (i, k, t)
    | _, _, _ => none
  | _ => none

/-- Slot, and whether the mode is DISCARD. -/
def decodeRetire : List Byte → Option (Slot × Bool)
  | [slot, mode] =>
    match slotOf slot, switchOf mode with
    | some i, some m => some (i, m)
    | _, _ => none
  | _ => none

/-- The slot, or none for ALL. -/
def decodeClearCounts : List Byte → Option (Option Slot)
  | [slot] => slotOrAllOf slot
  | _ => none

def decodeSlot : List Byte → Option Slot
  | [slot] => slotOf slot
  | _ => none

def decodeSeg : List Byte → Option Seg
  | [seg] => segOf seg
  | _ => none

def decodeTag : List Byte → Option Byte
  | [tag] => some tag
  | _ => none

/-- Segment, window low, window high and alias base, with the window inside 0x08 to 0x77 and so the aliases
(R118, R183). -/
def decodeDiscover : List Byte → Option (Seg × Addr × Addr × Addr)
  | [seg, low, high, base] =>
    match segOf seg, addrOf low, addrOf high, addrOf base with
    | some k, some l, some h, some b =>
      if l.toNat ≤ h.toNat ∧ b.toNat + (h.toNat - l.toNat) ≤ Config.addrHigh then some (k, l, h, b) else none
    | _, _, _, _ => none
  | _ => none

/-- The protect code and the lock. -/
def decodeProtect : List Byte → Option (Fin 8 × Bool)
  | [code, lock] =>
    if h : code.toNat < 8 then
      match switchOf lock with
      | some l => some (⟨code.toNat, h⟩, l)
      | none => none
    else none
  | _ => none

def wordOf (hi lo : Byte) : Nat := hi.toNat * 256 + lo.toNat

/-- The four share values as sent, 0 to 65535 (R183). -/
def decodePartition : List Byte → Option (Quad Nat)
  | [a1, a0, b1, b0, c1, c0, d1, d0] =>
    some { s0 := wordOf a1 a0, s1 := wordOf b1 b0, s2 := wordOf c1 c0, s3 := wordOf d1 d0 }
  | _ => none

/-! ### BIND (R184) -/

/-- The fields of a BIND; `slot` none is ANY. -/
structure BindFields where
  slot : Option Slot
  aliasAddr : Addr
  segment : Seg
  target : Addr
  cls : RecClass
  policy : Policy
  posting : Bool
  frozen : Bool
  probeReg : Option Byte
  identity : Option Byte
  fill : Byte
  threshold : Nat
  deriving DecidableEq, Repr

def decodeBind : List Byte → Option BindFields
  | [slot, aliasByte, seg, target, options, fill, probeReg, identity, threshold] =>
    match slotOrAllOf slot, addrOf aliasByte, segOf seg, addrOf target, positiveOf threshold with
    | some i, some a, some k, some t, some n =>
      if options.getLsbD 7 then none
      else if options.getLsbD 3 ∧ options.getLsbD 4 = false then none
      else
        some {
          slot := i, aliasAddr := a, segment := k, target := t,
          cls := if options.getLsbD 0 then .held else .dynamic,
          policy := if options.getLsbD 1 then .fill else .refuse,
          posting := options.getLsbD 2, frozen := options.getLsbD 3,
          probeReg := if options.getLsbD 4 then some probeReg else none,
          identity := if options.getLsbD 5 then some identity else none,
          fill := if options.getLsbD 6 then fill else Config.defaultFill,
          threshold := n }
    | _, _, _, _, _ => none
  | _ => none

/-! ### EDIT (R185) -/

/-- An EDIT's selection: each field none where it is not selected. -/
structure Selection where
  cls : Option RecClass
  policy : Option Policy
  fill : Option Byte
  posting : Option Bool
  probeReg : Option (Option Byte)
  frozen : Option Bool
  identity : Option (Option Byte)
  threshold : Option Nat
  deriving DecidableEq, Repr

def Selection.nothing : Selection :=
  { cls := none, policy := none, fill := none, posting := none, probeReg := none, frozen := none,
    identity := none, threshold := none }

/-- Select a field once; a second selection of it is out of range. -/
def once {α : Type} (already : Option α) (value : Option α) : Option (Option α) :=
  match already, value with
  | none, some v => some (some v)
  | _, _ => none

/-- One selection pair of field code and value (R185). -/
def Selection.add (sel : Selection) (code value : Byte) : Option Selection :=
  match code.toNat with
  | 0x00 => some sel
  | 0x01 =>
    (once sel.cls ((switchOf value).map fun b => if b then .held else .dynamic)).map fun v => { sel with cls := v }
  | 0x02 =>
    (once sel.policy ((switchOf value).map fun b => if b then .fill else .refuse)).map
      fun v => { sel with policy := v }
  | 0x03 => (once sel.fill (some value)).map fun v => { sel with fill := v }
  | 0x04 => (once sel.posting (switchOf value)).map fun v => { sel with posting := v }
  | 0x05 => (once sel.probeReg (some (some value))).map fun v => { sel with probeReg := v }
  | 0x06 => (once sel.probeReg (some none)).map fun v => { sel with probeReg := v }
  | 0x07 => (once sel.frozen (switchOf value)).map fun v => { sel with frozen := v }
  | 0x08 => (once sel.identity (some (some value))).map fun v => { sel with identity := v }
  | 0x09 => (once sel.identity (some none)).map fun v => { sel with identity := v }
  | 0x0A => (once sel.threshold (positiveOf value)).map fun v => { sel with threshold := v }
  | _ => none

/-- The selection pairs in their order; a byte without its pair is out of range. -/
def decodePairs : Selection → List Byte → Option Selection
  | sel, [] => some sel
  | _, [_] => none
  | sel, code :: value :: rest =>
    match sel.add code value with
    | some sel' => decodePairs sel' rest
    | none => none

def decodeEdit : List Byte → Option (Slot × Selection)
  | slot :: pairs =>
    if pairs.length = 16 then
      match slotOf slot, decodePairs .nothing pairs with
      | some i, some sel => some (i, sel)
      | _, _ => none
    else none
  | [] => none

/-! ### SET_TIMING and SET_ALERT (R186) -/

structure Timing where
  holdLimit : Nat
  stallLimit : Nat
  activePeriod : Nat
  relaxedPeriod : Nat
  idleTimeout : Nat
  holdOff : Nat
  lifetime : Nat
  catchAll : Option Seg
  rates : Quad Rate
  deriving DecidableEq, Repr

/-- Two bits of the rates byte. -/
def rateOf (n : Nat) : Option Rate :=
  match n % 4 with
  | 0 => some .khz100
  | 1 => some .khz400
  | 2 => some .khz1000
  | _ => none

def ratesOf (b : Byte) : Option (Quad Rate) :=
  match rateOf b.toNat, rateOf (b.toNat / 4), rateOf (b.toNat / 16), rateOf (b.toNat / 64) with
  | some r0, some r1, some r2, some r3 => some { s0 := r0, s1 := r1, s2 := r2, s3 := r3 }
  | _, _, _, _ => none

/-- 0xFF for off (`some none`), or a segment. -/
def catchAllOf (b : Byte) : Option (Option Seg) := if b = 0xFF then some none else (segOf b).map some

def decodeTiming : List Byte → Option Timing
  | [hold, stallByte, act, rel, idle, off, life, catchByte, rates] =>
    match positiveOf hold, positiveOf stallByte, positiveOf act, positiveOf rel, positiveOf off,
        catchAllOf catchByte, ratesOf rates with
    | some h, some st, some a, some r, some o, some c, some q =>
      some { holdLimit := h, stallLimit := st, activePeriod := a, relaxedPeriod := r, idleTimeout := idle.toNat,
             holdOff := o, lifetime := life.toNat, catchAll := c, rates := q }
    | _, _, _, _, _, _, _ => none
  | _ => none

inductive AlertTarget where
  | line (k : Seg) (config : AlertConfig)
  | attn (responses : Bool) (changes : Bool)
  deriving DecidableEq, Repr

def conditionOf (b : Byte) : Option AlertCondition :=
  match b.toNat with
  | 0 => some .disabled
  | 1 => some .quarantined
  | 2 => some .absent
  | 3 => some .notBound
  | 4 => some .undelivered
  | _ => none

def driveOf (b : Byte) : Option Drive :=
  match b.toNat with
  | 0 => some .openDrain
  | 1 => some .pushPull
  | _ => none

/-- The slot-set bytes as one number, most significant byte first. -/
def bigEndian : List Byte → Nat
  | bytes => bytes.foldl (fun n b => n * 256 + b.toNat) 0

def slotSetOf (bytes : List Byte) : Option (BitVec 48) :=
  if bytes.length = 8 ∧ bigEndian bytes < 2 ^ 48 then some (BitVec.ofNat 48 (bigEndian bytes)) else none

def decodeAlert : List Byte → Option AlertTarget
  | target :: second :: drive :: set =>
    if target = 4 then
      if second.toNat < 4 then some (.attn (second.getLsbD 0) (second.getLsbD 1)) else none
    else
      match segOf target, conditionOf second, driveOf drive, slotSetOf set with
      | some k, some c, some d, some q => some (.line k { condition := c, slots := q, drive := d })
      | _, _, _, _ => none
  | _ => none

end Sys2Proof.Machine
end

