-- ==== Sys2Proof/Machine/Arbiter.lean ====
section
/-! DEFINITION. Machine/Arbiter.lean: the engine's arbiter (R54), the start of a transaction on the bus (R58)
and the fault found at a start (R66), with discovery's offer of its next address (R120). -/

namespace Sys2Proof.Machine

/-- The work the arbiter can take before it comes to discovery (R54, steps 1 to 3). -/
inductive Work where
  | forward (q : FwdRequest)
  | delivery (e : Entry) (r : Record)
  | probe (i : Slot) (r : Record)
  deriving DecidableEq, Repr

/-- Step 1: a CATCH-ALL request is available whenever it waits, a FORWARD one while no entry of its slot is
queued on the segment (R54). -/
def State.availableForward (s : State) (k : Seg) : Option FwdRequest :=
  match (s.engine k).request with
  | some q =>
    match q.slot with
    | some i => if s.hasQueued k i then none else some q
    | none => some q
  | none => none

/-- Step 2: the head entry of the posted queue, with its record (R54, R82). -/
def State.availableEntry (s : State) (k : Seg) : Option (Entry × Record) :=
  match (s.poolSeg k).queue with
  | e :: _ =>
    match s.recAt e.slot with
    | some r => some (e, r)
    | none => none
  | [] => none

/-- The first slot of a probe queue whose record is not RETIRING, with that record (R54, R56). -/
def State.firstProbe (s : State) : List Slot → Option (Slot × Record)
  | [] => none
  | i :: rest =>
    match s.recAt i with
    | some r => if r.state = .retiring then s.firstProbe rest else some (i, r)
    | none => s.firstProbe rest

/-- Steps 1 to 3 of the arbiter's choice (R54). -/
def State.chooseWork (s : State) (k : Seg) : Option Work :=
  match s.availableForward k with
  | some q => some (.forward q)
  | none =>
    match s.availableEntry k with
    | some (e, r) => some (.delivery e r)
    | none =>
      match s.firstProbe (s.engine k).probeQueue with
      | some (i, r) => some (.probe i r)
      | none => none

/-- A transaction as it stands when its start and address go out (R58). -/
def Tx.start (kind : TxKind) (slot : Option Slot) (target : Addr) (dir : Dir) (register : Option Byte)
    (ownsMarker : Bool) : Tx :=
  { kind := kind, slot := slot, target := target, dir := dir, phase := .address, carried := 0, step := .address,
    register := register, reason := none, ownsMarker := ownsMarker, sameRecord := true, silent := false }

/-- The engine becomes ACTIVE with transaction `t`, at the rate in force, and waits for the target (R58, R64). -/
def State.putOnBus (s : State) (k : Seg) (t : Tx) : State :=
  s.modEngine k fun e => { e with state := .active, tx := some t, busRate := e.rate, stall := none }

/-- The transaction of a piece of work (R58, R60, R61, R62). -/
def Work.tx : Work → Tx
  | .forward q =>
    .start (if q.slot.isSome then .forward else .catchAll) q.slot q.target q.dir none q.slot.isSome
  | .delivery e r => .start .delivery (some e.slot) r.target .write none true
  | .probe i r =>
    .start (if r.probeReg.isSome then .identityProbe else .quickProbe) (some i) r.target .write r.probeReg true

/-- What a start changes beside the engine's transaction: the forward request is taken and UP's downstream open
becomes yes (R36); a probe's slot leaves the queue and its notes go with the probe (R56, R143); the record's
in-flight marker is set (R8, R58). -/
def State.beginWork (s : State) (k : Seg) : Work → State
  | .forward q =>
    let s1 := s.modEngine k fun e => { e with request := none }
    let s2 := s1.setCtx { s1.up.ctx with downOpen := some k }
    match q.slot with
    | some i => s2.modRec i fun r => { r with marker := .forward }
    | none => s2
  | .delivery e _ => s.modRec e.slot fun r => { r with marker := .delivery }
  | .probe i _ =>
    ((s.modEngine k fun e => { e with probeQueue := e.probeQueue.erase i }).moveNotes i true).modRec i
      fun r => { r with marker := .probe }

/-- Pass over the window addresses that a record on the segment holds: each is finished as KNOWN (R57, R120).
`fuel` bounds the walk; a window has at most 112 addresses. -/
def State.passKnown (s : State) (k : Seg) : Nat → Discovery → Discovery
  | 0, d => d
  | fuel + 1, d =>
    match d.next with
    | none => d
    | some t =>
      if (s.lookupPair k t).isSome then
        s.passKnown k fuel
          { d with known := d.known + 1, lastFinished := some t, next := if t = d.high then none else some (t + 1) }
      else d

/-- Step 4 of the arbiter's choice: the discovery is offered its next address (R54, R57, R120). -/
def State.offerDiscovery (s : State) (k : Seg) (low : LowLines) : State :=
  match (s.engine k).discovery with
  | none => s
  | some d =>
    let d1 := s.passKnown k 128 d
    match d1.next with
    | none => (s.modEngine k fun e => { e with discovery := some d1 }).endDiscovery k .done
    | some t =>
      if k ∈ low then (s.modEngine k fun e => { e with discovery := some d1 }).enterRecovering k
      else
        (s.modEngine k fun e => { e with discovery := some { d1 with onBus := some t } }).putOnBus k
          (.start .discoveryProbe none t .write none false)

/-- The arbiter of engine `k` chooses when the engine is IDLE (R54). A line found low at the start puts the
engine in RECOVERING and leaves the work where it stood (R66). -/
def State.arbitrate (s : State) (low : LowLines) (k : Seg) : State :=
  if (s.engine k).state = .idle then
    match s.chooseWork k with
    | some w => if k ∈ low then s.enterRecovering k else (s.beginWork k w).putOnBus k w.tx
    | none => s.offerDiscovery k low
  else s

/-- Every IDLE engine chooses. -/
def State.arbitrateAll (s : State) (low : LowLines) : State :=
  (((s.arbitrate low 0).arbitrate low 1).arbitrate low 2).arbitrate low 3

end Sys2Proof.Machine
end

