-- ==== Sys2Proof/Machine/Flags.lean ====
section
/-! DEFINITION. Machine/Flags.lean: what the part shows: the alert lines and ATTN (R178, R180), the status word
(R164, R181), the codes and images of responses (R187, R188), and the end of an event. -/

namespace Sys2Proof.Machine

/-! ### Alert lines and ATTN -/

/-- A record meets an alert condition (R178). -/
def meetsCondition (c : AlertCondition) (r : Record) : Bool :=
  match c with
  | .disabled => false
  | .quarantined => r.state == .quarantined
  | .absent => r.state == .absent
  | .notBound => r.state != .bound
  | .undelivered => decide (0 < r.undelivered)

/-- A line is active while a slot of its set holds a record that meets its condition (R178). -/
def State.lineActive (s : State) (c : AlertConfig) : Bool :=
  allSlots.any fun i =>
    c.slots.getLsbD i.val &&
      match s.recAt i with
      | some r => meetsCondition c.condition r
      | none => false

/-- The level of a line by its drive (R178). -/
def driveLevel (d : Drive) (active : Bool) : LineLevel :=
  match d, active with
  | .pushPull, true => .high
  | .pushPull, false => .low
  | .openDrain, true => .low
  | .openDrain, false => .released

/-- The level AU gives a line; while a full reset is held it is released whatever its drive (R174). -/
def State.alertLevel (s : State) (c : AlertConfig) : LineLevel :=
  if s.inReset then .released else driveLevel c.drive (s.lineActive c)

/-- The changed-slot set or the segment-fault set has a member. -/
def Alerts.anyChange (a : Alerts) : Bool :=
  a.changed.toList.any id || a.faults.toList.any fun m => m.recovered || m.failed

/-- ATTN is asserted while a counted cause holds (R180); while a full reset is held it is released (R174). -/
def State.attnLevel (s : State) : Bool :=
  !s.inReset &&
    (s.mp.notice || (!s.mp.responses.isEmpty && s.au.responsesEnabled) ||
      (s.au.anyChange && s.au.changesEnabled))

/-- AU evaluates its lines against the records as they stand (R178, R180). -/
def State.evaluate (s : State) : State :=
  s.setAu { s.au with alert := s.au.lines.map s.alertLevel, attn := s.attnLevel }

/-! ### The end of an event -/

/-- The end of an event in which no IDLE engine can have got work: the answers are queued and the lines driven. -/
def State.conclude (s : State) : State := s.deliver.evaluate

/-- The end of an event in which work may have reached an IDLE engine: its arbiter chooses in that event (R54). -/
def State.settle (s : State) (low : LowLines) : State := (s.arbitrateAll low).conclude

/-- The same for a command that DC answers in the event: its response is queued last (R132). -/
def State.concludeWith (s : State) (r : Response) : State := (s.deliver.pushResponse r).evaluate

def State.settleWith (s : State) (low : LowLines) (r : Response) : State := (s.arbitrateAll low).concludeWith r

/-! ### The status word (R164, R181) -/

def FrameResult.code : FrameResult → Nat
  | .ok => 0
  | .partialEnd => 1
  | .unknown => 2
  | .kind => 3
  | .form => 4
  | .full => 5
  | .notEnabled => 6
  | .empty => 7
  | .ignored => 8

/-- Protect-lock on and PROT low (R158). -/
def Protection.inForce (p : Protection) : Bool := p.lock && !p.prot

def bit (b : Bool) (n : Nat) : BitVec 16 := if b then BitVec.ofNat 16 (2 ^ n) else 0

/-- The 16 bits of the status word (R181). -/
def State.statusWord (s : State) : BitVec 16 :=
  bit s.mp.notice 15 ||| bit s.mp.latch 14 ||| bit s.mp.restartEnable 13 ||| bit s.pu.inForce 12 |||
    BitVec.ofNat 16 (s.mp.lastResult.code * 256) |||
    BitVec.ofNat 16 (s.mp.responses.length % 16 * 16) ||| BitVec.ofNat 16 (s.mp.outstanding % 16)

/-- Byte `j` of a STATUS frame is this byte of its repetition's word, bit 15 first (R164, R181). -/
def statusByte (word : BitVec 16) (j : Nat) : Byte := if j % 2 = 0 then (word >>> 8).truncate 8 else word.truncate 8

/-! ### Codes and images (R182, R187, R188) -/

def CmdKind.code : CmdKind → Byte
  | .lookup => 0x01
  | .bind => 0x02
  | .edit => 0x03
  | .rebind => 0x04
  | .retire => 0x05
  | .clearCounts => 0x06
  | .probe => 0x07
  | .discover => 0x08
  | .cancel => 0x09
  | .pause => 0x0A
  | .resume => 0x0B
  | .flush => 0x0C
  | .partition => 0x0D
  | .setTiming => 0x0E
  | .setProtect => 0x0F
  | .fixProtect => 0x10
  | .setAlert => 0x11
  | .changes => 0x12

def ResultCode.code : ResultCode → Byte
  | .done => 0x00
  | .badField => 0x01
  | .notFound => 0x02
  | .slotFree => 0x03
  | .slotInUse => 0x04
  | .aliasInUse => 0x05
  | .targetInUse => 0x06
  | .tableFull => 0x07
  | .protectedSlot => 0x08
  | .busy => 0x09
  | .retired => 0x0A
  | .segmentFault => 0x0B
  | .cancelled => 0x0C
  | .alreadyRunning => 0x0D
  | .notQuiescent => 0x0E
  | .badPartition => 0x0F
  | .locked => 0x10
  | .fixed => 0x11

def RecState.code : RecState → Byte
  | .pending => 0x01
  | .bound => 0x02
  | .quarantined => 0x03
  | .absent => 0x04
  | .retiring => 0x05

def Marker.code : Marker → Byte
  | .none => 0x00
  | .forward => 0x01
  | .probe => 0x02
  | .delivery => 0x03

def causeCode : Option Cause → Byte
  | none => 0x00
  | some .errors => 0x01
  | some .mismatch => 0x02

/-- A response as POP shifts it: the length byte, then kind, tag, outcome and results (R187). -/
def Response.bytes (r : Response) : List Byte :=
  oneByte (3 + r.results.length) :: r.kind.code :: r.tag :: r.code.code :: r.results

def boolByte (b : Bool) : Byte := if b then 0x01 else 0x00

/-- The options byte of the record image (R188). -/
def Record.optionBits (r : Record) : Byte :=
  (if r.cls = .held then 0x01 else 0) ||| (if r.origin = .discovery then 0x02 else 0) |||
    (if r.policy = .fill then 0x04 else 0) ||| (if r.posting then 0x08 else 0) |||
    (if r.frozen then 0x10 else 0)

/-- An item that may be absent: its code with bit 7 set, and value 0x00, when it is (R188). -/
def optionalItem (code : Byte) : Option Byte → List Byte
  | some v => [code, v]
  | none => [code ||| 0x80, 0x00]

/-- The record image: eighteen items of two bytes (R188). -/
def Record.image (r : Record) : List Byte :=
  [0x21, r.state.code, 0x22, r.aliasAddr.zeroExtend 8, 0x23, oneByte r.segment.val,
   0x24, r.target.zeroExtend 8, 0x25, r.optionBits, 0x26, r.fill] ++
  optionalItem 0x27 r.probeReg ++ optionalItem 0x28 r.identity ++
  [0x29, oneByte r.errorCount, 0x2A, oneByte r.threshold, 0x2B, causeCode r.cause,
   0x2C, oneByte r.reprobeFailures, 0x2D, oneByte r.holdOff,
   0x2E, oneByte (r.absenceAge / 256), 0x2F, oneByte r.absenceAge,
   0x30, oneByte r.undelivered, 0x31, boolByte r.used, 0x32, r.marker.code]

/-- The slots of the changed-slot set in ascending order (R175, R177). -/
def Alerts.changedSlots (a : Alerts) : List Slot := allSlots.filter fun i => a.changed[i.val]

/-- A CHANGES mark byte (R187). -/
def FaultMarks.byte (m : FaultMarks) : Byte := (if m.recovered then 0x01 else 0) ||| (if m.failed then 0x02 else 0)

end Sys2Proof.Machine
end

