-- ==== Sys2Proof/Machine/Recovery.lean ====
section
/-! DEFINITION. Machine/Recovery.lean: the recovery of a segment bus (R69 to R71), the end of a closing left by a
restart (R76), and HM's timers (R101, R103, R107, R112). -/

namespace Sys2Proof.Machine

/-! ### Recovery attempts -/

/-- An attempt of engine `k` is in progress: the engine is RECOVERING and no wait between attempts runs (R69). -/
def State.attemptRuns (s : State) (k : Seg) : Bool :=
  (s.engine k).state == .recovering && (s.engine k).attempt.isNone

/-- The engine enters IDLE from a recovery begun by RESUME (R70): the RESUME is answered DONE, and HM asks for a
probe of every PENDING record on the segment (R96). The arbiter chooses after it, at the end of the event, so these
probes go ahead of a discovery that waited (log entry 37). -/
def State.resumeRecovered (s : State) (k : Seg) : State :=
  let s1 := (s.modEngine k fun e => { e with state := .idle, resumeWaiting := false }).answerResume k .done
  s1.requestProbes (s1.pendingSlots fun r => r.segment == k)

/-- An attempt has freed the bus (R70). -/
def State.attemptSucceeds (s : State) (k : Seg) : State :=
  let s1 := (s.modEngine k fun e => { e with attemptCount := 0, attempt := none }).markFault k
    fun m => { m with recovered := true }
  if (s1.engine k).pausePending then s1.enterPaused k
  else if (s1.engine k).resumeWaiting then s1.resumeRecovered k
  else s1.modEngine k fun e => { e with state := .idle }

/-- RECOVERY_ATTEMPT_SUCCEEDS. -/
def execRecoveryAttemptSucceeds (seg : Seg) (low : LowLines) (s : State) : Host.Outcome State Fault Refusal :=
  .next <| if s.attemptRuns seg then (s.attemptSucceeds seg).settle low else s

/-- An attempt has failed (R69): the count rises, and the wait for the next attempt starts, or at the third
failure the engine enters FAILED. -/
def State.attemptFails (s : State) (k : Seg) : State :=
  let s1 := s.modEngine k fun e =>
    { e with attemptCount := e.attemptCount + 1, attempt := some { limit := Config.attemptWait, elapsed := 0 } }
  if (s1.engine k).attemptCount < Config.maxAttempts then s1 else s1.enterFailed k

/-- RECOVERY_ATTEMPT_FAILS. -/
def execRecoveryAttemptFails (seg : Seg) (s : State) : Host.Outcome State Fault Refusal :=
  .next <| if s.attemptRuns seg then (s.attemptFails seg).conclude else s

/-- ATTEMPT_TIMER_EXPIRY: the next attempt begins, at the rate in force (R69, R64). -/
def execAttemptTimerExpiry (seg : Seg) (s : State) : Host.Outcome State Fault Refusal :=
  .next <|
    if (s.engine seg).state = .recovering ∧ (s.engine seg).attempt.isSome then
      s.modEngine seg fun e => { e with attempt := none, busRate := e.rate }
    else s

/-- The current transaction of engine `k` is one left open by a restart (R76). -/
def State.closingSilently (s : State) (k : Seg) : Bool := (s.engine k).tx.any fun t => t.silent

/-- CLOSING_END: the closing left by a restart is over and nothing is reported (R76). -/
def execClosingEnd (seg : Seg) (low : LowLines) (s : State) : Host.Outcome State Fault Refusal :=
  .next <| if s.closingSilently seg then (s.releaseBus seg).settle low else s

/-! ### The survey and the idle timer (R101, R103) -/

/-- The records a survey pass probes: ABSENT, or BOUND with the used flag clear, on a segment in service; in ascending
order of slot, in which their requests join the probe queues (log entry 33). -/
def State.surveyed (s : State) : List Slot :=
  allSlots.filter fun i =>
    match s.recAt i with
    | some r => s.segInService r.segment && (r.state == .absent || (r.state == .bound && !r.used))
    | none => false

/-- Clear the used flag of every record. -/
def State.clearUsed (s : State) : State :=
  s.setDir { s.dir with slots := mapEach (fun o : Option Record => o.map fun r => { r with used := false }) s.dir.slots }

/-- The survey period of the cadence, in ms (R95, R101). -/
def Health.period (h : Health) : Nat :=
  match h.cadence with
  | .active => h.activePeriod * Config.stepMs
  | .relaxed => h.relaxedPeriod * Config.secondMs

/-- One survey pass (R101). -/
def State.surveyPass (s : State) : State :=
  let s1 := (s.requestProbes s.surveyed).clearUsed
  s1.setHm { s1.hm with surveyLeft := s1.hm.period }

/-- No timer runs while a full reset is held (R115). -/
def State.timed (s : State) (f : State → State) : State := if s.inReset then s else f s

/-- SURVEY_TIMER_EXPIRY. -/
def execSurveyTimerExpiry (low : LowLines) (s : State) : Host.Outcome State Fault Refusal :=
  .next <| s.timed fun s => s.surveyPass.settle low

/-- IDLE_TIMER_EXPIRY: the cadence falls to RELAXED and the timer is left stopped (R103). -/
def execIdleTimerExpiry (s : State) : Host.Outcome State Fault Refusal :=
  .next <| s.timed fun s =>
    if s.hm.idleLeft.isSome then s.setHm { s.hm with cadence := .relaxed, idleLeft := none } else s

/-! ### The hold-off steps (R107) -/

/-- One step of one record's hold-off; at 0 HM asks for its reprobe. -/
def State.holdOffStep (s : State) (i : Slot) : State :=
  match s.recAt i with
  | some r =>
    if r.state = .quarantined ∧ 0 < r.holdOff ∧ s.segInService r.segment then
      let s1 := s.putRec i (some { r with holdOff := r.holdOff - 1 })
      if r.holdOff = 1 then s1.requestProbe i else s1
    else s
  | none => s

/-- The records step in ascending order of slot, so the reprobes of one event join in it (log entry 33). -/
def State.holdOffSteps (s : State) : List Slot → State
  | [] => s
  | i :: rest => (s.holdOffStep i).holdOffSteps rest

/-- STEP_TIMER_EXPIRY. -/
def execStepTimerExpiry (low : LowLines) (s : State) : Host.Outcome State Fault Refusal :=
  .next <| s.timed fun s =>
    ((s.setHm { s.hm with stepRun := 0 }).holdOffSteps allSlots).settle low

/-! ### The absence seconds (R112) -/

/-- The absence age of `r` is counted at this second: ABSENT, on a segment in service, restart notice clear. -/
def State.ageCounts (s : State) (r : Record) : Bool :=
  r.state == .absent && s.segInService r.segment && !s.mp.notice

/-- An age one second later, saturating (R7). -/
def nextAge (n : Nat) : Nat := min (n + 1) Config.maxAbsenceAge

/-- One second of one record: its age rises, and at or past the lifetime HM passes an expiry claim (R112). -/
def State.absenceSecond (s : State) (i : Slot) : State :=
  match s.recAt i with
  | some r =>
    if s.ageCounts r then
      let s1 := s.putRec i (some { r with absenceAge := nextAge r.absenceAge })
      if s.hm.lifetime ≠ 0 ∧ s.hm.lifetime ≤ nextAge r.absenceAge then s1.absenceExpiry i else s1
    else s
  | none => s

def State.absenceSeconds (s : State) : List Slot → State
  | [] => s
  | i :: rest => (s.absenceSecond i).absenceSeconds rest

/-- SECOND_TIMER_EXPIRY. -/
def execSecondTimerExpiry (s : State) : Host.Outcome State Fault Refusal :=
  .next <| s.timed fun s =>
    ((s.setHm { s.hm with secondRun := 0 }).absenceSeconds allSlots).conclude

/-! ### The passing of one ms (log entry 3) -/

/-- A running timer one ms later; it waits at its limit for its expiry. -/
def Timer.tick (t : Timer) : Timer := { t with elapsed := min (t.elapsed + 1) t.limit }

def Engine.tick (e : Engine) : Engine := { e with stall := e.stall.map Timer.tick, attempt := e.attempt.map Timer.tick }

def Health.tick (h : Health) : Health :=
  { h with surveyLeft := h.surveyLeft - 1, idleLeft := h.idleLeft.map fun n => n - 1,
           stepRun := min (h.stepRun + 1) Config.stepMs, secondRun := min (h.secondRun + 1) Config.secondMs }

/-- One ms: every running timer advances and nothing else changes. -/
def State.tick (s : State) : State :=
  s.timed fun s =>
    ((s.setCtx { s.up.ctx with hold := s.up.ctx.hold.map Timer.tick }).setEng (s.eng.map Engine.tick)).setHm s.hm.tick

end Sys2Proof.Machine
end

