-- ==== Sys2Proof/Machine/Resets.lean ====
section
/-! DEFINITION. Machine/Resets.lean: what each block does at a level 1 or level 2 restart (R171) and at a full
reset (R27), the end of a full reset (R171, R174), and the PROT pin (R158). -/

namespace Sys2Proof.Machine

/-! ### A restart, block by block -/

/-- The settings a level 2 restart returns to their defaults (R51, R76, R94, R117, R174). -/
def State.defaultSettings (s : State) : State :=
  { s with
    up := { s.up with holdLimit := Config.defaultHoldLimit, catchAll := none }
    eng := s.eng.map fun e => { e with rate := .khz100 }
    stallLimit := Config.defaultStallLimit
    pool := { s.pool with segs := s.pool.segs.map fun p => { p with share := Config.defaultShare } }
    hm := { s.hm with
      activePeriod := Config.defaultActivePeriod, relaxedPeriod := Config.defaultRelaxedPeriod,
      idleTimeout := Config.defaultIdleTimeout, holdOff := Config.defaultHoldOff, lifetime := Config.defaultLifetime }
    au := { s.au with lines := Quad.fill AlertConfig.reset, responsesEnabled := true, changesEnabled := true } }

/-- Slot `i`'s record outlasts the restart: not RETIRING, and at level 2 in a protected slot (R27, R28). -/
def State.survives (s : State) (level2 : Bool) (i : Slot) : Bool :=
  match s.recAt i with
  | some r => r.state != .retiring && (!level2 || s.isProtected i)
  | none => false

/-- PWP at a restart (R93): every queue is emptied, an entry of a record that outlasts the restart counting
undelivered, and the reservation released. -/
def State.restartPool (s : State) (level2 : Bool) : State :=
  let entries := (s.pool.segs.toList.map fun p => p.queue).flatten
  (s.setPool { segs := s.pool.segs.map fun p => { p with queue := [], purgeMark := false },
               reservation := none }).undeliveredClaims (entries.filter fun e => s.survives level2 e.slot)

/-- An engine at a restart (R76): a transaction open on the bus is left to be closed in silence. -/
def Engine.restart (e : Engine) : Engine :=
  { e with
    state := if e.tx.isSome then .active else .idle
    pausePending := false, resumeWaiting := false
    tx := e.tx.map fun t =>
      { t with phase := .closing, step := t.step.closing, reason := some .onRequest, ownsMarker := false,
               silent := true }
    request := none, probeQueue := [], discovery := none, attemptCount := 0, stall := none, attempt := none }

/-- The fields of a record that outlasts a restart (R27). -/
def Record.restart (holdOff : Nat) (r : Record) : Record :=
  { r with holdOff := if r.state = .quarantined then holdOff else 0, absenceAge := 0, used := false,
           marker := .none, expiryHeld := false }

/-- DIR at a restart (R27, R28): the records that outlast it get the fields R27 gives; every other slot is FREE
and its alias leaves the index. -/
def State.restartDir (s : State) (level2 : Bool) : State :=
  s.setDir {
    slots := Vector.ofFn fun i : Slot =>
      if s.survives level2 i then (s.recAt i).map (Record.restart s.hm.holdOff) else none
    aliasIndex := mapEach (fun o : Option Slot => o.filter fun i => s.survives level2 i) s.dir.aliasIndex }

/-- HM at a restart (R115): cadence ACTIVE, the survey and idle timers started; the step and second timers run
on. -/
def Health.restart (h : Health) : Health :=
  { h with cadence := .active, surveyLeft := h.activePeriod * Config.stepMs, idleLeft := h.idleStart }

/-- MP at a restart (R162). The bytes MDO shifted in the RESTART frame are an output that the restart does not touch
(log entry 22). -/
def Port.restart (m : Port) : Port := { Port.reset with mdo := m.mdo }

/-- The whole part at a restart, but for the probes HM asks for after it (R171). -/
def State.restartBlocks (s : State) (level2 : Bool) : State :=
  let s0 := if level2 then s.defaultSettings else s
  let s1 := ((s0.restartPool level2).restartDir level2)
  let s2 := s1.setEng (s1.eng.map Engine.restart)
  let s3 := s2.setUp { s2.up with ctx := .unaddressed none, out := .released }
  let s4 := (s3.setHm s3.hm.restart).setDc { ops := [] }
  let s5 := s4.setMp s4.mp.restart
  s5.setAu { s5.au with changed := Vector.replicate 48 false, faults := Quad.fill FaultMarks.none }

/-- A restart taken (R171), with the first probes HM asks for once it has taken effect (R96, R116). -/
def State.takeRestart (s : State) (level2 : Bool) (low : LowLines) : State :=
  let s1 := s.restartBlocks level2
  (s1.requestProbes (s1.pendingSlots fun _ => true)).settle low

/-! ### Full reset and PROT -/

/-- Everything at its reset value with the reset held: every line released (R174, R51, R76). PROT follows its
pin (R153), and the commands that wait are the sender's. -/
def State.heldReset (s : State) : State :=
  { State.reset with
    pu := { Protection.reset with prot := s.pu.prot }
    au := { Alerts.reset with attn := false }
    inReset := true
    pending := s.pending }

/-- FULL_RESET. -/
def execFullReset (s : State) : Host.Outcome State Fault Refusal := .next s.heldReset

/-- FULL_RESET_END: the lines are driven, the step and second timers start from zero (R115), and MP waits for MCS
to be released when it is asserted (R171). -/
def execFullResetEnd (mcsAsserted : Bool) (s : State) : Host.Outcome State Fault Refusal :=
  .next <|
    if s.inReset then
      ({ s with
          inReset := false
          mp := { s.mp with waitRelease := mcsAsserted }
          hm := { s.hm with stepRun := 0, secondRun := 0 } }).evaluate
    else s

/-- PROT_CHANGE: PU takes the new level (R158), which it also shows at a full reset (R153). -/
def execProtChange (high : Bool) (s : State) : Host.Outcome State Fault Refusal :=
  .next (s.setPu { s.pu with prot := high })

end Sys2Proof.Machine
end

