-- ==== Sys2Proof/Machine/Frames.lean ====
section
/-! DEFINITION. Machine/Frames.lean: the frames of the management port (chapter 9). Each is one event, at the
frame end (R161). -/

namespace Sys2Proof.Machine

/-- A frame end: abandoned while a full reset is held; and the end of an assertion that a full reset's end fell
in is no frame, but lets MP take the next one (R171). -/
def State.frame (s : State) (f : State → State) : State :=
  if s.inReset then s
  else if s.mp.waitRelease then s.setMp { s.mp with waitRelease := false }
  else f s

/-- The byte on MDO at each point (R161): 0x00 while the frame code is shifted in, whatever the frame; after it the
frame's own bytes, as far as the host clocked them whole, in STATUS, two of each captured word (R164), and in POP, and
0x00 for as long as the host clocks in every other frame (R173); none, MDO being released, while MCS is not asserted. -/
def MdoShift.shown (m : MdoShift) : MdoPoint → Option Byte
  | .code => some 0x00
  | .after j =>
    match m with
    | .bytes b => b[j]?
    | .status words bits => if j < bits / 8 then words[j / 2]?.map fun w => statusByte w j else none
    | .zeros => some 0x00
  | .outside => none

/-- The byte MP drives on MDO at a point of the last frame; none, MDO being released, at every point while a full reset
is held, since a frame in progress then is abandoned (R171). -/
def State.mdoByte (s : State) (p : MdoPoint) : Option Byte := if s.inReset then none else s.mp.mdo.shown p

/-- Every frame but STATUS sets the last frame result and, but for RESTART_ENABLE, clears restart-enable (R163,
R170); MDO shifts 0x00 for as long as the host clocks in every frame but STATUS and POP (R161). -/
def Port.framed (m : Port) (r : FrameResult) : Port :=
  { m with lastResult := r, restartEnable := false, mdo := .zeros }

/-- `more` bits of a STATUS frame after `bits`, in which `words` were captured: each repetition begun in them captures
`word`, the status word as it stands; one begun before goes on with its own capture (R164). -/
def statusShift (words : List (BitVec 16)) (bits more : Nat) (word : BitVec 16) : MdoShift :=
  .status (words ++ List.replicate ((bits + more + 15) / 16 - words.length) word) (bits + more)

/-- What MDO has shifted in a STATUS frame with this stretch (R164). An onward stretch goes on with the frame whose
stretch came last; after any other frame there is none to go on with (log entry 1). -/
def MdoShift.stretch (m : MdoShift) (c : StatusStretch) (word : BitVec 16) : MdoShift :=
  if c.onward then
    match m with
    | .status words bits => statusShift words bits c.bits word
    | .bytes _ | .zeros => m
  else statusShift [] 0 c.bits word

/-- STATUS (R164): the status word on MDO, captured afresh at the start of each repetition; no state changes. A frame
within which events of the part fall is one row for each stretch between them (log entry 16). -/
def execStatus (clocks : StatusStretch) (s : State) : Host.Outcome State Fault Refusal :=
  .next <| s.frame fun s => s.setMp { s.mp with mdo := s.mp.mdo.stretch clocks s.statusWord }

/-- WRITE_ENABLE (R165). -/
def execWriteEnable (s : State) : Host.Outcome State Fault Refusal :=
  .next <| s.frame fun s => s.setMp { s.mp.framed .ok with latch := true }

/-- WRITE_DISABLE (R165). -/
def execWriteDisable (s : State) : Host.Outcome State Fault Refusal :=
  .next <| s.frame fun s => s.setMp { s.mp.framed .ok with latch := false }

/-- The checks of a PUSH, in their order (R166). -/
def Port.checkPush (m : Port) (bytes : List Byte) : Except FrameResult Command :=
  match bytes with
  | [] => .error .kind
  | b :: rest =>
    match kindOf b with
    | none => .error .kind
    | some kind =>
      if bytes.length ≠ commandLength kind then .error .form
      else if Config.maxOutstanding ≤ m.outstanding then .error .full
      else if modifying kind ∧ m.latch = false then .error .notEnabled
      else
        match rest with
        | tag :: args => .ok { kind := kind, tag := tag, args := args }
        | [] => .error .form

/-- An accepted PUSH: the command joins the tail, the count rises, and a modifying kind clears the latch (R166,
R160). -/
def Port.accept (m : Port) (c : Command) : Port :=
  { m.framed .ok with
    commands := m.commands ++ [c], outstanding := m.outstanding + 1, latch := m.latch && !modifying c.kind }

def State.runPush (s : State) (bytes : List Byte) : State :=
  match s.mp.checkPush bytes with
  | .error r => s.setMp (s.mp.framed r)
  | .ok c => s.setMp (s.mp.accept c)

/-- PUSH. -/
def execPush (bytes : List Byte) (s : State) : Host.Outcome State Fault Refusal :=
  .next <| s.frame fun s => s.runPush bytes

/-- `n` bytes of MDO after a POP's code: the given bytes, then 0x00 (R168). -/
def popShift (bytes : List Byte) (n : Nat) : List Byte := bytes.take n ++ List.replicate (n - bytes.length) 0x00

/-- POP at its frame end (R168): the head response leaves only when it was shifted whole and the frame ended on
a byte boundary. With the queue empty at the frame code byte nothing was shifted, whatever DC queued since. -/
def State.runPop (s : State) (clocks : Nat) (emptyAtCode : Bool) : State :=
  match s.mp.responses with
  | r :: rest =>
    if emptyAtCode then
      s.setMp { s.mp.framed (if clocks % 8 = 0 then .empty else .partialEnd) with
                mdo := .bytes (popShift [0x00] (clocks / 8)) }
    else if clocks % 8 = 0 ∧ r.bytes.length ≤ clocks / 8 then
      (s.setMp { s.mp.framed .ok with
                 responses := rest, outstanding := s.mp.outstanding - 1,
                 mdo := .bytes (popShift r.bytes (clocks / 8)) }).evaluate
    else s.setMp { s.mp.framed .partialEnd with mdo := .bytes (popShift r.bytes (clocks / 8)) }
  | [] =>
    s.setMp { s.mp.framed (if clocks % 8 = 0 then .empty else .partialEnd) with
              mdo := .bytes (popShift [0x00] (clocks / 8)) }

/-- POP. -/
def execPop (clocks : Nat) (emptyAtCode : Bool) (s : State) : Host.Outcome State Fault Refusal :=
  .next <| s.frame fun s => s.runPop clocks emptyAtCode

/-- RESTART_ENABLE (R170). -/
def execRestartEnable (s : State) : Host.Outcome State Fault Refusal :=
  .next <| s.frame fun s => s.setMp { s.mp.framed .ok with restartEnable := true }

/-- The level a RESTART asks for: exactly one byte, 1 or 2; true for level 2 (R170). -/
def restartLevel : List Byte → Option Bool
  | [b] => if b = 0x01 then some false else if b = 0x02 then some true else none
  | _ => none

def State.runRestart (s : State) (bytes : List Byte) (low : LowLines) : State :=
  match s.mp.restartEnable, restartLevel bytes with
  | true, some level2 => (s.setMp { s.mp with mdo := .zeros }).takeRestart level2 low
  | _, _ => s.setMp (s.mp.framed .ignored)

/-- RESTART (R170, R171). -/
def execRestart (bytes : List Byte) (low : LowLines) (s : State) : Host.Outcome State Fault Refusal :=
  .next <| s.frame fun s => s.runRestart bytes low

/-- ACK_RESTART (R172): the notice is cleared, and ATTN follows (R180). -/
def execAckRestart (s : State) : Host.Outcome State Fault Refusal :=
  .next <| s.frame fun s => (s.setMp { s.mp.framed .ok with notice := false }).evaluate

/-- UNKNOWN_FRAME (R173), for a code that names no frame. -/
def execUnknownFrame (code : Byte) (s : State) : Host.Outcome State Fault Refusal :=
  .next <| if frameOf code = none then s.frame fun s => s.setMp (s.mp.framed .unknown) else s

/-- PARTIAL_FRAME (R163). -/
def execPartialFrame (bits : Nat) (s : State) : Host.Outcome State Fault Refusal :=
  .next <| if offBoundary bits then s.frame fun s => s.setMp (s.mp.framed .partialEnd) else s

/-- EMPTY_FRAME (R161): no effect. -/
def execEmptyFrame (s : State) : Host.Outcome State Fault Refusal := .next <| s.frame fun s => s

end Sys2Proof.Machine
end

