-- ==== Sys2Proof/Machine/Upstream.lean ====
section
/-! DEFINITION. Machine/Upstream.lean: the events of the upstream bus at UP (chapter 2): address events, repeated
starts, stops, written bytes, the master's answers to read bytes, and the hold-limit expiry. -/

namespace Sys2Proof.Machine

/-! ### Posted writes at PWP (R79, R80, R49) -/

/-- PWP grants a reservation when the share less the queued cost is 18 or more and none is open (R79). -/
def State.grants (s : State) (k : Seg) : Bool :=
  decide (Config.reservationBytes + queueCost (s.poolSeg k).queue ≤ (s.poolSeg k).share) &&
    s.pool.reservation.isNone

/-- The staged write may join the queue (R49, R80): slot `i` holds a BOUND record with alias `a` on the
reservation's segment, which is not FAILED. -/
def State.commitAllowed (s : State) (i : Slot) (a : Addr) : Bool :=
  match s.recAt i, s.pool.reservation with
  | some r, some k =>
    r.state == .bound && r.aliasAddr == a && r.segment == k && (s.engine k).state != .failed
  | _, _ => false

/-- The slot still holds a record with that alias (R49). -/
def State.holdsAlias (s : State) (i : Slot) (a : Addr) : Bool :=
  match s.recAt i with
  | some r => r.aliasAddr == a
  | none => false

def State.releaseReservation (s : State) : State := s.setPool { s.pool with reservation := none }

/-- The stop or repeated start of a POSTED write (R49): the staged bytes join the tail of the queue, or are
dropped with an undelivered claim while the record is still there; the reservation ends either way. -/
def State.commit (s : State) : State :=
  match s.up.ctx.slot, s.up.ctx.address, s.pool.reservation with
  | some i, some (a, _), some k =>
    if s.commitAllowed i a then
      (s.modPool k fun p =>
        { p with queue := p.queue ++ [{ slot := i, data := s.up.ctx.staged, retried := false }] }).releaseReservation
    else if s.holdsAlias i a then s.releaseReservation.undeliveredClaim i
    else s.releaseReservation
  | _, _, _ => s.releaseReservation

/-! ### Closing a mode -/

/-- Take back the request UP still has waiting, if its transaction has not started (R42, R55). At a hold-limit expiry
R42 says so, with its answer; at a stop or repeated start the spec does not name the request, and the model takes it
back with no answer to the address (log entry 38). -/
def State.dropRequest (s : State) : State :=
  match s.up.ctx.segment, s.up.ctx.downOpen with
  | some k, none => s.modEngine k fun e => { e with request := none }
  | _, _ => s

/-- The downstream transaction UP has open stands where a repeated start or stop may follow at once: between
steps, with a read byte held for the master's answer, or after its NAK (R39, R41). -/
def BusStep.between : BusStep → Bool
  | .waitUp => true
  | .hold _ => true
  | .nak => true
  | _ => false

/-- UP leaves the present transaction: it is UNADDRESSED, with both lines released, and a downstream
transaction still open stays open. -/
def State.leaveTransaction (s : State) : State :=
  s.setUp { s.up with ctx := .unaddressed s.up.ctx.downOpen, out := .released }

/-- A stop closes the current mode (R39, R49): a POSTED write is committed; a waiting request is taken back; an
open forward is to end with a downstream stop. -/
def State.closeForStop (s : State) : State :=
  match s.up.ctx.mode with
  | some .posted => s.commit.leaveTransaction
  | _ => s.dropRequest.requestEndOpen.leaveTransaction

/-- A repeated start closes the current mode (R40): a POSTED write is committed; an open forward that stands
between steps is left open, since the new address may continue it; any other is to end with a stop, and so is a
forwarded write whose byte the condition cuts (R41). While UP is UNADDRESSED the condition cuts an address byte,
and an open forward is closed as for a stop (R41). -/
def State.closeForRestart (s : State) (cut : Bool) : State :=
  match s.up.ctx.mode with
  | some .posted => s.commit.leaveTransaction
  | some _ =>
    match s.up.ctx.downOpen with
    | some k =>
      if ((s.engine k).tx.any fun t => t.step.between) ∧ ¬(cut ∧ s.up.ctx.phase = .write) then s.leaveTransaction
      else s.requestEndOpen.leaveTransaction
    | none => s.dropRequest.leaveTransaction
  | none => s.requestEndOpen.leaveTransaction

/-! ### Resolving an address (R30 to R34) -/

/-- UP's open downstream transaction ends with a stop, and the new transaction never continues it (R39, R40). -/
def State.abandonOpen (s : State) : State :=
  let s1 := s.requestEndOpen
  s1.setCtx { s1.up.ctx with downOpen := none }

/-- The context of a transaction addressed now. -/
def freshContext (phase : UpPhase) (mode : UpMode) (a : Addr) (d : Dir) (slot : Option Slot) (segment : Option Seg)
    (answer : Option Answer) (hold : Option Timer) : UpContext :=
  { phase := phase, mode := some mode, address := some (a, d), slot := slot, segment := segment, answer := answer,
    downOpen := none, lastByteGiven := false, staged := [], hold := hold }

/-- Not acknowledged: a reserved address or REFUSED (R30, R33). -/
def State.resolveRefused (s : State) : State := s.abandonOpen.upNak

/-- STAND-IN (R35). -/
def State.resolveStandIn (s : State) (a : Addr) (d : Dir) (i : Slot) (r : Record) : State :=
  let s1 := s.abandonOpen
  (s1.setCtx (freshContext .address .standIn a d (some i) none (some ⟨r.policy, r.fill⟩) none)).upStandIn

/-- POSTED (R32, R48): the address is acknowledged at once and 18 bytes are reserved. -/
def State.resolvePosted (s : State) (a : Addr) (d : Dir) (i : Slot) (r : Record) : State :=
  let s1 := s.abandonOpen
  (s1.setPool { s1.pool with reservation := some r.segment }).setUp
    { s1.up with
      ctx := freshContext .write .posted a d (some i) (some r.segment) (some ⟨r.policy, r.fill⟩) none
      out := { ack := some true, data := none } }

/-- The open downstream transaction on segment `k` that a repeated start may continue (R40): the same slot, or
for CATCH-ALL the same address. -/
def State.continues (s : State) (k : Seg) (slot : Option Slot) (target : Addr) : Bool :=
  match (s.engine k).tx with
  | some t =>
    s.up.ctx.downOpen == some k && t.isForward && t.phase != .closing && !t.silent && t.slot == slot &&
      t.step.between && (slot.isSome || t.target == target)
  | none => false

/-- The repeated start on the segment bus that continues a forward (R40, R59). It is the same transaction (R52), so
the bytes carried so far go on counting (log entry 30). -/
def State.repeatOnBus (s : State) (k : Seg) (d : Dir) : State :=
  s.modEngine k fun e =>
    { e with tx := e.tx.map fun t => { t with dir := d, phase := .address, step := .address } }

/-- FORWARD and CATCH-ALL (R36, R40, R50): UP holds the clock. The open downstream transaction is continued
with a repeated start where R40 allows; else it is to end, and a request goes to the engine. -/
def State.resolveCarried (s : State) (mode : UpMode) (a : Addr) (d : Dir) (k : Seg) (slot : Option Slot)
    (target : Addr) (answer : Option Answer) : State :=
  let ctx := freshContext .address mode a d slot (some k) answer s.up.startHold
  if s.continues k slot target then
    (s.repeatOnBus k d).setUp { s.up with ctx := { ctx with downOpen := some k }, out := .released }
  else
    let s1 := s.abandonOpen.modEngine k fun e =>
      { e with request := some { slot := slot, target := target, dir := d } }
    s1.setUp { s1.up with ctx := ctx, out := .released }

/-- The mode of an address that resolves to a record (R31). -/
def State.resolveRecord (s : State) (a : Addr) (d : Dir) (i : Slot) (r : Record) : State :=
  if r.state = .bound then
    if d = .write ∧ r.posting ∧ (s.engine r.segment).state ≠ .failed ∧ s.grants r.segment then
      s.resolvePosted a d i r
    else if s.segInService r.segment then
      s.resolveCarried .forward a d r.segment (some i) r.target (some ⟨r.policy, r.fill⟩)
    else s.resolveStandIn a d i r
  else s.resolveStandIn a d i r

/-- The mode of an address that finds no record (R33). -/
def State.resolveUnknown (s : State) (a : Addr) (d : Dir) : State :=
  match s.up.catchAll with
  | some k => if s.segInService k then s.resolveCarried .catchAll a d k none a none else s.resolveRefused
  | none => s.resolveRefused

/-- An address event (R30), with its traffic notice to HM (R34). -/
def State.resolve (s : State) (a : Addr) (d : Dir) : State :=
  let s1 := s.setHm s.hm.notice
  if reserved a then s1.resolveRefused
  else
    match s1.lookupAlias a with
    | some i =>
      match s1.recAt i with
      | some r => s1.resolveRecord a d i r
      | none => s1.resolveUnknown a d
    | none => s1.resolveUnknown a d

/-! ### The events -/

/-- A condition or address of the upstream bus has no effect while a full reset is held (R171). -/
def State.live (s : State) (f : State → State) : State := if s.inReset then s else f s

/-- ADDRESS_EVENT. A start in the middle of a transaction ends it as a repeated start does (R29, R40). After a reset or
restart the start of the address is taken to have come after it (R51, log entry 35). -/
def execAddressEvent (addr : Addr) (dir : Dir) (low : LowLines) (s : State) : Host.Outcome State Fault Refusal :=
  .next <| s.live fun s =>
    let s1 := if s.up.ctx.phase = .unaddressed then s else (s.closeForRestart false).arbitrateAll low
    (s1.resolve addr dir).settle low

/-- REPEATED_START: the current mode is closed, the arbiter of an engine that got a committed entry chooses, and
then the new address, when its byte is complete, is resolved (R30, R40). -/
def execRepeatedStart (cut : Bool) (next : Option (Addr × Dir)) (low : LowLines) (s : State) :
    Host.Outcome State Fault Refusal :=
  .next <| s.live fun s =>
    let s1 := s.closeForRestart cut
    match next with
    | some (a, d) => ((s1.arbitrateAll low).resolve a d).settle low
    | none => s1.settle low

/-- STOP_CONDITION (R39, R49). -/
def execStopCondition (low : LowLines) (s : State) : Host.Outcome State Fault Refusal :=
  .next <| s.live fun s => s.closeForStop.settle low

/-- A written byte goes downstream (R37): UP holds the clock and the engine sends the byte. -/
def State.carryByte (s : State) (k : Seg) (b : Byte) : State :=
  match (s.engine k).tx with
  | some t =>
    if t.isForward ∧ t.phase = .data ∧ t.step = .waitUp ∧ t.silent = false then
      let s1 := s.modEngine k fun e => { e with tx := some { t with step := .send b } }
      s1.setUp { s1.up with ctx := { s1.up.ctx with hold := s1.up.startHold }, out := .released }
    else s
  | none => s

/-- WRITE_EVENT: a data byte of the upstream master, by phase and mode (R37, R48, R35). -/
def State.takeByte (s : State) (b : Byte) : State :=
  match s.up.ctx.phase with
  | .write =>
    match s.up.ctx.mode with
    | some .posted =>
      if s.up.ctx.staged.length < Config.maxPostedBytes then
        s.setUp { s.up with ctx := { s.up.ctx with staged := s.up.ctx.staged ++ [b] }
                            out := { ack := some true, data := none } }
      else s.setOut { ack := some false, data := none }
    | some .standIn => s.setOut { ack := some true, data := none }
    | some .forward | some .catchAll =>
      match s.up.ctx.downOpen with
      | some k => s.carryByte k b
      | none => s
    | some .refused | none => s
  | .unaddressed => s.setOut { ack := some false, data := none }
  | .address | .read => s

def execWriteEvent (byte : Byte) (s : State) : Host.Outcome State Fault Refusal :=
  .next <| s.live fun s => (s.takeByte byte).conclude

/-- UP asks engine `k` for the next read byte (R38): UP holds the clock, restarts the hold timer, and the engine
clocks a byte in. -/
def State.fetchByte (s : State) (k : Seg) : State :=
  let s1 := s.modEngine k fun e =>
    { e with tx := e.tx.map fun t => { t with phase := .data, step := .fetch } }
  s1.setCtx { s1.up.ctx with hold := s1.up.startHold }

/-- The master's answer to a read byte of a forward, relayed downstream (R38); with it, ACK or NAK, the byte counts
as carried (R53, log entry 30). After an ACK the next byte is fetched. The NAK is a bit of its own: the engine releases
the clock for it, and holds it again once it has risen (R59, log entry 7). -/
def State.answerByte (s : State) (k : Seg) (ack : Bool) : State :=
  match (s.engine k).tx with
  | some t =>
    match t.step with
    | .hold _ =>
      let s1 := s.modEngine k fun e => { e with tx := some { t with step := .nak, carried := t.carried + 1 } }
      let s2 := s1.setOut .released
      if ack then s2.fetchByte k else s2.setCtx { s2.up.ctx with lastByteGiven := true }
    | _ => s
  | none => s

/-- MASTER_READ_ANSWER (R38, R35, R46). After the master's own NAK the bytes it clocks read as released lines. -/
def State.takeReadAnswer (s : State) (ack : Bool) : State :=
  match s.up.ctx.phase with
  | .read =>
    if s.up.ctx.lastByteGiven then s.setOut .released
    else
      match s.up.ctx.mode with
      | some .standIn =>
        if ack then s.setOut { ack := none, data := some s.up.ctx.fillByte }
        else s.setUp { s.up with ctx := { s.up.ctx with lastByteGiven := true }, out := .released }
      | some .forward | some .catchAll =>
        match s.up.ctx.downOpen with
        | some k => s.answerByte k ack
        | none => s
      | some .posted | some .refused | none => s
  | .unaddressed | .address | .write => s

def execMasterReadAnswer (ack : Bool) (s : State) : Host.Outcome State Fault Refusal :=
  .next <| s.live fun s => (s.takeReadAnswer ack).conclude

/-! ### The answer a hold-limit expiry gives (R45, R46), also given at a stall or bus fault (R47) -/

/-- UP's answer when it gives up on the downstream transaction: in ADDRESS the address, and in WRITE the byte, is
not acknowledged and UP is UNADDRESSED; in READ the fill byte is driven and UP stands in with it. Where UP is
not holding the clock there is no byte to answer, and only the mode changes (log entry 11). -/
def State.answerAsExpired (s : State) : State :=
  match s.up.ctx.phase with
  | .read =>
    s.setUp { s.up with
      ctx := { s.up.ctx with mode := some .standIn, segment := none, hold := none }
      out := if s.up.ctx.hold.isSome then { ack := none, data := some s.up.ctx.fillByte } else s.up.out }
  | .write => if s.up.ctx.hold.isSome then s.upNak else s.setCtx (.unaddressed s.up.ctx.downOpen)
  | .address => s.upNak
  | .unaddressed => s

/-- HOLD_LIMIT_EXPIRY: a request not started is withdrawn, a transaction started is to end with a stop, and the
master gets a NAK or the fill byte (R44 to R46). -/
def State.holdExpiry (s : State) : State :=
  if s.up.ctx.hold.isSome then s.dropRequest.requestEndOpen.answerAsExpired else s

def execHoldLimitExpiry (s : State) : Host.Outcome State Fault Refusal :=
  .next <| s.live fun s => s.holdExpiry.conclude

end Sys2Proof.Machine
end

