-- ==== Sys2Proof/Machine/Bus.lean ====
section
/-! DEFINITION. Machine/Bus.lean: the events of the segment buses (chapters 3 to 6): a target's answers, the ends
of forwards, deliveries, probes and discovery probes, stalls and bus faults. -/

namespace Sys2Proof.Machine

/-- UP is still relaying the transaction of engine `k` (R47). -/
def State.relaying (s : State) (k : Seg) : Bool :=
  s.up.ctx.downOpen == some k && s.up.ctx.phase != .unaddressed &&
    (s.up.ctx.mode == some .forward || s.up.ctx.mode == some .catchAll)

/-- Engine `k`'s transaction goes on as `t` after a bit or byte of the target: the clock has risen, so the stall timer
is stopped (R65, log entry 7). -/
def State.stepTx (s : State) (k : Seg) (t : Tx) : State :=
  s.modEngine k fun e => { e with tx := some t, stall := none }

/-! ### The target's answer to an address (R36, R45, R60) -/

/-- DIR takes the used claim at the acknowledge of a forward's address (R8, R36); a catch-all has no slot. -/
def State.usedByForward (s : State) (t : Tx) : State :=
  match t.slot with
  | some i => s.usedClaim i
  | none => s

/-- The address is acknowledged upstream: UP releases the clock and enters the data phase; in a read it goes on
to ask for the first byte (R36, R38, log entry 6). -/
def State.relayAddressAck (s : State) (k : Seg) (t : Tx) : State :=
  let s1 := s.setUp { s.up with
    ctx := { s.up.ctx with phase := phaseOf t.dir, hold := none }
    out := { ack := some true, data := none } }
  match t.dir with
  | .write => s1
  | .read => s1.fetchByte k

/-- The answer to a forwarded address (R36). A forward that is CLOSING has been given up upstream, so the answer
is not relayed, but an acknowledge still takes the used claim and a NAK is still its end (R45, R105). The stop after a
NAK puts the phase at CLOSING (log entry 31). -/
def State.forwardAddressAnswer (s : State) (k : Seg) (t : Tx) (ack : Bool) : State :=
  if t.phase = .closing then
    if ack then (s.usedByForward t).stepTx k { t with step := .stop }
    else s.stepTx k { t with step := .stop, reason := some .addressNak }
  else if ack then
    let s1 := (s.usedByForward t).stepTx k { t with phase := .data, step := .waitUp }
    if s.relaying k then s1.relayAddressAck k t else s1
  else
    let s1 := s.stepTx k { t with phase := .closing, step := .stop, reason := some .addressNak }
    if s.relaying k then s1.upNak else s1

/-- The data byte a delivery sends after `n` have been acknowledged, or the stop (R60), for which the phase is
CLOSING though nobody asked for it (log entry 31). -/
def State.sendNext (s : State) (k : Seg) (t : Tx) (n : Nat) : State :=
  match (s.poolSeg k).queue with
  | e :: _ =>
    match e.data[n]? with
    | some b => s.stepTx k { t with phase := .data, step := .send b, carried := n }
    | none => s.stepTx k { t with phase := .closing, step := .stop, carried := n, reason := some .complete }
  | [] => s

/-- The engine sends the stop of a delivery at a NAK (R60), in phase CLOSING (log entry 31). -/
def State.stopDelivery (s : State) (k : Seg) (t : Tx) (why : StopReason) : State :=
  s.stepTx k { t with phase := .closing, step := .stop, reason := some why }

def State.addressAnswer (s : State) (k : Seg) (ack : Bool) : State :=
  match (s.engine k).tx with
  | some t =>
    if t.step = .address ∧ t.silent = false then
      match t.kind with
      | .forward | .catchAll => s.forwardAddressAnswer k t ack
      | .delivery => if ack then s.sendNext k t 0 else s.stopDelivery k t .addressNak
      | .quickProbe | .identityProbe | .discoveryProbe => s
    else s
  | none => s

/-- TARGET_ADDRESS_ANSWER. A delivery's address answer moves it to its data; a probe reports as a whole
(PROBE_END, DISCOVERY_PROBE_END), so its answer alone changes nothing (log entry 9). -/
def execTargetAddressAnswer (seg : Seg) (ack : Bool) (s : State) : Host.Outcome State Fault Refusal :=
  .next <| s.live fun s => (s.addressAnswer seg ack).conclude

/-! ### The target's answer to a written byte (R37, R60) -/

/-- The answer to a forwarded byte. In CLOSING the byte was given up upstream by a hold-limit expiry (R46). An
acknowledged byte counts as carried in either phase (R53, log entry 30). -/
def State.forwardByteAnswer (s : State) (k : Seg) (t : Tx) (ack : Bool) : State :=
  let n := if ack then t.carried + 1 else t.carried
  if t.phase = .closing then s.stepTx k { t with step := .stop, carried := n }
  else if ack then
    let s1 := s.stepTx k { t with step := .waitUp, carried := n }
    if s.relaying k then
      s1.setUp { s1.up with ctx := { s1.up.ctx with hold := none }, out := { ack := some true, data := none } }
    else s1
  else
    let s1 := s.stepTx k { t with phase := .closing, step := .stop, reason := some .dataNak }
    if s.relaying k then s1.upNak else s1

def State.byteAnswer (s : State) (k : Seg) (ack : Bool) : State :=
  match (s.engine k).tx with
  | some t =>
    match t.step with
    | .send _ =>
      if t.silent then s
      else
        match t.kind with
        | .forward | .catchAll => s.forwardByteAnswer k t ack
        | .delivery => if ack then s.sendNext k t (t.carried + 1) else s.stopDelivery k t .dataNak
        | .quickProbe | .identityProbe | .discoveryProbe => s
    | _ => s
  | none => s

/-- TARGET_BYTE_ANSWER. -/
def execTargetByteAnswer (seg : Seg) (ack : Bool) (s : State) : Host.Outcome State Fault Refusal :=
  .next <| s.live fun s => (s.byteAnswer seg ack).conclude

/-! ### A read byte (R38, R46) -/

def State.byteArrives (s : State) (k : Seg) (b : Byte) : State :=
  match (s.engine k).tx with
  | some t =>
    if t.step = .fetch ∧ t.isForward ∧ t.silent = false then
      if t.phase = .closing then s.stepTx k { t with step := .stop }
      else
        let s1 := s.stepTx k { t with step := .hold b }
        if s.relaying k then
          s1.setUp { s1.up with ctx := { s1.up.ctx with hold := none }, out := { ack := none, data := some b } }
        else s1
    else s
  | none => s

/-- READ_BYTE_ARRIVES: the byte is driven upstream and the clock released; a byte whose forward was given up is
discarded with a NAK (R38, R46). -/
def execReadByteArrives (seg : Seg) (byte : Byte) (s : State) : Host.Outcome State Fault Refusal :=
  .next <| s.live fun s => (s.byteArrives seg byte).conclude

/-! ### The end of a forward (R63, R18, R39) -/

/-- Downstream open becomes no when the transaction on segment `k` has ended (R39, R46). -/
def State.closeDownstream (s : State) (k : Seg) : State :=
  if s.up.ctx.downOpen = some k then s.setCtx { s.up.ctx with downOpen := none } else s

/-- A forward of slot `i` has ended: the marker is cleared, an address NAK or a stall is charged, and what waited
for the end follows (R18, R105, R24, R26). -/
def State.forwardOver (s : State) (slot : Option Slot) (charged : Bool) : State :=
  match slot with
  | some i =>
    let s1 := s.clearMarker i
    (if charged then s1.charge i else s1).afterEnd i
  | none => s

def State.endForward (s : State) (k : Seg) (low : LowLines) : State :=
  match (s.engine k).tx with
  | some t =>
    if t.isForward ∧ t.phase = .closing ∧ t.step = .stop ∧ t.silent = false then
      ((((s.closeDownstream k).forwardOver t.slot (decide (t.reason = some .addressNak))).releaseBus k)).settle low
    else s
  | none => s

/-- FORWARD_END. -/
def execForwardEnd (seg : Seg) (low : LowLines) (s : State) : Host.Outcome State Fault Refusal :=
  .next <| s.live fun s => s.endForward seg low

/-! ### The end of a delivery (R60, R83 to R86) -/

/-- The end `o` can be that of transaction `t` carrying `e`: it agrees with the answers the target has given so
far, and an entry of 0 data bytes cannot end DATA_NAK (R85). -/
def deliveryFits (t : Tx) (e : Entry) (o : DeliveryEnd) : Bool :=
  match t.phase, o with
  | .address, .dataNak => !e.data.isEmpty
  | .address, _ => true
  | .data, .addressNak => false
  | .data, _ => true
  | .closing, .complete => t.reason == some .complete
  | .closing, .addressNak => t.reason == some .addressNak
  | .closing, .dataNak => t.reason == some .dataNak

/-- The entry on the bus leaves the queue with its cost, and the purge mark with it (R82, R87). -/
def State.removeHead (s : State) (k : Seg) : State :=
  s.modPool k fun p => { p with queue := p.queue.drop 1, purgeMark := false }

/-- The engine's transaction is off the bus; the engine's state is for the end to say. -/
def State.clearTx (s : State) (k : Seg) : State := s.modEngine k fun e => { e with tx := none }

/-- What PWP, DIR and HM do with the end of the delivery of slot `i` (R83 to R85, R18). An entry that FLUSH marked may
belong to a record still BOUND; its charge is taken then (R18, R105, log entry 32). -/
def State.deliveryOver (s : State) (k : Seg) (i : Slot) (lost charged : Bool) : State :=
  let s1 := ((s.removeHead k).clearTx k).clearMarker i
  let s2 := if lost then s1.undeliveredClaim i else s1.usedClaim i
  (if charged then s2.charge i else s2).afterEnd i

def State.endDelivery (s : State) (k : Seg) (o : DeliveryEnd) (low : LowLines) : State :=
  match (s.engine k).tx, (s.poolSeg k).queue with
  | some t, e :: _ =>
    if t.kind = .delivery ∧ t.silent = false ∧ deliveryFits t e o then
      ((s.deliveryOver k e.slot (decide (o ≠ .complete)) (decide (o = .addressNak))).releaseBus k).settle low
    else s
  | _, _ => s

/-- DELIVERY_END. -/
def execDeliveryEnd (seg : Seg) (outcome : DeliveryEnd) (low : LowLines) (s : State) :
    Host.Outcome State Fault Refusal :=
  .next <| s.live fun s => s.endDelivery seg outcome low

/-! ### The end of a probe of a record (R17, R97, R99, R144) -/

inductive ProbeOutcome where
  | present
  | mismatch
  | notPresent
  deriving DecidableEq, Repr

def ProbeOutcome.code : ProbeOutcome → Byte
  | .present => 0x00
  | .mismatch => 0x01
  | .notPresent => 0x02

/-- The byte an answered probe read: none for a quick probe (R97). -/
def Tx.byteRead (t : Tx) : ProbeAnswer → Option Byte
  | .answered b => if t.kind = .identityProbe then some b else none
  | .notAnswered => none

/-- HM's judgement (R99): an identity byte that differs from the stored one is a MISMATCH with frozen on. -/
def judge (r : Record) (answer : ProbeAnswer) (byte : Option Byte) : ProbeOutcome :=
  match answer with
  | .notAnswered => .notPresent
  | .answered _ =>
    match byte, r.identity with
    | some b, some stored => if r.frozen ∧ b ≠ stored then .mismatch else .present
    | _, _ => .present

/-- A failed reprobe of a QUARANTINED record (R17, R108): at the third failure ABSENT; otherwise it stays, its
hold-off full again, with cause MISMATCH after a mismatch. -/
def Record.failedReprobe (holdOff : Nat) (o : ProbeOutcome) (r : Record) : Record :=
  let r1 := { r with reprobeFailures := r.reprobeFailures + 1 }
  if Config.maxReprobeFailures ≤ r1.reprobeFailures then r1.toAbsent
  else { r1 with holdOff := holdOff, cause := if o = .mismatch then some .mismatch else r1.cause }

/-- DIR stores the byte of a PRESENT outcome; a new value adds the slot to the changed-slot set (R4, R17). -/
def State.storeIdentity (s : State) (i : Slot) (byte : Option Byte) : State :=
  match byte, s.recAt i with
  | some b, some r =>
    if r.identity = some b then s
    else (s.putRec i (some { r with identity := some b })).markChanged i
  | _, _ => s

/-- A QUARANTINED record after a failed reprobe; only the third failure is a change of state (R17). -/
def State.reprobeFailed (s : State) (i : Slot) (r : Record) (o : ProbeOutcome) : State :=
  if Config.maxReprobeFailures ≤ r.reprobeFailures + 1 then
    s.moveRec i (Record.failedReprobe s.hm.holdOff o)
  else s.modRec i (Record.failedReprobe s.hm.holdOff o)

/-- DIR applies a judged outcome to the record of slot `i` (R17, the table). -/
def State.applyOutcome (s : State) (i : Slot) (r : Record) (o : ProbeOutcome) (byte : Option Byte) : State :=
  match o, r.state with
  | .present, .bound => s.storeIdentity i byte
  | .present, .retiring => s
  | .present, _ => (s.moveRec i Record.toBound).storeIdentity i byte
  | .mismatch, .quarantined => s.reprobeFailed i r o
  | .mismatch, .retiring => s
  | .mismatch, _ => s.moveRec i (Record.toQuarantined .mismatch s.hm.holdOff)
  | .notPresent, .quarantined => s.reprobeFailed i r o
  | .notPresent, .absent => s
  | .notPresent, .retiring => s
  | .notPresent, _ => s.moveRec i Record.toAbsent

/-- The result bytes of a PROBE (R187). -/
def probeResults (o : ProbeOutcome) (byte : Option Byte) (after : RecState) : List Byte :=
  [o.code] ++ (match byte with
    | some b => [0x01, b]
    | none => [0x00, 0x00]) ++ [after.code]

/-- The PROBEs whose note the probe on the bus carries are answered by its applied outcome (R144). -/
def State.answerBusProbes (s : State) (i : Slot) (o : ProbeOutcome) (byte : Option Byte) : State :=
  match s.recAt i with
  | some r =>
    s.settleOps fun op =>
      if op.work = .probe i true then
        some { kind := .probe, tag := op.tag, code := .done, results := probeResults o byte r.state }
      else none
  | none => s

/-- The outcome of transaction `t` on segment `k` belongs to the record `r` its slot holds (R17). -/
def Tx.appliesTo (t : Tx) (k : Seg) (r : Record) : Bool :=
  t.sameRecord && r.state != .retiring && r.segment == k && r.target == t.target

/-- Clear the in-flight marker when it was PROBE for this probe (R17). -/
def State.clearProbeMarker (s : State) (t : Tx) (i : Slot) : State :=
  if t.ownsMarker then s.clearMarker i else s

/-- A probe of slot `i` ended with `answer` (R17, R97, R99): judged and applied, or discarded. -/
def State.probeOver (s : State) (k : Seg) (t : Tx) (i : Slot) (answer : ProbeAnswer) : State :=
  let s1 := s.clearProbeMarker t i
  let byte := t.byteRead answer
  match s1.recAt i with
  | some r =>
    if t.appliesTo k r then
      let o := judge r answer byte
      ((s1.applyOutcome i r o byte).answerBusProbes i o byte).afterEnd i
    else s1.afterEnd i
  | none => s1

def Tx.isProbe (t : Tx) : Bool := t.kind == .quickProbe || t.kind == .identityProbe

def State.endProbe (s : State) (k : Seg) (answer : ProbeAnswer) (low : LowLines) : State :=
  match (s.engine k).tx with
  | some t =>
    match t.slot with
    | some i =>
      if t.isProbe ∧ t.silent = false then ((s.probeOver k t i answer).releaseBus k).settle low else s
    | none => s
  | none => s

/-- PROBE_END. -/
def execProbeEnd (seg : Seg) (answer : ProbeAnswer) (low : LowLines) (s : State) :
    Host.Outcome State Fault Refusal :=
  .next <| s.live fun s => s.endProbe seg answer low

/-! ### The end of a discovery probe (R121, R122, R16) -/

/-- The record a discovery creates (R16). -/
def discoveredRecord (k : Seg) (t a : Addr) : Record :=
  { state := .bound, aliasAddr := a, segment := k, target := t, cls := .dynamic, origin := .discovery,
    policy := .refuse, fill := Config.defaultFill, posting := false, probeReg := none, identity := none,
    frozen := false, errorCount := 0, threshold := Config.defaultThreshold, cause := none, reprobeFailures := 0,
    holdOff := 0, absenceAge := 0, undelivered := 0, used := false, marker := .none, expiryHeld := false }

/-- A record is created in slot `i`: its alias joins the index and the slot the changed-slot set (R13, R15,
R16). -/
def State.createRec (s : State) (i : Slot) (r : Record) : State :=
  ((s.putRec i (some r)).setDir
    { slots := s.dir.slots.set i.val (some r),
      aliasIndex := s.dir.aliasIndex.set r.aliasAddr.toNat (some i) r.aliasAddr.isLt }).markChanged i

/-- DIR's findings on a creation claim (R16, R122). -/
inductive Creation where
  | known
  | collision
  | full
  | create (i : Slot)
  deriving DecidableEq, Repr

def State.judgeCreation (s : State) (k : Seg) (t a : Addr) : Creation :=
  if (s.lookupPair k t).isSome then .known
  else if s.aliasTaken a then .collision
  else
    match s.lowestFree with
    | none => .full
    | some i => .create i

def Creation.records (c : Creation) (k : Seg) (t a : Addr) (s : State) : State :=
  match c with
  | .create i => s.createRec i (discoveredRecord k t a)
  | .known | .collision | .full => s

/-- The alias of window address `t` (R119). -/
def Discovery.aliasOf (d : Discovery) (t : Addr) : Addr := d.base + (t - d.low)

/-- Address `t` is finished (R119). -/
def Discovery.finish (d : Discovery) (t : Addr) : Discovery :=
  { d with lastFinished := some t, onBus := none, next := if t = d.high then none else some (t + 1) }

/-- The counts after DIR's finding for a found device (R122). The count of created records goes on past the 48 of
R119 when records the discovery created have been retired while it runs (R128, log entry 36). -/
def Discovery.count (d : Discovery) : Creation → Discovery
  | .known => { d with found := d.found + 1, known := d.known + 1 }
  | .collision => { d with found := d.found + 1, collisions := d.collisions + 1 }
  | .full => { d with found := d.found + 1 }
  | .create _ => { d with found := d.found + 1, created := d.created + 1 }

def State.putDiscovery (s : State) (k : Seg) (d : Discovery) : State :=
  s.modEngine k fun e => { e with discovery := some d }

/-- After an address has been finished: the window's end ends the discovery DONE, a cancel ends it CANCELLED
(R121, R124). -/
def State.afterAddress (s : State) (k : Seg) (d : Discovery) : State :=
  let s1 := s.putDiscovery k d
  if d.next = none then s1.endDiscovery k .done
  else if d.cancelRequested then s1.endDiscovery k .cancelled
  else s1

/-- The probe at `t` found a device: the creation claim settles the address (R122, R123). -/
def State.deviceFound (s : State) (k : Seg) (d : Discovery) (t : Addr) : State :=
  let c := s.judgeCreation k t (d.aliasOf t)
  let s1 := c.records k t (d.aliasOf t) s
  let d1 := (d.count c).finish t
  if c = .full then (s1.putDiscovery k d1).endDiscovery k .tableFull else s1.afterAddress k d1

/-- The end of a discovery probe at its address (R121). -/
def State.discoveryProbeOver (s : State) (k : Seg) (t : Addr) (found : Bool) : State :=
  match (s.engine k).discovery with
  | none => s
  | some d => if found then s.deviceFound k d t else s.afterAddress k (d.finish t)

def State.endDiscoveryProbe (s : State) (k : Seg) (found : Bool) (low : LowLines) : State :=
  match (s.engine k).tx with
  | some t =>
    if t.kind = .discoveryProbe ∧ t.silent = false then
      ((s.discoveryProbeOver k t.target found).releaseBus k).settle low
    else s
  | none => s

/-- DISCOVERY_PROBE_END. -/
def execDiscoveryProbeEnd (seg : Seg) (found : Bool) (low : LowLines) (s : State) :
    Host.Outcome State Fault Refusal :=
  .next <| s.live fun s => s.endDiscoveryProbe seg found low

/-! ### Stalls (R65) -/

/-- UP's part when its forward is ended on the engine's side (R47). -/
def State.forwardLost (s : State) (k : Seg) (t : Tx) : State :=
  let s1 := if s.relaying k ∧ t.phase ≠ .closing then s.answerAsExpired else s
  s1.closeDownstream k

/-- The transaction on the bus ends as STALL, by kind (R65, R84, R97, R121). -/
def State.stallOver (s : State) (k : Seg) (t : Tx) : State :=
  match t.kind with
  | .forward | .catchAll => (s.forwardLost k t).forwardOver t.slot true
  | .delivery =>
    match t.slot with
    | some i => s.deliveryOver k i true true
    | none => s
  | .quickProbe | .identityProbe =>
    match t.slot with
    | some i => s.probeOver k t i .notAnswered
    | none => s
  | .discoveryProbe => s.discoveryProbeOver k t.target false

/-- The engine has released the segment clock to the target at this point of a transaction; in a forward it holds the
clock itself between two steps and before a read byte's acknowledge bit (R59). -/
def BusStep.released : BusStep → Bool
  | .waitUp | .hold _ => false
  | .address | .send _ | .fetch | .nak | .stop => true

/-- The stall timer as it starts, on the stall limit in force (R65). -/
def State.stallStart (s : State) : Option Timer := some { limit := s.stallLimit, elapsed := 0 }

/-- The engine finds the clock it has released held low: the stall timer starts, on the stall limit in force, unless it
is timing that hold already (R65). Holds made by the engine itself are not timed. -/
def State.clockHeld (s : State) (k : Seg) : State :=
  match (s.engine k).tx, (s.engine k).stall with
  | some t, none => if t.step.released then s.modEngine k fun e => { e with stall := s.stallStart } else s
  | _, _ => s

/-- What a transaction waits for once the clock has risen. A byte goes on to its answer; after the one bit of the NAK of a
read byte the engine holds the clock again and waits for UP (R59). -/
def BusStep.risen : BusStep → BusStep
  | .nak => .waitUp
  | other => other

/-- The clock rises: the stall timer stops (R65). -/
def State.clockRises (s : State) (k : Seg) : State :=
  s.modEngine k fun e => { e with tx := e.tx.map fun t => { t with step := t.step.risen }, stall := none }

/-- The stall timer expires: the transaction ends as STALL and the engine enters RECOVERING (R65). In a closing left by a
restart, which the timer times too, it gives up the closing instead (R76, log entry 27). Nothing expires while the timer
is stopped. -/
def State.takeStall (s : State) (k : Seg) (low : LowLines) : State :=
  match (s.engine k).tx, (s.engine k).stall with
  | some t, some _ =>
    if t.silent then (s.releaseBus k).settle low else ((s.stallOver k t).enterRecovering k).conclude
  | _, _ => s

/-- STALL, with the start and stop of the stall timer (R65, log entry 7). -/
def execStall (seg : Seg) (clock : ClockEvent) (s : State) : Host.Outcome State Fault Refusal :=
  .next <| s.live fun s =>
    match clock with
    | .heldLow => s.clockHeld seg
    | .rises => s.clockRises seg
    | .expires low => s.takeStall seg low

/-! ### Bus faults during a transaction (R66 to R68, R86) -/

/-- A cut delivery (R86): kept at the head with the retried flag set, unless it was retried or is marked; then
it is dropped with one undelivered claim. -/
def State.deliveryCut (s : State) (k : Seg) (i : Slot) : State :=
  match (s.poolSeg k).queue with
  | e :: rest =>
    if e.retried ∨ (s.poolSeg k).purgeMark then s.deliveryOver k i true false
    else
      (((s.modPool k fun p => { p with queue := { e with retried := true } :: rest }).clearTx k).clearMarker
        i).afterEnd i
  | [] => (s.clearTx k).clearMarker i
/-- A cut probe of slot `i` (R68): the slot goes back to the front of the queue with its notes, unless it is
queued already, or its record was moved to another segment or is gone. -/
def State.probeCut (s : State) (k : Seg) (t : Tx) (i : Slot) : State :=
  let s1 := (s.clearProbeMarker t i).afterEnd i
  match s1.recAt i with
  | some r =>
    if t.sameRecord ∧ r.segment = k then
      (s1.modEngine k fun e =>
        { e with probeQueue := if i ∈ e.probeQueue then e.probeQueue else i :: e.probeQueue }).moveNotes i false
    else s1
  | none => s1

/-- A cut discovery probe (R121, R124): the address stays the next address; a cancelled discovery ends. -/
def State.discoveryCut (s : State) (k : Seg) : State :=
  match (s.engine k).discovery with
  | none => s
  | some d =>
    let s1 := s.putDiscovery k { d with onBus := none }
    if d.cancelRequested then s1.endDiscovery k .cancelled else s1

/-- The transaction on the bus is cut, by kind (R66). Nothing is charged. -/
def State.cutOver (s : State) (k : Seg) (t : Tx) : State :=
  match t.kind with
  | .forward | .catchAll => (s.forwardLost k t).forwardOver t.slot false
  | .delivery =>
    match t.slot with
    | some i => s.deliveryCut k i
    | none => s
  | .quickProbe | .identityProbe =>
    match t.slot with
    | some i => s.probeCut k t i
    | none => s
  | .discoveryProbe => s.discoveryCut k

/-- A fault during a transaction cuts it and the engine enters RECOVERING (R66); in a closing left by a restart
nothing is reported (R76, log entry 10). -/
def State.takeFault (s : State) (k : Seg) : State :=
  match (s.engine k).tx with
  | some t => if t.silent then s.enterRecovering k else (s.cutOver k t).enterRecovering k
  | none => s

/-- BUS_FAULT. -/
def execBusFault (seg : Seg) (s : State) : Host.Outcome State Fault Refusal :=
  .next <| s.live fun s => (s.takeFault seg).conclude

end Sys2Proof.Machine
end

