-- ==== Sys2Proof/Machine/Commands.lean ====
section
/-! DEFINITION. Machine/Commands.lean: the commands on records that DC takes (chapter 7): LOOKUP, BIND, EDIT,
REBIND, RETIRE, CLEAR_COUNTS and PROBE. -/

namespace Sys2Proof.Machine

/-- DC takes the command at the head of the command queue when it is of this kind (R130); otherwise the event
does not occur (log entry 2). -/
def State.taking (s : State) (kind : CmdKind) (f : Command → State → State) : State :=
  match s.mp.commands with
  | c :: rest => if c.kind = kind then f c (s.setMp { s.mp with commands := rest }) else s
  | [] => s

/-- The command is answered in the event of taking it, with this outcome and no results (R131). -/
def State.answer (s : State) (c : Command) (code : ResultCode) : State :=
  s.concludeWith (plainResponse c.kind c.tag code)

/-- The command is answered DONE in the event of taking it, with results (R131). -/
def State.answerDone (s : State) (c : Command) (results : List Byte) : State :=
  s.concludeWith { kind := c.kind, tag := c.tag, code := .done, results := results }

/-- The same, when the command may have given an IDLE engine work (R54). -/
def State.settleDone (s : State) (low : LowLines) (c : Command) (results : List Byte) : State :=
  s.settleWith low { kind := c.kind, tag := c.tag, code := .done, results := results }

/-- A command that cannot finish joins the long operations, youngest last (R130, R133). -/
def State.addOp (s : State) (work : LongWork) (tag : Byte) : State :=
  s.setDc { ops := s.dc.ops ++ [{ work := work, tag := tag, answer := none }] }

/-! ### LOOKUP (R136) -/

def State.find (s : State) : LookupKey → Option Slot
  | .slot i => if (s.recAt i).isSome then some i else none
  | .byAlias a => s.lookupAlias a
  | .pair k t => s.lookupPair k t

def State.runLookup (s : State) (c : Command) : State :=
  match decodeLookup c.args with
  | none => s.answer c .badField
  | some key =>
    match s.find key with
    | none => s.answer c .notFound
    | some i =>
      match s.recAt i with
      | none => s.answer c .notFound
      | some r => s.answerDone c (oneByte i.val :: r.image)

def execLookup (s : State) : Host.Outcome State Fault Refusal :=
  .next <| s.taking .lookup fun c s => s.runLookup c

/-! ### BIND (R137, R15) -/

/-- DIR's checks on a BIND claim, in their order: a refusal, or the slot to use (R15). -/
def State.bindSlot (s : State) (f : BindFields) : Except ResultCode Slot :=
  if (f.slot.any fun i => s.isProtected i) then .error .protectedSlot
  else if s.aliasTaken f.aliasAddr then .error .aliasInUse
  else if (s.lookupPair f.segment f.target).isSome then .error .targetInUse
  else
    match f.slot with
    | some i => if (s.recAt i).isSome then .error .slotInUse else .ok i
    | none =>
      match s.lowestFree with
      | some i => .ok i
      | none => .error .tableFull

/-- The record a BIND creates (R15). -/
def boundRecord (f : BindFields) : Record :=
  { state := .pending, aliasAddr := f.aliasAddr, segment := f.segment, target := f.target, cls := f.cls,
    origin := .host, policy := f.policy, fill := f.fill, posting := f.posting, probeReg := f.probeReg,
    identity := f.identity, frozen := f.frozen, errorCount := 0, threshold := f.threshold, cause := none,
    reprobeFailures := 0, holdOff := 0, absenceAge := 0, undelivered := 0, used := false, marker := .none,
    expiryHeld := false }

def State.runBind (s : State) (low : LowLines) (c : Command) : State :=
  match decodeBind c.args with
  | none => s.answer c .badField
  | some f =>
    match s.bindSlot f with
    | .error code => s.answer c code
    | .ok i => ((s.createRec i (boundRecord f)).requestProbe i).settleDone low c [oneByte i.val]

def execBind (low : LowLines) (s : State) : Host.Outcome State Fault Refusal :=
  .next <| s.taking .bind fun c s => s.runBind low c

/-! ### EDIT (R138, R139) -/

/-- The record with the selected option fields, before the threshold law (R25, R138). -/
def Record.select (sel : Selection) (r : Record) : Record :=
  { r with
    cls := sel.cls.getD r.cls, policy := sel.policy.getD r.policy, fill := sel.fill.getD r.fill,
    posting := sel.posting.getD r.posting, probeReg := sel.probeReg.getD r.probeReg,
    frozen := sel.frozen.getD r.frozen, identity := sel.identity.getD r.identity,
    threshold := sel.threshold.getD r.threshold }

/-- The threshold law of an EDIT (R5, R139): a BOUND record whose count is at or above the new threshold is
quarantined with its count at the threshold; any other record's count is at most the threshold. -/
def State.applyThreshold (s : State) (i : Slot) : State :=
  match s.recAt i with
  | some r =>
    if r.state = .bound then
      if r.threshold ≤ r.errorCount then
        s.moveRec i fun r => { r with errorCount := r.threshold }.toQuarantined .errors s.hm.holdOff
      else s
    else s.putRec i (some { r with errorCount := min r.errorCount r.threshold })
  | none => s

/-- DIR changes the selected fields in one event (R138). -/
def State.applyEdit (s : State) (i : Slot) (r : Record) (sel : Selection) : State :=
  let s1 := s.putRec i (some (r.select sel))
  let s2 := if (r.select sel).identity = r.identity then s1 else s1.markChanged i
  if sel.threshold.isSome then s2.applyThreshold i else s2

def State.stateByte (s : State) (i : Slot) : List Byte :=
  match s.recAt i with
  | some r => [r.state.code]
  | none => []

def State.runEdit (s : State) (c : Command) : State :=
  match decodeEdit c.args with
  | none => s.answer c .badField
  | some (i, sel) =>
    match s.recAt i with
    | none => s.answer c .slotFree
    | some r =>
      if s.isProtected i then s.answer c .protectedSlot
      else if (r.select sel).frozen ∧ (r.select sel).probeReg = none then s.answer c .badField
      else
        let s1 := s.applyEdit i r sel
        s1.answerDone c (s1.stateByte i)

def execEdit (s : State) : Host.Outcome State Fault Refusal :=
  .next <| s.taking .edit fun c s => s.runEdit c

/-! ### REBIND (R140, R20) -/

/-- Another record holds the new pair (R20). -/
def State.pairTakenByOther (s : State) (i : Slot) (k : Seg) (t : Addr) : Bool :=
  allSlots.any fun j =>
    match s.recAt j with
    | some r => j != i && r.segment == k && r.target == t
    | none => false

/-- DIR's checks on a REBIND claim, in their order (R20). -/
def State.rebindRefusal (s : State) (i : Slot) (k : Seg) (t : Addr) : Option ResultCode :=
  match s.recAt i with
  | none => some .slotFree
  | some r =>
    if s.isProtected i then some .protectedSlot
    else if r.state = .retiring ∨ r.marker = .forward ∨ r.marker = .delivery then some .busy
    else if s.pairTakenByOther i k t then some .targetInUse
    else none

/-- The probe on the bus no longer belongs to the record, even when a later REBIND brings the record back: it does not
hold the marker (R20), and its outcome is discarded (R17, "a record moved by REBIND since the probe started"). -/
def Engine.disown (i : Slot) (e : Engine) : Engine :=
  { e with tx := e.tx.map fun t => if t.slot = some i then { t with ownsMarker := false, sameRecord := false } else t }

/-- The in-flight marker at a REBIND: a PROBE marker stays, and the probe on the bus stays the record's, only when the
pair stays (R20). -/
def State.rebindMarker (s : State) (i : Slot) (same : Bool) : State :=
  if same then s
  else (s.setEng (s.eng.map (Engine.disown i))).clearMarker i

/-- The probe queue of the segment a record leaves (R20). Within its segment a REBIND removes nothing: the slot keeps
its place, and the request joins the queued one (R56, R96, log entry 34). -/
def State.leaveQueue (s : State) (i : Slot) (old new : Seg) : State :=
  if old = new then s else s.modEngine old fun e => { e with probeQueue := e.probeQueue.filter fun j => j != i }

/-- DIR takes a REBIND claim of the record `r` in slot `i` (R20): PENDING at the new pair, off the probe queue of a
segment it leaves, PROBE notes with the new request, and a probe asked for on the new segment. -/
def State.applyRebind (s : State) (i : Slot) (r : Record) (k : Seg) (t : Addr) : State :=
  let s1 := s.moveRec i (Record.toRebound k t)
  let s2 := s1.rebindMarker i (decide (r.segment = k ∧ r.target = t))
  let s3 := s2.leaveQueue i r.segment k
  (s3.moveNotes i false).requestProbe i

def State.runRebind (s : State) (low : LowLines) (c : Command) : State :=
  match decodeRebind c.args with
  | none => s.answer c .badField
  | some (i, k, t) =>
    match s.rebindRefusal i k t, s.recAt i with
    | some code, _ => s.answer c code
    | none, some r => (s.applyRebind i r k t).settleDone low c []
    | none, none => s.answer c .slotFree

def execRebind (low : LowLines) (s : State) : Host.Outcome State Fault Refusal :=
  .next <| s.taking .rebind fun c s => s.runRebind low c

/-! ### RETIRE (R141, R21, R22) -/

/-- Something is still owed for the record: a queued entry, or a transaction on the bus (R21). -/
def State.owes (s : State) (i : Slot) (r : Record) : Bool := r.marker != .none || s.hasQueued r.segment i

/-- The record enters RETIRING, unless it is RETIRING already (R21, R22). -/
def State.enterRetiring (s : State) (i : Slot) : State :=
  match s.recAt i with
  | some r => if r.state = .retiring then s else s.moveRec i Record.toRetiring
  | none => s

/-- After the claim's purge of `removed` entries: the slot becomes FREE and the RETIRE is answered, or the record
is RETIRING and the RETIRE waits (R21, R22, R141). -/
def State.finishRetire (s : State) (c : Command) (i : Slot) (removed : Nat) : State :=
  match s.recAt i with
  | none => s.answerDone c (twoBytes removed)
  | some r =>
    if s.owes i r then ((s.enterRetiring i).addOp (.retire i removed) c.tag).conclude
    else (s.freeSlot i).answerDone c (twoBytes removed)

def ofSlot (i : Slot) (e : Entry) : Bool := e.slot == i

/-- DIR takes a RETIRE claim of the record `r` in slot `i` (R21): waiting PROBEs are answered RETIRED (R145), and
DISCARD purges the slot's queued entries. -/
def State.applyRetire (s : State) (c : Command) (i : Slot) (r : Record) (discard : Bool) : State :=
  let s1 := s.answerProbes i .retired
  if discard then
    (s1.purgeAndRetire r.segment (ofSlot i)).finishRetire c i (s1.purgeable r.segment (ofSlot i)).length
  else s1.finishRetire c i 0

def State.runRetire (s : State) (c : Command) : State :=
  match decodeRetire c.args with
  | none => s.answer c .badField
  | some (i, discard) =>
    match s.recAt i with
    | none => s.answer c .slotFree
    | some r => if s.isProtected i then s.answer c .protectedSlot else s.applyRetire c i r discard

def execRetire (s : State) : Host.Outcome State Fault Refusal :=
  .next <| s.taking .retire fun c s => s.runRetire c

/-! ### CLEAR_COUNTS (R142, R25) -/

def Record.clearCounts (r : Record) : Record := { r with errorCount := 0, reprobeFailures := 0, undelivered := 0 }

def State.clearAllCounts (s : State) : State :=
  s.setDir { s.dir with slots := mapEach (fun o => o.map Record.clearCounts) s.dir.slots }

/-- The number of slots that hold a record. -/
def State.recordCount (s : State) : Nat := (allSlots.filter fun i => (s.recAt i).isSome).length

def State.runClearCounts (s : State) (c : Command) : State :=
  match decodeClearCounts c.args with
  | none => s.answer c .badField
  | some none => s.clearAllCounts.answerDone c [oneByte s.recordCount]
  | some (some i) =>
    match s.recAt i with
    | none => s.answer c .slotFree
    | some _ => (s.modRec i Record.clearCounts).answerDone c [0x01]

def execClearCounts (s : State) : Host.Outcome State Fault Refusal :=
  .next <| s.taking .clearCounts fun c s => s.runClearCounts c

/-! ### PROBE (R143) -/

def State.runProbe (s : State) (low : LowLines) (c : Command) : State :=
  match decodeSlot c.args with
  | none => s.answer c .badField
  | some i =>
    match s.recAt i with
    | none => s.answer c .slotFree
    | some r =>
      if r.state = .retiring then s.answer c .retired
      else if (s.engine r.segment).state = .failed then s.answer c .segmentFault
      else ((s.modEngine r.segment (Engine.enqueueProbe i)).addOp (.probe i false) c.tag).settle low

def execProbe (low : LowLines) (s : State) : Host.Outcome State Fault Refusal :=
  .next <| s.taking .probe fun c s => s.runProbe low c

end Sys2Proof.Machine
end

