-- ==== Sys2Proof/Machine/SegmentCommands.lean ====
section
/-! DEFINITION. Machine/SegmentCommands.lean: the commands on segments, settings, protection and alerts that DC
takes: DISCOVER, CANCEL, PAUSE, RESUME, FLUSH, PARTITION, SET_TIMING, SET_PROTECT, FIX_PROTECT, SET_ALERT and
CHANGES (chapters 6 to 10). -/

namespace Sys2Proof.Machine

/-! ### DISCOVER and CANCEL (R118, R119, R124) -/

/-- The discovery context on creation (R119). -/
def Discovery.start (l h b : Addr) (tag : Byte) : Discovery :=
  { low := l, high := h, base := b, tag := tag, next := some l, onBus := none, cancelRequested := false,
    found := 0, created := 0, known := 0, collisions := 0, lastFinished := none }

def State.runDiscover (s : State) (low : LowLines) (c : Command) : State :=
  match decodeDiscover c.args with
  | none => s.answer c .badField
  | some (k, l, h, b) =>
    if (s.engine k).discovery.isSome then s.answer c .alreadyRunning
    else if (s.engine k).state = .failed then s.answer c .segmentFault
    else ((s.putDiscovery k (.start l h b c.tag)).addOp (.discover k) c.tag).settle low

def execDiscover (low : LowLines) (s : State) : Host.Outcome State Fault Refusal :=
  .next <| s.taking .discover fun c s => s.runDiscover low c

/-- Engine `k` runs a discovery with this tag. -/
def State.runsTag (s : State) (tag : Byte) (k : Seg) : Bool := (s.engine k).discovery.any fun d => d.tag == tag

/-- Engine `k` takes a cancel (R124). -/
def State.cancelOn (s : State) (tag : Byte) (k : Seg) : State :=
  match (s.engine k).discovery with
  | some d =>
    if d.tag = tag then
      if d.onBus.isSome then s.putDiscovery k { d with cancelRequested := true }
      else s.endDiscovery k .cancelled
    else s
  | none => s

def State.cancelAll (s : State) (tag : Byte) : State :=
  (((s.cancelOn tag 0).cancelOn tag 1).cancelOn tag 2).cancelOn tag 3

def State.runCancel (s : State) (c : Command) : State :=
  match decodeTag c.args with
  | none => s.answer c .badField
  | some tag =>
    if allSegs.any (s.runsTag tag) then
      (s.cancelAll tag).answerDone c [oneByte (allSegs.filter (s.runsTag tag)).length]
    else s.answer c .notFound

def execCancel (s : State) : Host.Outcome State Fault Refusal :=
  .next <| s.taking .cancel fun c s => s.runCancel c

/-! ### PAUSE and RESUME (R146, R73, R74) -/

def State.waitsPause (s : State) (k : Seg) : Bool := s.dc.ops.any fun o => o.work == .pause k
def State.waitsResume (s : State) (k : Seg) : Bool := s.dc.ops.any fun o => o.work == .resume k

/-- The engine takes a PAUSE by its state (R73). -/
def State.presentPause (s : State) (c : Command) (k : Seg) : State :=
  match (s.engine k).state with
  | .idle => (s.enterPaused k).answerDone c []
  | .active | .recovering =>
    ((s.modEngine k fun e => { e with pausePending := true }).addOp (.pause k) c.tag).conclude
  | .paused => s.answerDone c []
  | .failed => s.answer c .segmentFault

def State.runPause (s : State) (c : Command) : State :=
  match decodeSeg c.args with
  | none => s.answer c .badField
  | some k => if s.waitsPause k || s.waitsResume k then s.answer c .busy else s.presentPause c k

def execPause (s : State) : Host.Outcome State Fault Refusal :=
  .next <| s.taking .pause fun c s => s.runPause c

/-- The engine takes a RESUME by its state and flags (R74). -/
def State.presentResume (s : State) (low : LowLines) (c : Command) (k : Seg) : State :=
  match (s.engine k).state with
  | .paused => (s.modEngine k fun e => { e with state := .idle }).settleDone low c []
  | .active | .recovering =>
    ((s.modEngine k fun e => { e with pausePending := false }).answerPause k .cancelled).answerDone c []
  | .idle => s.answerDone c []
  | .failed =>
    (((s.modEngine k fun e => { e with resumeWaiting := true }).enterRecovering k).addOp (.resume k)
      c.tag).conclude

def State.runResume (s : State) (low : LowLines) (c : Command) : State :=
  match decodeSeg c.args with
  | none => s.answer c .badField
  | some k => if s.waitsResume k then s.answer c .busy else s.presentResume low c k

def execResume (low : LowLines) (s : State) : Host.Outcome State Fault Refusal :=
  .next <| s.taking .resume fun c s => s.runResume low c

/-! ### FLUSH and PARTITION (R147, R148, R78, R90) -/

def everyEntry (_ : Entry) : Bool := true

def State.runFlush (s : State) (low : LowLines) (c : Command) : State :=
  match decodeSeg c.args with
  | none => s.answer c .badField
  | some k =>
    (s.purgeAndRetire k everyEntry).settleDone low c (twoBytes (s.purgeable k everyEntry).length)

def execFlush (low : LowLines) (s : State) : Host.Outcome State Fault Refusal :=
  .next <| s.taking .flush fun c s => s.runFlush low c

/-- A share is 0 or a multiple of 8 from 32 to 512 (R78). -/
def shareValid (n : Nat) : Bool := n == 0 || (decide (32 ≤ n) && decide (n ≤ 512) && n % 8 == 0)

def sharesValid (q : Quad Nat) : Bool :=
  q.toList.all shareValid && decide (q.s0 + q.s1 + q.s2 + q.s3 ≤ Config.poolBytes)

/-- Every posted queue is empty and no reservation is open (R78). -/
def State.quiescent (s : State) : Bool :=
  s.pool.segs.toList.all (fun p => p.queue.isEmpty) && s.pool.reservation.isNone

def State.setShares (s : State) (q : Quad Nat) : State :=
  s.setPool { s.pool with segs := s.pool.segs.zipWith (fun p n => { p with share := n }) q }

def State.runPartition (s : State) (c : Command) : State :=
  match decodePartition c.args with
  | none => s.answer c .badField
  | some q =>
    if sharesValid q then
      if s.quiescent then (s.setShares q).answerDone c [] else s.answer c .notQuiescent
    else s.answer c .badPartition

def execPartition (s : State) : Host.Outcome State Fault Refusal :=
  .next <| s.taking .partition fun c s => s.runPartition c

/-! ### SET_TIMING (R149, R150) -/

/-- HM's settings (R104, R110, R113): an idle timeout of 0 stops a running idle timer. -/
def Health.retime (t : Timing) (h : Health) : Health :=
  { h with activePeriod := t.activePeriod, relaxedPeriod := t.relaxedPeriod, idleTimeout := t.idleTimeout,
           holdOff := t.holdOff, lifetime := t.lifetime,
           idleLeft := if t.idleTimeout = 0 then none else h.idleLeft }

/-- A QUARANTINED record's hold-off remaining stays within the setting (R110). -/
def Record.capHoldOff (n : Nat) (r : Record) : Record :=
  if r.state = .quarantined then { r with holdOff := min r.holdOff n } else r

/-- Every setting changes in the event of taking the command (R149). -/
def State.retime (s : State) (t : Timing) : State :=
  let s1 := s.setUp { s.up with holdLimit := t.holdLimit, catchAll := t.catchAll }
  let s2 := { s1 with stallLimit := t.stallLimit }
  let s3 := s2.setHm (s2.hm.retime t)
  let s4 := s3.setEng (s3.eng.zipWith (fun e r => { e with rate := r }) t.rates)
  s4.setDir { s4.dir with slots := mapEach (fun o => o.map (Record.capHoldOff t.holdOff)) s4.dir.slots }

def State.runSetTiming (s : State) (c : Command) : State :=
  match decodeTiming c.args with
  | none => s.answer c .badField
  | some t => (s.retime t).answerDone c []

def execSetTiming (s : State) : Host.Outcome State Fault Refusal :=
  .next <| s.taking .setTiming fun c s => s.runSetTiming c

/-! ### SET_PROTECT and FIX_PROTECT (R157, R159) -/

/-- The range of `code` holds a RETIRING record (R156). -/
def State.retiringBelow (s : State) (code : Fin 8) : Bool :=
  allSlots.any fun i =>
    decide (i.val < protectedCount code) &&
      match s.recAt i with
      | some r => r.state == .retiring
      | none => false

def State.runSetProtect (s : State) (c : Command) : State :=
  match decodeProtect c.args with
  | none => s.answer c .badField
  | some (code, lock) =>
    if s.pu.fixed then s.answer c .fixed
    else if s.pu.inForce then s.answer c .locked
    else if s.retiringBelow code then s.answer c .badField
    else (s.setPu { s.pu with code := code, lock := lock }).answerDone c []

def execSetProtect (s : State) : Host.Outcome State Fault Refusal :=
  .next <| s.taking .setProtect fun c s => s.runSetProtect c

def State.runFixProtect (s : State) (c : Command) : State :=
  if s.pu.fixed then s.answer c .fixed else (s.setPu { s.pu with fixed := true }).answerDone c []

def execFixProtect (s : State) : Host.Outcome State Fault Refusal :=
  .next <| s.taking .fixProtect fun c s => s.runFixProtect c

/-! ### SET_ALERT and CHANGES (R179, R177) -/

/-- AU replaces the configuration; the event's end evaluates the line (R179). -/
def Alerts.configure (a : Alerts) : AlertTarget → Alerts
  | .line k config => { a with lines := a.lines.set k config }
  | .attn r ch => { a with responsesEnabled := r, changesEnabled := ch }

def State.runSetAlert (s : State) (c : Command) : State :=
  match decodeAlert c.args with
  | none => s.answer c .badField
  | some t => (s.setAu (s.au.configure t)).answerDone c []

def execSetAlert (s : State) : Host.Outcome State Fault Refusal :=
  .next <| s.taking .setAlert fun c s => s.runSetAlert c

/-- The result bytes of CHANGES (R187). -/
def Alerts.report (a : Alerts) : List Byte :=
  oneByte a.changedSlots.length :: (a.changedSlots.map fun i => oneByte i.val) ++ a.faults.toList.map FaultMarks.byte

/-- Both sets emptied (R177). -/
def Alerts.emptySets (a : Alerts) : Alerts :=
  { a with changed := Vector.replicate 48 false, faults := Quad.fill FaultMarks.none }

def State.runChanges (s : State) (c : Command) : State :=
  (s.setAu s.au.emptySets).answerDone c s.au.report

def execChanges (s : State) : Host.Outcome State Fault Refusal :=
  .next <| s.taking .changes fun c s => s.runChanges c

end Sys2Proof.Machine
end

