-- ==== Sys2Proof/Machine/Dispatch.lean ====
section
/-! DEFINITION. Machine/Dispatch.lean: one arm for each row of the table. -/

namespace Sys2Proof.Machine

def exec (i : Instr) (s : State) : Host.Outcome State Fault Refusal :=
  match i with
  | .addressEvent addr dir low => Sys2Proof.Machine.execAddressEvent addr dir low s
  | .repeatedStart cut nxt low => Sys2Proof.Machine.execRepeatedStart cut nxt low s
  | .stopCondition low => Sys2Proof.Machine.execStopCondition low s
  | .writeEvent byte => Sys2Proof.Machine.execWriteEvent byte s
  | .masterReadAnswer ack => Sys2Proof.Machine.execMasterReadAnswer ack s
  | .targetAddressAnswer seg ack => Sys2Proof.Machine.execTargetAddressAnswer seg ack s
  | .targetByteAnswer seg ack => Sys2Proof.Machine.execTargetByteAnswer seg ack s
  | .readByteArrives seg byte => Sys2Proof.Machine.execReadByteArrives seg byte s
  | .holdLimitExpiry => Sys2Proof.Machine.execHoldLimitExpiry s
  | .forwardEnd seg low => Sys2Proof.Machine.execForwardEnd seg low s
  | .deliveryEnd seg outcome low => Sys2Proof.Machine.execDeliveryEnd seg outcome low s
  | .probeEnd seg answer low => Sys2Proof.Machine.execProbeEnd seg answer low s
  | .discoveryProbeEnd seg found low => Sys2Proof.Machine.execDiscoveryProbeEnd seg found low s
  | .stall seg clock => Sys2Proof.Machine.execStall seg clock s
  | .busFault seg => Sys2Proof.Machine.execBusFault seg s
  | .recoveryAttemptSucceeds seg low => Sys2Proof.Machine.execRecoveryAttemptSucceeds seg low s
  | .recoveryAttemptFails seg => Sys2Proof.Machine.execRecoveryAttemptFails seg s
  | .attemptTimerExpiry seg => Sys2Proof.Machine.execAttemptTimerExpiry seg s
  | .closingEnd seg low => Sys2Proof.Machine.execClosingEnd seg low s
  | .surveyTimerExpiry low => Sys2Proof.Machine.execSurveyTimerExpiry low s
  | .idleTimerExpiry => Sys2Proof.Machine.execIdleTimerExpiry s
  | .stepTimerExpiry low => Sys2Proof.Machine.execStepTimerExpiry low s
  | .secondTimerExpiry => Sys2Proof.Machine.execSecondTimerExpiry s
  | .lookup => Sys2Proof.Machine.execLookup s
  | .bind low => Sys2Proof.Machine.execBind low s
  | .edit => Sys2Proof.Machine.execEdit s
  | .rebind low => Sys2Proof.Machine.execRebind low s
  | .retire => Sys2Proof.Machine.execRetire s
  | .clearCounts => Sys2Proof.Machine.execClearCounts s
  | .probe low => Sys2Proof.Machine.execProbe low s
  | .discover low => Sys2Proof.Machine.execDiscover low s
  | .cancel => Sys2Proof.Machine.execCancel s
  | .pause => Sys2Proof.Machine.execPause s
  | .resume low => Sys2Proof.Machine.execResume low s
  | .flush low => Sys2Proof.Machine.execFlush low s
  | .partition => Sys2Proof.Machine.execPartition s
  | .setTiming => Sys2Proof.Machine.execSetTiming s
  | .setProtect => Sys2Proof.Machine.execSetProtect s
  | .fixProtect => Sys2Proof.Machine.execFixProtect s
  | .setAlert => Sys2Proof.Machine.execSetAlert s
  | .changes => Sys2Proof.Machine.execChanges s
  | .status clocks => Sys2Proof.Machine.execStatus clocks s
  | .writeEnable => Sys2Proof.Machine.execWriteEnable s
  | .writeDisable => Sys2Proof.Machine.execWriteDisable s
  | .push bytes => Sys2Proof.Machine.execPush bytes s
  | .pop clocks emptyAtCode => Sys2Proof.Machine.execPop clocks emptyAtCode s
  | .restartEnable => Sys2Proof.Machine.execRestartEnable s
  | .restart bytes low => Sys2Proof.Machine.execRestart bytes low s
  | .ackRestart => Sys2Proof.Machine.execAckRestart s
  | .unknownFrame code => Sys2Proof.Machine.execUnknownFrame code s
  | .partialFrame bits => Sys2Proof.Machine.execPartialFrame bits s
  | .emptyFrame => Sys2Proof.Machine.execEmptyFrame s
  | .fullReset => Sys2Proof.Machine.execFullReset s
  | .protChange high => Sys2Proof.Machine.execProtChange high s
  | .fullResetEnd mcsAsserted => Sys2Proof.Machine.execFullResetEnd mcsAsserted s

end Sys2Proof.Machine
end

