-- ==== Sys2Proof/Safety.lean ====
section
/-! DEFINITION. Safety.lean: what a safe run is, and the laws the spec says the part keeps, in the terms the
statements use. -/

namespace Sys2Proof.Machine

/-! ### What an event leaves alone -/

/-- A record without its in-flight marker. -/
def Record.unmarked (r : Record) : Record := { r with marker := .none }

/-- What a long operation waits on, without where a PROBE's note stands (R143). -/
def LongWork.unnoted : LongWork → LongWork
  | .probe i _ => .probe i false
  | w => w

/-- Between `m` and `t` only the arbiters of engines that `m` has IDLE have acted (R54): records keep all but
their in-flight markers, engines that are not IDLE keep everything, UP keeps all but downstream open, and DC's
operations keep their order, tags and works. -/
def OnlyArbiters (m t : State) : Prop :=
  (∀ i, (t.recAt i).map Record.unmarked = (m.recAt i).map Record.unmarked) ∧
  t.dir.aliasIndex = m.dir.aliasIndex ∧
  t.up.out = m.up.out ∧ t.up.holdLimit = m.up.holdLimit ∧ t.up.catchAll = m.up.catchAll ∧
  { t.up.ctx with downOpen := none } = { m.up.ctx with downOpen := none } ∧
  (∀ k, (m.engine k).state ≠ .idle → t.engine k = m.engine k) ∧
  (t.dc.ops.map fun o => (o.work.unnoted, o.tag)) = (m.dc.ops.map fun o => (o.work.unnoted, o.tag)) ∧
  t.stallLimit = m.stallLimit ∧ t.pool = m.pool ∧ t.hm = m.hm ∧ t.mp = m.mp ∧ t.pu = m.pu ∧ t.au = m.au ∧
  t.inReset = m.inReset ∧ t.pending = m.pending

/-- Every record but that of slot `i` is the same. -/
def OtherRecords (s t : State) (i : Slot) : Prop := ∀ j, j ≠ i → t.recAt j = s.recAt j

/-- MP takes frames: no full reset is held and no assertion of MCS is left over from one (R171). -/
def State.framesTaken (s : State) : Prop := s.inReset = false ∧ s.mp.waitRelease = false

/-- The command queue's head is a command of this kind, tag and bytes, and `rest` follows it. -/
def State.queues (s : State) (kind : CmdKind) (tag : Byte) (args : List Byte) (rest : List Command) : Prop :=
  s.mp.commands = { kind := kind, tag := tag, args := args } :: rest

/-- `s` with the head of the command queue taken (R130). -/
def State.taken (s : State) (rest : List Command) : State := { s with mp := { s.mp with commands := rest } }

/-- The event completes with a next state of which `P` holds. -/
def Completes (o : Host.Outcome State Fault Refusal) (P : State → Prop) : Prop := ∃ t, o = .next t ∧ P t

/-- The rows of the management port's frames (chapter 9). -/
def isFrameRow : Instr → Bool
  | .status _ | .writeEnable | .writeDisable | .push _ | .pop _ _ | .restartEnable | .restart _ _ | .ackRestart
  | .unknownFrame _ | .partialFrame _ | .emptyFrame => true
  | _ => false

/-- A step that neither faults nor is refused. -/
def Safe (o : Host.Outcome State Fault Refusal) : Prop := Completes o fun _ => True

/-! ### Laws of one record (R4 to R8) -/

/-- R5: the error count is at most the threshold, and below it while the record is BOUND; the threshold is 1 to
255. -/
def Record.CountLaw (r : Record) : Prop :=
  r.errorCount ≤ r.threshold ∧ (r.state = .bound → r.errorCount < r.threshold) ∧ 1 ≤ r.threshold ∧ r.threshold ≤ 255

/-- R6, R17: reprobe failures never exceed 3 and stay below 3 while QUARANTINED, a cause is held exactly while
QUARANTINED, and the hold-off remaining is 0 in every other state. -/
def Record.QuarantineLaw (r : Record) : Prop :=
  r.reprobeFailures ≤ 3 ∧ (r.state = .quarantined → r.reprobeFailures < 3) ∧
    (r.cause.isSome = true ↔ r.state = .quarantined) ∧ (r.state ≠ .quarantined → r.holdOff = 0)

/-- R7, R8: the absence age is at most 65535 and 0 outside ABSENT and RETIRING; the undelivered count is at most
255; the used flag is set only while BOUND. R4: frozen on goes with a probe register. -/
def Record.FieldLaw (r : Record) : Prop :=
  r.absenceAge ≤ 65535 ∧ (r.state ≠ .absent → r.state ≠ .retiring → r.absenceAge = 0) ∧ r.undelivered ≤ 255 ∧
    (r.used = true → r.state = .bound) ∧ (r.frozen = true → r.probeReg.isSome = true)

def Record.Lawful (r : Record) : Prop := r.CountLaw ∧ r.QuarantineLaw ∧ r.FieldLaw

/-- Every record keeps the laws of R4 to R8. -/
def State.RecordsLawful (s : State) : Prop := ∀ i r, s.recAt i = some r → r.Lawful

/-! ### Laws of the directory (R13) -/

/-- No two records that are not FREE have the same alias, or the same segment and target. -/
def State.Unique (s : State) : Prop :=
  ∀ i j r q, s.recAt i = some r → s.recAt j = some q → i ≠ j →
    r.aliasAddr ≠ q.aliasAddr ∧ ¬(r.segment = q.segment ∧ r.target = q.target)

/-- The alias index holds one entry for each slot that is not FREE, under its alias, and no other (R13). -/
def State.IndexLaw (s : State) : Prop :=
  ∀ a i, s.lookupAlias a = some i ↔ ∃ r, s.recAt i = some r ∧ r.aliasAddr = a

/-! ### Laws of the engines (R52, R53, R56) -/

/-- The current transaction is present exactly while the engine is ACTIVE, at most one of the two flags is set,
and the probe queue holds each slot at most once. -/
def Engine.Lawful (e : Engine) : Prop :=
  (e.tx.isSome = true ↔ e.state = .active) ∧ ¬(e.pausePending = true ∧ e.resumeWaiting = true) ∧
    e.probeQueue.Nodup

/-- R56: every probe queue holds each slot at most once. -/
def State.ProbeQueuesLaw (s : State) : Prop := ∀ k, (s.engine k).probeQueue.Nodup

/-- R53: the current transaction is present exactly while the engine is ACTIVE. -/
def State.TxLaw (s : State) : Prop := ∀ k, (s.engine k).tx.isSome = true ↔ (s.engine k).state = .active

/-- R53, R50: a CATCH-ALL and a discovery probe serve no record and name no slot; every other transaction names one. -/
def State.SlotLaw (s : State) : Prop := ∀ k t, (s.engine k).tx = some t →
  (t.slot = none ↔ t.kind = .catchAll ∨ t.kind = .discoveryProbe)

/-- R52, R146: the two flags follow the PAUSE or RESUME that waits on the engine, stand only where R52 sets them,
and are never set together. -/
def State.FlagsLaw (s : State) : Prop := ∀ k,
  (s.engine k).pausePending = s.waitsPause k ∧ (s.engine k).resumeWaiting = s.waitsResume k ∧
  ((s.engine k).pausePending = true → (s.engine k).state = .active ∨ (s.engine k).state = .recovering) ∧
  ((s.engine k).resumeWaiting = true → (s.engine k).state = .recovering) ∧
  ((s.engine k).pausePending && (s.engine k).resumeWaiting) = false

/-- R65, R59: a stall timer times a target's hold of the clock: it runs only while a transaction is on the bus, and not
while the engine itself holds the clock, between two steps of a forward or before a read byte's acknowledge bit. -/
def State.StallLaw (s : State) : Prop := ∀ k, (s.engine k).stall ≠ none →
  ∃ x, (s.engine k).tx = some x ∧ x.step ≠ .waitUp ∧ ∀ b, x.step ≠ .hold b

/-! ### In-flight markers and posted entries (R8, R81) -/

/-- The marker a transaction of this kind sets (R8, R58). -/
def TxKind.marker : TxKind → Marker
  | .forward => .forward
  | .delivery => .delivery
  | .quickProbe | .identityProbe => .probe
  | .catchAll | .discoveryProbe => .none

/-- Engine `k` has the transaction on its bus that marker `m` of slot `i` names. -/
def State.carries (s : State) (k : Seg) (i : Slot) (m : Marker) : Prop :=
  ∃ t, (s.engine k).tx = some t ∧ t.slot = some i ∧ t.ownsMarker = true ∧ t.silent = false ∧ t.kind.marker = m

/-- R8: a record's marker is set exactly while its own segment's engine has the transaction it names on the bus,
and a transaction that owns a marker belongs to a record. -/
def State.MarkerLaw (s : State) : Prop :=
  (∀ i r, s.recAt i = some r → ∀ k m, m ≠ .none → (s.carries k i m ↔ r.segment = k ∧ r.marker = m)) ∧
  (∀ k t, (s.engine k).tx = some t → t.ownsMarker = true → ∃ i r, t.slot = some i ∧ s.recAt i = some r) ∧
  (∀ k t, (s.engine k).tx = some t → t.silent = false → t.kind = .forward ∨ t.kind = .delivery → t.ownsMarker = true)

/-- R81: every entry that waits in a segment's queue belongs to a record of that segment that is BOUND or
RETIRING; the entry on the bus belongs to a record of the segment, which, unless the entry carries the purge mark,
is BOUND or RETIRING; and only an entry on the bus carries the mark (R87). -/
def State.EntriesLaw (s : State) : Prop := ∀ k,
  (∀ e ∈ s.waitingEntries k, ∃ r, s.recAt e.slot = some r ∧ r.segment = k ∧ (r.state = .bound ∨ r.state = .retiring)) ∧
  (s.deliveryOnBus k = true → ∃ t e rest r, (s.engine k).tx = some t ∧ (s.poolSeg k).queue = e :: rest ∧
    t.slot = some e.slot ∧ s.recAt e.slot = some r ∧ r.segment = k ∧
    ((s.poolSeg k).purgeMark = false → r.state = .bound ∨ r.state = .retiring)) ∧
  ((s.poolSeg k).purgeMark = true → s.deliveryOnBus k = true)

/-- R55: a forward request that waits names a BOUND record of its engine's segment (R36, R42), or no record. -/
def State.RequestLaw (s : State) : Prop := ∀ k q i, (s.engine k).request = some q → q.slot = some i →
  ∃ r, s.recAt i = some r ∧ r.segment = k ∧ r.state = .bound

/-- R56, R12, R20: every slot of a probe queue holds a record of the queue's segment. -/
def State.ProbeHomeLaw (s : State) : Prop := ∀ k, ∀ i ∈ (s.engine k).probeQueue,
  ∃ r, s.recAt i = some r ∧ r.segment = k

/-- R54: an IDLE engine has nothing to do: no request, no entry, no discovery, and no slot in its probe queue whose
record is not RETIRING. -/
def State.RestLaw (s : State) : Prop := ∀ k, (s.engine k).state = .idle →
  (s.engine k).request = none ∧ (s.poolSeg k).queue = [] ∧ (s.engine k).discovery = none ∧
  ∀ i ∈ (s.engine k).probeQueue, ∀ r, s.recAt i = some r → r.state = .retiring

/-- The laws that tie transactions, markers, entries, requests and probe queues to the records they serve. -/
def State.WorkLaw (s : State) : Prop :=
  s.TxLaw ∧ s.SlotLaw ∧ s.MarkerLaw ∧ s.EntriesLaw ∧ s.RequestLaw ∧ s.ProbeHomeLaw

/-! ### Laws of the pool (R77) -/

/-- A segment's use: its queued cost, and 18 while the open reservation is on it (R77). -/
def State.use (s : State) (k : Seg) : Nat :=
  queueCost (s.poolSeg k).queue + if s.pool.reservation = some k then Config.reservationBytes else 0

/-- The four shares together. -/
def State.shareSum (s : State) : Nat :=
  (s.poolSeg 0).share + (s.poolSeg 1).share + (s.poolSeg 2).share + (s.poolSeg 3).share

/-- R77: no segment's use exceeds its share, and the shares sum to at most 512. A staging buffer holds at most 16
bytes (R48), which is what keeps a commit within its reservation. -/
def State.PoolLaw (s : State) : Prop :=
  (∀ k, s.use k ≤ (s.poolSeg k).share) ∧ s.shareSum ≤ 512 ∧ s.up.ctx.staged.length ≤ 16

/-! ### Laws of the management port (R167) -/

/-- R167: the outstanding count is the commands queued, taken and not answered, and answered and not popped; it is
at most 8. -/
def State.OutstandingLaw (s : State) : Prop :=
  s.mp.outstanding = s.mp.commands.length + s.dc.ops.length + s.mp.responses.length ∧ s.mp.outstanding ≤ 8

/-- Between events no long operation holds an answer (log entry 15). -/
def State.NoAnswerHeld (s : State) : Prop := ∀ o ∈ s.dc.ops, o.answer = none

/-! ### The driven lines (R178, R180) -/

/-- The alert lines and ATTN stand at the levels R174, R178 and R180 give. -/
def State.LinesLaw (s : State) : Prop := s.au.alert = s.au.lines.map s.alertLevel ∧ s.au.attn = s.attnLevel

/-! ### Protection (R155, R156) -/

/-- R156: no slot of the protected range holds a RETIRING record. -/
def State.NoRetiringProtected (s : State) : Prop :=
  ∀ i r, s.isProtected i = true → s.recAt i = some r → r.state ≠ .retiring

/-- Between `s` and `t` no protected slot of `s` became FREE and no record in one changed its alias, segment or
target. -/
def KeepsProtected (s t : State) : Prop :=
  ∀ i r, s.isProtected i = true → s.recAt i = some r →
    ∃ r', t.recAt i = some r' ∧ r'.aliasAddr = r.aliasAddr ∧ r'.segment = r.segment ∧ r'.target = r.target

/-! ### The ends of transactions (R18, R19, R24, R26) -/

/-- R18, R106: a record after one charge. -/
def Record.charged (holdOff : Nat) (r : Record) : Record :=
  if r.state = .bound then
    if r.threshold ≤ r.errorCount + 1 then
      { r with state := .quarantined, errorCount := r.errorCount + 1, cause := some .errors, reprobeFailures := 0,
               holdOff := holdOff, absenceAge := 0, used := false, expiryHeld := false }
    else { r with errorCount := r.errorCount + 1 }
  else r

/-- R7, R19: a record after one undelivered claim. -/
def Record.oneLost (r : Record) : Record :=
  { r with undelivered := if r.undelivered < 255 then r.undelivered + 1 else r.undelivered }

/-- The identity after a PRESENT outcome (R4, R17). -/
def Record.seen (byte : Option Byte) (r : Record) : Record :=
  { r with identity := if byte.isSome then byte else r.identity }

/-- R17, R108: a QUARANTINED record after a failed reprobe of this outcome. -/
def Record.stillQuarantined (holdOff : Nat) (o : ProbeOutcome) (r : Record) : Record :=
  if 3 ≤ r.reprobeFailures + 1 then
    { r with state := .absent, reprobeFailures := r.reprobeFailures + 1, cause := none, holdOff := 0, absenceAge := 0,
             used := false, expiryHeld := false }
  else
    { r with reprobeFailures := r.reprobeFailures + 1, holdOff := holdOff,
             cause := if o = .mismatch then some .mismatch else r.cause }

/-- R17's table: a record that is not RETIRING after a probe's outcome; `byte` is the identity byte read. -/
def Record.probed (holdOff : Nat) (o : ProbeOutcome) (byte : Option Byte) (r : Record) : Record :=
  match o with
  | .present =>
    if r.state = .bound then r.seen byte
    else
      { r with state := .bound, errorCount := 0, reprobeFailures := 0, cause := none, holdOff := 0, absenceAge := 0,
               expiryHeld := false }.seen byte
  | .mismatch =>
    if r.state = .quarantined then r.stillQuarantined holdOff o
    else
      { r with state := .quarantined, reprobeFailures := 0, cause := some .mismatch, holdOff := holdOff,
               absenceAge := 0, used := false, expiryHeld := false }
  | .notPresent =>
    if r.state = .quarantined then r.stillQuarantined holdOff o
    else if r.state = .absent then r
    else { r with state := .absent, cause := none, holdOff := 0, absenceAge := 0, used := false, expiryHeld := false }

/-- The answers that long operations of these works have been given (R131, R132): each of the works that had none has
this one. -/
def Answered (s m : State) (work : LongWork → Prop) (answer : LongOp → Response) : Prop :=
  ∀ op ∈ s.dc.ops, work op.work → op.answer = none → { op with answer := some (answer op) } ∈ m.dc.ops

/-- The entries of slot `i` that a purge of segment `k` removes: those queued that are not on the bus. -/
def State.purged (s : State) (k : Seg) (i : Slot) : List Entry :=
  (s.waitingEntries k).filter fun e => e.slot == i

/-- An undelivered count after `n` claims more, saturating at 255 (R7, R19). -/
def moreLost (u n : Nat) : Nat := if u < 255 then min 255 (u + n) else u

/-- The entries of slot `i` in all four posted queues, one on the bus included. -/
def State.posted (s : State) (i : Slot) : List Entry :=
  allSegs.flatMap fun k => (s.poolSeg k).queue.filter fun e => e.slot == i

/-- Slot `i`, which held `r` in `s`, has become FREE (R12): its alias has left the index, no probe queue holds the slot,
it has joined the changed-slot set, every RETIRE that waited on it is answered DONE with its own count (R24, R141), and
every PROBE whose note was with its queued request is answered RETIRED (R145). -/
def FreedFrom (s m : State) (i : Slot) (r : Record) : Prop :=
  m.recAt i = none ∧ m.lookupAlias r.aliasAddr = none ∧ m.au.changed[i.val] = true ∧
  (∀ k, i ∉ (m.engine k).probeQueue) ∧
  (∀ n, Answered s m (fun w => w = .retire i n) fun op => ⟨.retire, op.tag, .done, twoBytes n⟩) ∧
  Answered s m (fun w => w = .probe i false) fun op => ⟨.probe, op.tag, .retired, []⟩

/-- What the end of a transaction leaves in slot `i`, whose record was `r` and is `q` once the outcome is applied:
once its marker is none, a retirement that owes nothing more and an absence expiry that was held end with the slot
FREE (R24, R26); any other record is `q`, with one undelivered claim for each entry that leaving BOUND purged (R88), and
a change of state adds the slot to the changed-slot set (R175).
That a held expiry is judged again at the end, class and protection included, and stays held only while it would
still be taken, is log entry 12. -/
def LeftBehind (s m : State) (i : Slot) (r q : Record) : Prop :=
  let expires := q.expiryHeld = true ∧ q.state = .absent ∧ q.cls = .dynamic ∧ s.isProtected i = false
  if q.marker = .none ∧ ((q.state = .retiring ∧ m.hasQueued q.segment i = false) ∨ expires) then
    FreedFrom s m i r ∧ m.dir.aliasIndex = s.dir.aliasIndex.set r.aliasAddr.toNat none r.aliasAddr.isLt
  else
    (q.state ≠ r.state → m.au.changed[i.val] = true) ∧
    m.recAt i = some { q with
      expiryHeld := decide (q.marker ≠ .none ∧ expires)
      undelivered := if r.state = .bound ∧ q.state ≠ .bound
        then moreLost q.undelivered (s.purged r.segment i).length else q.undelivered }

/-- What a purge of segment `k`'s queue leaves in slot `i`, whose record is `r` (R87, R89, R90): a RETIRING record whose
last entries it removed, with no transaction on the bus, is FREE (R24); any other record is `q`, with one undelivered
claim for each of its entries removed (R19), and a rise of the count adds the slot to the changed-slot set (R7). -/
def LeftByPurge (s m : State) (k : Seg) (i : Slot) (r q : Record) : Prop :=
  if r.state = .retiring ∧ r.marker = .none ∧ s.purged k i ≠ [] ∧ m.hasQueued r.segment i = false then FreedFrom s m i r
  else
    m.recAt i = some { q with undelivered := moreLost r.undelivered (s.purged k i).length } ∧
    (s.purged k i ≠ [] → r.undelivered < 255 → m.au.changed[i.val] = true)

/-! ### The answers to a waiting forward request (R35, R42) -/

/-- UP, which was `u`, has not acknowledged: it has released the clock and is UNADDRESSED. -/
def NotAcknowledged (u v : UpPort) : Prop :=
  v = { u with ctx := .unaddressed u.ctx.downOpen, out := ⟨some false, none⟩ }

/-- UP, which was `u`, has answered the address by stand-in (R35): not acknowledged under REFUSE; under FILL
acknowledged, with the fill byte in a read. -/
def AnsweredByStandIn (u v : UpPort) : Prop :=
  match u.ctx.answer, u.ctx.address with
  | some ⟨.fill, f⟩, some (_, d) =>
    v = { u with
      ctx := { u.ctx with phase := (match d with | .read => .read | .write => .write), mode := some .standIn,
                          segment := none, hold := none }
      out := ⟨some true, if d = .read then some f else none⟩ }
  | _, _ => NotAcknowledged u v

/-- R42: what became of the forward request that waited at engine `k`. It is withdrawn when it `goes`, with the
answer given from UP as `u` stands: not acknowledged for a catch-all, and where the slot became FREE; by stand-in for
any other. A request that does not go waits on, and UP is `u`. -/
def RequestAfter (s : State) (u : UpPort) (m : State) (k : Seg) (goes : FwdRequest → Prop) (freed : Prop) : Prop :=
  match (s.engine k).request with
  | none => (m.engine k).request = none ∧ m.up = u
  | some q =>
    (¬goes q → (m.engine k).request = some q ∧ m.up = u) ∧
    (goes q → (m.engine k).request = none ∧
      (q.slot = none ∨ freed → NotAcknowledged u m.up) ∧ (q.slot ≠ none → ¬freed → AnsweredByStandIn u m.up))

/-- The record of slot `i` leaves BOUND from `r` to `q`, which withdraws the request that waits for it (R11, R42). -/
def LeavesFor (i : Slot) (r q : Record) (w : FwdRequest) : Prop :=
  w.slot = some i ∧ r.state = .bound ∧ q.state ≠ .bound

/-! ### The purge of one record's entries (R11, R87, R88) -/

/-- Segment `k`'s queue after the purge of slot `i`'s entries: only the entry on the bus may be of the slot, and then it
carries the purge mark. -/
def PurgedOf (s m : State) (k : Seg) (i : Slot) : Prop :=
  m.poolSeg k = { s.poolSeg k with
    queue := s.busEntries k ++ (s.waitingEntries k).filter fun e => e.slot != i
    purgeMark := (s.poolSeg k).purgeMark || (s.busEntries k).any fun e => e.slot == i }

/-! ### The ends of probes (R17, R68, R144, R145) -/

/-- The end of a transaction of slot `i` on segment `k` changes no other record and no other segment's queue, and,
while the slot keeps its record, no other engine and nothing of the alias index. -/
def EndFrame (s m : State) (k : Seg) (i : Slot) : Prop :=
  OtherRecords s m i ∧ (∀ j, j ≠ k → m.poolSeg j = s.poolSeg j) ∧ (m.poolSeg k).share = (s.poolSeg k).share ∧
  m.pool.reservation = s.pool.reservation ∧ ((m.recAt i).isSome → m.dir.aliasIndex = s.dir.aliasIndex) ∧
  ((m.recAt i).isSome → ∀ j, j ≠ k → m.engine j = s.engine j) ∧
  m.up.holdLimit = s.up.holdLimit ∧ m.up.catchAll = s.up.catchAll ∧ m.stallLimit = s.stallLimit ∧ m.hm = s.hm ∧
  m.mp = s.mp ∧ m.pu = s.pu ∧ m.au.lines = s.au.lines ∧ m.au.faults = s.au.faults ∧ m.inReset = s.inReset ∧
  m.pending = s.pending

/-- The probe `x` on segment `k`'s bus belongs to the record `r` that its slot holds: its outcome is applied (R17). -/
def ProbeApplies (x : Tx) (k : Seg) (r : Record) : Prop :=
  x.sameRecord = true ∧ r.state ≠ .retiring ∧ r.segment = k ∧ r.target = x.target

/-- R17: a record once the probe `x` is off the bus: its marker is none where it stood for this probe. -/
def Record.probeOff (x : Tx) (r : Record) : Record := { r with marker := if x.ownsMarker then .none else r.marker }

/-- The outcome `o`, with the identity byte read, is applied to the record `r` of slot `i` (R17's table); a record that
leaves BOUND has its entries purged (R11, R88) and its request withdrawn (R42), and the PROBEs whose note the probe
carried are answered DONE with the outcome, the byte and the resulting state (R144, R187). -/
def ProbeApplied (s m : State) (k : Seg) (x : Tx) (i : Slot) (r : Record) (o : ProbeOutcome) (byte : Option Byte)
    (pauses : Prop) : Prop :=
  let q := (r.probeOff x).probed s.hm.holdOff o byte
  LeftBehind s m i r q ∧
  (r.state ≠ .bound ∨ q.state = .bound → m.pool = s.pool) ∧
  (r.state = .bound → q.state ≠ .bound → PurgedOf s m k i) ∧
  (s.WorkLaw → RequestAfter s s.up m k (fun w => pauses ∨ LeavesFor i r q w) False) ∧
  (q.state ≠ r.state ∨ q.identity ≠ r.identity → m.au.changed[i.val] = true) ∧
  Answered s m (fun w => w = .probe i true) fun op => ⟨.probe, op.tag, .done,
    (match o with | .present => [0x00] | .mismatch => [0x01] | .notPresent => [0x02]) ++
    (match byte with | some b => [0x01, b] | none => [0x00, 0x00]) ++ [q.state.code]⟩

/-- The outcome of the probe `x` is discarded, since the record `r` of slot `i` is not its record at its pair, or is
RETIRING (R17): a slot that becomes FREE with it answers the PROBEs whose note it carried RETIRED (R24, R145), and else
they wait as they did. -/
def ProbeDiscarded (s m : State) (k : Seg) (x : Tx) (i : Slot) (r : Record) (pauses : Prop) : Prop :=
  LeftBehind s m i r (r.probeOff x) ∧ m.pool = s.pool ∧
  (m.recAt i = none → Answered s m (fun w => w = .probe i true) fun op => ⟨.probe, op.tag, .retired, []⟩) ∧
  ((m.recAt i).isSome → ∀ op ∈ s.dc.ops, op.work = .probe i true → op ∈ m.dc.ops) ∧
  (s.WorkLaw → RequestAfter s s.up m k (fun _ => pauses) False)

/-- The probe of a slot that has become FREE is off segment `k`'s bus (R17): nothing of DIR, PWP, HM, MP, PU or AU
changes, the slot is not put back (R68), and no long operation but a waiting PAUSE is answered. -/
def ProbeOfFreeSlot (s m : State) (k : Seg) (pauses : Prop) : Prop :=
  m.dir = s.dir ∧ m.pool = s.pool ∧ m.hm = s.hm ∧ m.mp = s.mp ∧ m.pu = s.pu ∧ m.au = s.au ∧
  (∀ j, j ≠ k → m.engine j = s.engine j) ∧ (m.engine k).probeQueue = (s.engine k).probeQueue ∧
  (m.engine k).discovery = (s.engine k).discovery ∧ (∀ op ∈ s.dc.ops, op.work ≠ .pause k → op ∈ m.dc.ops) ∧
  RequestAfter s s.up m k (fun _ => pauses) False

/-- A fault has cut the probe `x` of slot `i` (R68): DIR changes nothing on the record `r` but the marker, and what
waited for the end follows (R24, R26). A slot that keeps its record on this segment goes back to the front of the probe
queue, unless it is queued, and the notes the probe carried with it (R143); a slot whose record was rebound away is not
put back. -/
def ProbeCut (s m : State) (k : Seg) (x : Tx) (i : Slot) (r : Record) : Prop :=
  let back := x.sameRecord = true ∧ r.segment = k
  EndFrame s m k i ∧ LeftBehind s m i r (r.probeOff x) ∧ m.pool = s.pool ∧
  (m.recAt i = none → Answered s m (fun w => w = .probe i true) fun op => ⟨.probe, op.tag, .retired, []⟩) ∧
  ((m.recAt i).isSome → back → (m.engine k).probeQueue =
      (if i ∈ (s.engine k).probeQueue then (s.engine k).probeQueue else i :: (s.engine k).probeQueue) ∧
    ∀ op ∈ s.dc.ops, op.work = .probe i true → { op with work := .probe i false } ∈ m.dc.ops) ∧
  ((m.recAt i).isSome → ¬back → (m.engine k).probeQueue = (s.engine k).probeQueue ∧ m.dc = s.dc)

/-! ### The end of a discovery (R121, R124, R125) -/

/-- R125, R187: the discovery of segment `k` has ended with `code` at the context `f`: the context is given up, and its
DISCOVER is answered with the counts. -/
def DiscoveryEnded (s m : State) (k : Seg) (f : Discovery) (code : ResultCode) : Prop :=
  (m.engine k).discovery = none ∧
  Answered s m (fun w => w = .discover k) fun op => ⟨.discover, op.tag, code, [oneByte f.found, oneByte f.created,
    oneByte f.known, oneByte f.collisions, match f.lastFinished with | some a => a.zeroExtend 8 | none => 0xFF]⟩

/-- R121, R124: an address has been finished, which leaves the context `f`: after the last one the discovery ends DONE,
a cancel noted ends it CANCELLED, and else it goes on. -/
def DiscoveryGoesOn (s m : State) (k : Seg) (f : Discovery) : Prop :=
  (f.next = none → DiscoveryEnded s m k f .done) ∧
  (f.next ≠ none → f.cancelRequested = true → DiscoveryEnded s m k f .cancelled) ∧
  (f.next ≠ none → f.cancelRequested = false → (m.engine k).discovery = some f)

/-! ### Transactions off the bus (R58, R69, R73) -/

/-- Engine `k` has its transaction off the bus with a stop: IDLE, or PAUSED when a pause was pending, with the waiting
PAUSE answered DONE (R58, R73, R146). -/
def Released (s m : State) (k : Seg) : Prop :=
  (m.engine k).tx = none ∧ (m.engine k).stall = none ∧ (m.engine k).rate = (s.engine k).rate ∧
  (m.engine k).resumeWaiting = (s.engine k).resumeWaiting ∧ (m.engine k).pausePending = false ∧
  ((s.engine k).pausePending = false → (m.engine k).state = .idle) ∧
  ((s.engine k).pausePending = true → (m.engine k).state = .paused ∧ (m.engine k).request = none ∧
    Answered s m (fun w => w = .pause k) fun op => ⟨.pause, op.tag, .done, []⟩)

/-- Engine `k` has entered RECOVERING and begins its first attempt (R69). -/
def Recovers (s m : State) (k : Seg) : Prop :=
  (m.engine k).state = .recovering ∧ (m.engine k).tx = none ∧ (m.engine k).stall = none ∧
  (m.engine k).attempt = none ∧ (m.engine k).attemptCount = 0 ∧
  (m.engine k).pausePending = (s.engine k).pausePending ∧ (m.engine k).resumeWaiting = (s.engine k).resumeWaiting ∧
  (m.engine k).rate = (s.engine k).rate ∧ (m.engine k).busRate = (s.engine k).rate

/-- UP is relaying the transaction of engine `k` to the upstream master (R36, R47). -/
def Relays (s : State) (k : Seg) : Prop :=
  s.up.ctx.downOpen = some k ∧ s.up.ctx.phase ≠ .unaddressed ∧
    (s.up.ctx.mode = some .forward ∨ s.up.ctx.mode = some .catchAll)

/-- The transaction `x` is on segment `k`'s bus and was not left open by a restart (R76). -/
def State.onBus (s : State) (k : Seg) (x : Tx) : Prop := (s.engine k).tx = some x ∧ x.silent = false

end Sys2Proof.Machine
end

