-- ==== Sys2Proof/Certificates/Slice0/Obligations.lean ====
section
/-! DEFINITION. Certificates/Slice0/Obligations.lean: the statements for the provers. Where a statement ends in
`settle`, `settleWith`, `conclude` or `concludeWith`, the end of an event is meant: DC's answers are queued in the
order of taking (R132), the lines are driven (R178, R180), and in the first two the arbiters of IDLE engines choose
first (R54); Laws/Arbiter.lean proves that such a choice changes nothing but what `OnlyArbiters` allows. -/

section

open Sys2Proof Sys2Proof.Machine

/-! ### Steps -/

/-- Every step with a command in front is that command's effect on the state with the queue's rest. -/
def Obligations.StepRunsCommandInFront : Prop :=
  ∀ (c : Instr) (rest : List Instr) (s : State),
    step { s with pending := c :: rest } = exec c { s with pending := rest }

/-- A step on an empty queue is one ms (the model's choice, log entry 3): every running timer advances by one ms and
waits at its limit, and nothing else changes; no timer runs while a full reset is held (R115, log entry 18). -/
def Obligations.IdleStepPassesOneMs : Prop :=
  ∀ s : State, s.pending = [] →
    let later := fun u : Timer => ({ limit := u.limit, elapsed := if u.elapsed < u.limit then u.elapsed + 1 else u.limit } : Timer)
    (s.inReset = true → step s = .next s) ∧
    (s.inReset = false → ∃ t, step s = .next t ∧
      (∀ k, t.engine k = { s.engine k with
        stall := (s.engine k).stall.map later, attempt := (s.engine k).attempt.map later }) ∧
      t = { s with
        up := { s.up with ctx := { s.up.ctx with hold := s.up.ctx.hold.map later } }
        eng := t.eng
        hm := { s.hm with
          surveyLeft := s.hm.surveyLeft - 1, idleLeft := s.hm.idleLeft.map fun n => n - 1
          stepRun := if s.hm.stepRun < 100 then s.hm.stepRun + 1 else 100
          secondRun := if s.hm.secondRun < 1000 then s.hm.secondRun + 1 else 1000 } })

/-- Every command completes in every state, and leaves the commands that wait to their sender. That one completes, and
changes nothing, in a state where the spec cannot have it (log entry 1), and that every event, a full reset too, leaves
the model's queue alone (log entry 29), are the model's choices. -/
def Obligations.EveryCommandCompletes : Prop :=
  ∀ (c : Instr) (s : State), ∃ t, exec c s = .next t ∧ t.pending = s.pending

/-! ### Reset -/

/-- What a full reset leaves where the spec gives the values: R27 (slots, index), R51 with R29's fields (UP), R76
(engines), R93, R94 (pool), R115, R117 (HM), R152 (DC), R153 (PU), R162 (MP) and R174 with R180's ATTN (AU). -/
def Obligations.ResetStateAsStated : Prop :=
  (∀ i, State.reset.recAt i = none) ∧ (∀ a, State.reset.lookupAlias a = none) ∧
  State.reset.up.ctx.phase = .unaddressed ∧ State.reset.up.ctx.mode = none ∧ State.reset.up.ctx.staged = [] ∧
  State.reset.up.ctx.address = none ∧ State.reset.up.ctx.slot = none ∧ State.reset.up.ctx.segment = none ∧
  State.reset.up.ctx.answer = none ∧ State.reset.up.ctx.downOpen = none ∧ State.reset.up.ctx.lastByteGiven = false ∧
  State.reset.up.ctx.hold = none ∧ State.reset.up.holdLimit = 25 ∧ State.reset.up.catchAll = none ∧
  (∀ k, (State.reset.engine k).state = .idle ∧ (State.reset.engine k).tx = none ∧
    (State.reset.engine k).pausePending = false ∧ (State.reset.engine k).resumeWaiting = false ∧
    (State.reset.engine k).stall = none ∧ (State.reset.engine k).attempt = none ∧
    (State.reset.poolSeg k).purgeMark = false ∧ State.reset.au.lines.get k = ⟨.disabled, 0, .openDrain⟩ ∧
    State.reset.au.faults.get k = ⟨false, false⟩ ∧
    (State.reset.engine k).request = none ∧ (State.reset.engine k).probeQueue = [] ∧
    (State.reset.engine k).discovery = none ∧ (State.reset.engine k).attemptCount = 0 ∧
    (State.reset.engine k).rate = .khz100 ∧ (State.reset.poolSeg k).share = 128 ∧
    (State.reset.poolSeg k).queue = [] ∧ State.reset.au.alert.get k = .released) ∧
  State.reset.stallLimit = 10 ∧ State.reset.pool.reservation = none ∧
  State.reset.hm.cadence = .active ∧ State.reset.hm.surveyLeft = 1000 ∧ State.reset.hm.idleLeft = some 30000 ∧
  State.reset.hm.stepRun = 0 ∧ State.reset.hm.secondRun = 0 ∧ State.reset.hm.activePeriod = 10 ∧
  State.reset.hm.relaxedPeriod = 8 ∧ State.reset.hm.idleTimeout = 30 ∧ State.reset.hm.holdOff = 20 ∧ State.reset.hm.lifetime = 60 ∧
  State.reset.dc.ops = [] ∧ State.reset.pu.code = 0 ∧ State.reset.pu.lock = false ∧ State.reset.pu.fixed = false ∧
  State.reset.mp.commands = [] ∧ State.reset.mp.responses = [] ∧ State.reset.mp.outstanding = 0 ∧
  State.reset.mp.latch = false ∧ State.reset.mp.restartEnable = false ∧ State.reset.mp.notice = true ∧
  State.reset.mp.lastResult = .ok ∧ State.reset.au.anyChange = false ∧ State.reset.au.changedSlots = [] ∧
  State.reset.au.responsesEnabled = true ∧ State.reset.au.changesEnabled = true ∧ State.reset.au.attn = true ∧
  State.reset.statusWord = 0x8000

/-- The laws of Safety.lean hold in State.reset. -/
def Obligations.ResetKeepsLaws : Prop :=
  State.reset.RecordsLawful ∧ State.reset.Unique ∧ State.reset.IndexLaw ∧ State.reset.ProbeQueuesLaw ∧
  State.reset.WorkLaw ∧ State.reset.RestLaw ∧ State.reset.FlagsLaw ∧ State.reset.PoolLaw ∧
  State.reset.OutstandingLaw ∧ State.reset.NoAnswerHeld ∧ State.reset.LinesLaw ∧ State.reset.NoRetiringProtected ∧
  State.reset.StallLaw

/-- R27, R171, R174: a full reset, and then its end with MCS released, give State.reset, but for the PROT level,
which follows its pin (R153); while it is held, all lines are released and no frame has an effect, and after it MP
waits for MCS to be released. State.reset itself takes PROT as low and MCS as released (log entry 17), and which events
a held reset leaves without effect is read from R171 (log entry 18). -/
def Obligations.FullResetAndItsEnd : Prop :=
  (∀ s : State, ∃ h, exec .fullReset s = .next h ∧ h.inReset = true ∧ h.au.attn = false ∧
    h.up.out = .released ∧ h.up.ctx.hold = none ∧
    (∀ k, h.au.alert.get k = .released ∧ (h.engine k).tx = none ∧ (h.engine k).state = .idle) ∧
    (∀ f, isFrameRow f = true → exec f h = .next h) ∧
    exec (.fullResetEnd false) h =
      .next { State.reset with pu := { Protection.reset with prot := s.pu.prot }, pending := s.pending } ∧
    ∃ t, exec (.fullResetEnd true) h = .next t ∧ t.mp.waitRelease = true ∧ t.au.attn = true ∧
      ∀ f : Instr, isFrameRow f = true → f.wf = true → exec f t = .next { t with mp := { t.mp with waitRelease := false } }) ∧
  (∀ (f : Instr) (s : State), isFrameRow f = true → s.inReset = true → exec f s = .next s) ∧
  ∀ (mcsAsserted : Bool) (s : State), s.inReset = true → ∃ t, exec (.fullResetEnd mcsAsserted) s = .next t ∧
    t.LinesLaw ∧
    t = { s with
      inReset := false
      mp := { s.mp with waitRelease := mcsAsserted }
      hm := { s.hm with stepRun := 0, secondRun := 0 }
      au := { s.au with alert := t.au.alert, attn := t.au.attn } }

/-! ### Frames of the management port -/

/-- R164, R181: a STATUS frame shifts the status word, high byte first and repeated, whose bits are as R181 lays them
out, and changes no state but what was shifted (`mdo` is the model's record of it, log entry 16). Each repetition is
captured afresh as it begins: a stretch that goes on with a frame, after other events of the part, ends the repetition
under way from its own capture and takes the word as it then stands for those it begins. That such a stretch after any
other frame changes nothing is log entry 1. -/
def Obligations.StatusFrameShiftsTheWord : Prop :=
  (∀ (n : Nat) (s : State), s.framesTaken →
    exec (.status ⟨n, false⟩) s =
      .next { s with mp := { s.mp with mdo := .status (List.replicate ((n + 15) / 16) s.statusWord) n } } ∧
    (∀ words bits, s.mp.mdo = .status words bits →
      let begun := List.replicate ((bits + n + 15) / 16 - words.length) s.statusWord
      exec (.status ⟨n, true⟩) s = .next { s with mp := { s.mp with mdo := .status (words ++ begun) (bits + n) } }) ∧
    ((∀ words bits, s.mp.mdo ≠ .status words bits) → exec (.status ⟨n, true⟩) s = .next s)) ∧
  (∀ (words : List (BitVec 16)) (bits j : Nat),
    (MdoShift.status words bits).shown .code = some 0x00 ∧
    (bits / 8 ≤ j → (MdoShift.status words bits).shown (.after j) = none) ∧
    ∀ w, j < bits / 8 → words[j / 2]? = some w → (MdoShift.status words bits).shown (.after j) =
      some (BitVec.ofNat 8 (if j % 2 = 0 then w.toNat / 256 else w.toNat % 256))) ∧
  (∀ n stretches, statusRows [] = [] ∧
    statusRows (n :: stretches) = .status ⟨n, false⟩ :: stretches.map fun m => .status ⟨m, true⟩) ∧
  ∀ s : State, s.mp.responses.length ≤ 8 → s.mp.outstanding ≤ 8 →
    s.statusWord.getLsbD 15 = s.mp.notice ∧ s.statusWord.getLsbD 14 = s.mp.latch ∧
    s.statusWord.getLsbD 13 = s.mp.restartEnable ∧ s.statusWord.getLsbD 12 = (s.pu.lock && !s.pu.prot) ∧
    s.statusWord.toNat / 256 % 16 = s.mp.lastResult.code ∧
    s.statusWord.toNat / 16 % 16 = s.mp.responses.length ∧ s.statusWord.toNat % 16 = s.mp.outstanding ∧
    [FrameResult.ok, .partialEnd, .unknown, .kind, .form, .full, .notEnabled, .empty, .ignored].map FrameResult.code =
      [0, 1, 2, 3, 4, 5, 6, 7, 8]

/-- R165, R170, R172: the four frames of one byte set or clear their flag, and each but RESTART_ENABLE clears
restart-enable; nothing else changes but the last frame result, and ATTN after ACK_RESTART (R180). R163, R161: a
partial frame sets PARTIAL and an empty one does nothing. In every frame MDO shifts 0x00 under the frame code and is
released while MCS is not asserted (R161), and throughout a full reset (R171); in these frames it shifts 0x00 after the
code too, for as long as the host clocks. `mdo` is the model's record of it (log entry 16). -/
def Obligations.FramesWithoutACommand : Prop :=
  (∀ m : MdoShift, m.shown .code = some 0x00 ∧ m.shown .outside = none) ∧
  (∀ j, MdoShift.zeros.shown (.after j) = some 0x00) ∧
  (∀ (s : State) (p : MdoPoint), s.mdoByte p = if s.inReset then none else s.mp.mdo.shown p) ∧
  ∀ s : State, s.framesTaken →
    (∀ bits, bits % 8 ≠ 0 → exec (.partialFrame bits) s =
      .next { s with mp := { s.mp with lastResult := .partialEnd, restartEnable := false, mdo := .zeros } }) ∧
    exec .emptyFrame s = .next s ∧
    exec .writeEnable s =
      .next { s with mp := { s.mp with latch := true, lastResult := .ok, restartEnable := false, mdo := .zeros } } ∧
    exec .writeDisable s =
      .next { s with mp := { s.mp with latch := false, lastResult := .ok, restartEnable := false, mdo := .zeros } } ∧
    exec .restartEnable s =
      .next { s with mp := { s.mp with lastResult := .ok, restartEnable := true, mdo := .zeros } } ∧
    ∃ t, exec .ackRestart s = .next t ∧
      t.mp = { s.mp with notice := false, lastResult := .ok, restartEnable := false, mdo := .zeros } ∧
      t.au = { s.au with alert := t.au.alert, attn := t.au.attn } ∧
      t.au.attn = ((!s.mp.responses.isEmpty && s.au.responsesEnabled) || (s.au.anyChange && s.au.changesEnabled)) ∧
      t = { s with mp := t.mp, au := t.au }

/-- R182, R160: the kind bytes 0x01 to 0x12 name the eighteen commands, with the lengths and the modifying kinds of
R182 and R160; and how the bytes of a BIND (R184), a REBIND and a RETIRE (R183), an EDIT (R185) and a SET_ALERT (R186)
are read: which are out of range, and what the others name. -/
def Obligations.CommandsDecode : Prop :=
  let kinds := [CmdKind.lookup, .bind, .edit, .rebind, .retire, .clearCounts, .probe, .discover, .cancel, .pause,
    .resume, .flush, .partition, .setTiming, .setProtect, .fixProtect, .setAlert, .changes]
  (∀ b : Byte, kindOf b = none ↔ b.toNat = 0 ∨ 0x13 ≤ b.toNat) ∧
  (∀ k : CmdKind, kindOf k.code = some k) ∧
  kinds.map CmdKind.code = [0x01, 0x02, 0x03, 0x04, 0x05, 0x06, 0x07, 0x08, 0x09, 0x0A, 0x0B, 0x0C, 0x0D, 0x0E, 0x0F,
    0x10, 0x11, 0x12] ∧
  kinds.map commandLength = [5, 11, 19, 5, 4, 3, 3, 6, 3, 3, 3, 3, 10, 11, 4, 2, 13, 2] ∧
  (∀ k : CmdKind, modifying k = false ↔ k ∈ [CmdKind.lookup, .clearCounts, .probe, .cancel, .changes]) ∧
  (∀ slot a k t o fill reg ident thr : Byte,
    (decodeBind [slot, a, k, t, o, fill, reg, ident, thr] = none ↔
      (48 ≤ slot.toNat ∧ slot ≠ 0xFF) ∨ a.toNat < 0x08 ∨ 0x77 < a.toNat ∨ 4 ≤ k.toNat ∨ t.toNat < 0x08 ∨
      0x77 < t.toNat ∨ thr = 0 ∨ o.getLsbD 7 = true ∨ (o.getLsbD 3 = true ∧ o.getLsbD 4 = false)) ∧
    ∀ f, decodeBind [slot, a, k, t, o, fill, reg, ident, thr] = some f →
      (f.slot = none ↔ slot = 0xFF) ∧ (∀ i, f.slot = some i → i.val = slot.toNat) ∧
      f.aliasAddr.toNat = a.toNat ∧ f.segment.val = k.toNat ∧ f.target.toNat = t.toNat ∧ f.threshold = thr.toNat ∧
      (f.cls = .held ↔ o.getLsbD 0 = true) ∧ (f.policy = .fill ↔ o.getLsbD 1 = true) ∧
      f.posting = o.getLsbD 2 ∧ f.frozen = o.getLsbD 3 ∧
      f.probeReg = (if o.getLsbD 4 then some reg else none) ∧
      f.identity = (if o.getLsbD 5 then some ident else none) ∧ f.fill = (if o.getLsbD 6 then fill else 0xFF)) ∧
  (∀ a k t : Byte,
    (decodeRebind [a, k, t] = none ↔ 48 ≤ a.toNat ∨ 4 ≤ k.toNat ∨ t.toNat < 0x08 ∨ 0x77 < t.toNat) ∧
    ∀ i j x, decodeRebind [a, k, t] = some (i, j, x) → i.val = a.toNat ∧ j.val = k.toNat ∧ x.toNat = t.toNat) ∧
  (∀ a b : Byte, (decodeRetire [a, b] = none ↔ 48 ≤ a.toNat ∨ 2 ≤ b.toNat) ∧
    ∀ i discard, decodeRetire [a, b] = some (i, discard) → i.val = a.toNat ∧ (discard = true ↔ b = 0x01)) ∧
  (∀ (slot : Byte) (pairs : List (Byte × Byte)), pairs.length = 8 →
    let bytes := slot :: pairs.flatMap fun p => [p.1, p.2]
    let field := fun p : Byte × Byte => if p.1 = 0x06 then 0x05 else if p.1 = 0x09 then 0x08 else p.1
    (decodeEdit bytes = none ↔ 48 ≤ slot.toNat ∨
      (∃ p ∈ pairs, 0x0B ≤ p.1.toNat ∨ (p.1 ∈ [(0x01 : Byte), 0x02, 0x04, 0x07] ∧ 2 ≤ p.2.toNat) ∨
        (p.1 = 0x0A ∧ p.2 = 0x00)) ∨
      ¬((pairs.map field).filter fun f => f != 0x00).Nodup) ∧
    ∀ i sel, decodeEdit bytes = some (i, sel) → i.val = slot.toNat ∧
      (∀ v, sel.cls = some v ↔ (0x01, if v = RecClass.held then 0x01 else 0x00) ∈ pairs) ∧
      (∀ v, sel.policy = some v ↔ (0x02, if v = Policy.fill then 0x01 else 0x00) ∈ pairs) ∧
      (∀ v, sel.fill = some v ↔ (0x03, v) ∈ pairs) ∧
      (∀ v, sel.posting = some v ↔ (0x04, if v then 0x01 else 0x00) ∈ pairs) ∧
      (∀ v, sel.probeReg = some (some v) ↔ (0x05, v) ∈ pairs) ∧
      (sel.probeReg = some none ↔ ∃ v, (0x06, v) ∈ pairs) ∧
      (∀ v, sel.frozen = some v ↔ (0x07, if v then 0x01 else 0x00) ∈ pairs) ∧
      (∀ v, sel.identity = some (some v) ↔ (0x08, v) ∈ pairs) ∧
      (sel.identity = some none ↔ ∃ v, (0x09, v) ∈ pairs) ∧
      (∀ n, sel.threshold = some n ↔ ∃ v, (0x0A, v) ∈ pairs ∧ v.toNat = n)) ∧
  ∀ a b d b7 b6 b5 b4 b3 b2 b1 b0 : Byte,
    let bytes := [a, b, d, b7, b6, b5, b4, b3, b2, b1, b0]
    let conditions := [AlertCondition.disabled, .quarantined, .absent, .notBound, .undelivered]
    (decodeAlert bytes = none ↔ 5 ≤ a.toNat ∨ (a = 0x04 ∧ 4 ≤ b.toNat) ∨
      (a.toNat < 4 ∧ (5 ≤ b.toNat ∨ 2 ≤ d.toNat ∨ b7 ≠ 0x00 ∨ b6 ≠ 0x00))) ∧
    (∀ k c, decodeAlert bytes = some (.line k c) → k.val = a.toNat ∧ conditions[b.toNat]? = some c.condition ∧
      (c.drive = .pushPull ↔ d = 0x01) ∧
      c.slots.toNat = b5.toNat * 2 ^ 40 + b4.toNat * 2 ^ 32 + b3.toNat * 2 ^ 24 + b2.toNat * 2 ^ 16 +
        b1.toNat * 2 ^ 8 + b0.toNat) ∧
    ∀ responses changes, decodeAlert bytes = some (.attn responses changes) →
      a = 0x04 ∧ responses = b.getLsbD 0 ∧ changes = b.getLsbD 1

/-- R166: the checks of a PUSH in their order, and its acceptance. MDO shifts 0x00 (R161); `mdo` is the model's record
of it (log entry 16). -/
def Obligations.PushIsCheckedInOrder : Prop :=
  ∀ (bytes : List Byte) (s : State), s.framesTaken →
    let refused := fun r => Host.Outcome.next
      { s with mp := { s.mp with lastResult := r, restartEnable := false, mdo := .zeros } }
    ((bytes = [] ∨ ∃ b rest, bytes = b :: rest ∧ kindOf b = none) → exec (.push bytes) s = refused .kind) ∧
    ∀ b rest kind, bytes = b :: rest → kindOf b = some kind →
      (bytes.length ≠ commandLength kind → exec (.push bytes) s = refused .form) ∧
      (bytes.length = commandLength kind → 8 ≤ s.mp.outstanding → exec (.push bytes) s = refused .full) ∧
      (bytes.length = commandLength kind → s.mp.outstanding < 8 → modifying kind = true → s.mp.latch = false →
        exec (.push bytes) s = refused .notEnabled) ∧
      (bytes.length = commandLength kind → s.mp.outstanding < 8 → (modifying kind = true → s.mp.latch = true) →
        ∀ tag args, rest = tag :: args →
          exec (.push bytes) s =
            .next { s with mp := { s.mp with
              commands := s.mp.commands ++ [{ kind := kind, tag := tag, args := args }]
              outstanding := s.mp.outstanding + 1
              latch := s.mp.latch && !modifying kind
              lastResult := .ok, restartEnable := false, mdo := .zeros } })

/-- R160, R162: a modifying command enters the command queue only by a PUSH that found the latch set and cleared it.
After any event the queue is what it was, its rest once the head is taken, empty after a restart or full reset, or what
it was with the one command of a PUSH at its tail. -/
def Obligations.ModifyingCommandsNeedTheLatch : Prop :=
  ∀ (c : Instr) (s t : State), exec c s = .next t →
    t.mp.commands = s.mp.commands ∨ (∃ cmd, s.mp.commands = cmd :: t.mp.commands) ∨
    (((∃ bytes low, c = .restart bytes low) ∨ c = .fullReset) ∧ t.mp.commands = []) ∨
    ∃ bytes cmd, c = .push bytes ∧ t.mp.commands = s.mp.commands ++ [cmd] ∧
      (modifying cmd.kind = true → s.mp.latch = true ∧ t.mp.latch = false)

/-- R168: what a POP removes, and the four rows of its table; R187: the outcome codes. `mdo` is the model's record of
the bytes shifted (log entry 16). -/
def Obligations.PopRemovesAWholeResponse : Prop :=
  ([ResultCode.done, .badField, .notFound, .slotFree, .slotInUse, .aliasInUse, .targetInUse, .tableFull, .protectedSlot,
    .busy, .retired, .segmentFault, .cancelled, .alreadyRunning, .notQuiescent, .badPartition, .locked,
    .fixed].map ResultCode.code = [0x00, 0x01, 0x02, 0x03, 0x04, 0x05, 0x06, 0x07, 0x08, 0x09, 0x0A, 0x0B, 0x0C, 0x0D,
      0x0E, 0x0F, 0x10, 0x11]) ∧
  ∀ (clocks : Nat) (s : State), s.framesTaken →
    (∀ r rest, s.mp.responses = r :: rest → clocks % 8 = 0 → r.results.length + 4 ≤ clocks / 8 →
      ∃ t, exec (.pop clocks false) s = .next t ∧
        t.mp = { s.mp with responses := rest, outstanding := s.mp.outstanding - 1, lastResult := .ok,
                           restartEnable := false
                           mdo := .bytes (oneByte (3 + r.results.length) :: r.kind.code :: r.tag :: r.code.code ::
                             (r.results ++ List.replicate (clocks / 8 - (r.results.length + 4)) 0x00)) } ∧
        t.au.attn = (s.mp.notice || (!rest.isEmpty && s.au.responsesEnabled) ||
          (s.au.anyChange && s.au.changesEnabled)) ∧
        t = { s with mp := t.mp, au := { s.au with alert := t.au.alert, attn := t.au.attn } }) ∧
    (∀ r rest, s.mp.responses = r :: rest → clocks % 8 ≠ 0 ∨ clocks / 8 < r.results.length + 4 →
      ∃ t, exec (.pop clocks false) s = .next t ∧
        t.mp = { s.mp with
          lastResult := .partialEnd, restartEnable := false
          mdo := .bytes ((oneByte (3 + r.results.length) :: r.kind.code :: r.tag :: r.code.code ::
            (r.results ++ List.replicate (clocks / 8 - (r.results.length + 4)) 0x00)).take (clocks / 8)) } ∧
        t = { s with mp := t.mp }) ∧
    (∀ empty, s.mp.responses = [] ∨ empty = true →
      ∃ t, exec (.pop clocks empty) s = .next t ∧
        t.mp = { s.mp with lastResult := if clocks % 8 = 0 then .empty else .partialEnd, restartEnable := false,
                           mdo := .bytes (List.replicate (clocks / 8) 0x00) } ∧ t = { s with mp := t.mp })

/-- R173: a frame of an unknown code is ignored, and no command kind is a frame code. R161, R163, R181: the row that a
frame received is, by its code, its whole bytes and the bits after them. The bytes MDO shifted, all 0x00 in such a
frame, the code included, are the model's record (log entry 16). -/
def Obligations.UnknownCodesAreIgnored : Prop :=
  let known := [(0xA0 : Byte), 0xA3, 0xA4, 0xB1, 0xB2, 0xC9, 0xCA, 0xCB]
  (MdoShift.zeros.shown .code = some 0x00 ∧ ∀ j, MdoShift.zeros.shown (.after j) = some 0x00) ∧
  (∀ (code : Byte) (s : State), s.framesTaken → code ∉ known →
    exec (.unknownFrame code) s =
      .next { s with mp := { s.mp with lastResult := .unknown, restartEnable := false, mdo := .zeros } }) ∧
  (∀ k : CmdKind, k.code ∉ known) ∧
  ∀ (rest : List Byte) (tail : Nat) (empty : Bool) (low : LowLines),
    let row := fun code tail => decodeFrame (code :: rest) tail empty low
    row 0xA0 tail = .status ⟨8 * rest.length + tail, false⟩ ∧ row 0xB2 tail = .pop (8 * rest.length + tail) empty ∧
    row 0xA3 0 = .writeEnable ∧ row 0xA4 0 = .writeDisable ∧ row 0xB1 0 = .push rest ∧
    row 0xC9 0 = .restartEnable ∧ row 0xCA 0 = .restart rest low ∧ row 0xCB 0 = .ackRestart ∧
    (∀ code, code ∉ known → row code 0 = .unknownFrame code) ∧
    (∀ code, code ≠ 0xA0 → code ≠ 0xB2 → tail ≠ 0 → row code tail = .partialFrame (8 * (rest.length + 1) + tail)) ∧
    (tail ≠ 0 → decodeFrame [] tail empty low = .partialFrame tail) ∧ decodeFrame [] 0 empty low = .emptyFrame

/-- R170, R171: a RESTART is ignored unless restart-enable is set and it carries one level byte of 1 or 2; then it is
taken, and MP (R162), DC (R152), UP (R51), PU, PWP (R93, R94), HM (R115, R117), AU (R174) and the engines (R76, with the
first probes HM asks for, R96) stand as those rules give; the records are RestartKeepsRecords. The record of MDO's bytes
(log entries 16, 22) and the ascending order of the probes of one event (log entry 33) are the model's choices. -/
def Obligations.RestartIsTakenOrIgnored : Prop :=
  ∀ (bytes : List Byte) (low : LowLines) (s : State), s.framesTaken →
    (s.mp.restartEnable = false ∨ (bytes ≠ [0x01] ∧ bytes ≠ [0x02]) →
      exec (.restart bytes low) s =
        .next { s with mp := { s.mp with lastResult := .ignored, restartEnable := false, mdo := .zeros } }) ∧
    (s.mp.restartEnable = true → bytes = [0x01] ∨ bytes = [0x02] →
      ∃ m : State, exec (.restart bytes low) s = .next (m.settle low) ∧
        m.mp = { Port.reset with mdo := .zeros } ∧ (m.settle low).mp = m.mp ∧ (m.settle low).au.attn = true ∧
        m.dc.ops = [] ∧ m.up.ctx = .unaddressed none ∧ m.up.out = .released ∧ m.pool.reservation = none ∧
        (∀ k, (m.poolSeg k).queue = [] ∧ (m.poolSeg k).purgeMark = false) ∧ m.pu = s.pu ∧
        m.au.changedSlots = [] ∧ (∀ k, m.au.faults.get k = FaultMarks.none) ∧ m.inReset = false ∧
        m.pending = s.pending ∧
        (∀ k, ∃ probes,
          m.engine k = { s.engine k with
            state := if (s.engine k).tx.isSome then .active else .idle
            pausePending := false, resumeWaiting := false
            tx := (s.engine k).tx.map fun x => { x with
              phase := .closing, step := (match x.step with | .waitUp | .hold _ | .nak => .stop | other => other)
              reason := some .onRequest, ownsMarker := false, silent := true }
            request := none, probeQueue := probes, discovery := none, attemptCount := 0, stall := none, attempt := none
            rate := if bytes = [0x01] then (s.engine k).rate else .khz100 } ∧
          probes.Pairwise (· < ·) ∧ ∀ i, i ∈ probes ↔ ∃ r, s.recAt i = some r ∧ r.state = .pending ∧ r.segment = k ∧
            (bytes = [0x01] ∨ s.isProtected i = true)) ∧
        (bytes = [0x01] → m.up.holdLimit = s.up.holdLimit ∧ m.up.catchAll = s.up.catchAll ∧
          m.stallLimit = s.stallLimit ∧ (∀ k, (m.poolSeg k).share = (s.poolSeg k).share) ∧
          m.hm = { s.hm with
            cadence := .active, surveyLeft := s.hm.activePeriod * 100
            idleLeft := if s.hm.idleTimeout = 0 then none else some (s.hm.idleTimeout * 1000) } ∧
          m.au.lines = s.au.lines ∧ m.au.responsesEnabled = s.au.responsesEnabled ∧
          m.au.changesEnabled = s.au.changesEnabled) ∧
        (bytes = [0x02] → m.up.holdLimit = 25 ∧ m.up.catchAll = none ∧ m.stallLimit = 10 ∧
          (∀ k, (m.poolSeg k).share = 128) ∧
          m.hm = { s.hm with
            cadence := .active, surveyLeft := 1000, idleLeft := some 30000, activePeriod := 10, relaxedPeriod := 8
            idleTimeout := 30, holdOff := 20, lifetime := 60 } ∧
          m.au.lines = Quad.fill AlertConfig.reset ∧ m.au.responsesEnabled = true ∧ m.au.changesEnabled = true))

/-- R27, R28: which records outlast a restart and with what fields: an undelivered count rises by one for each posted
entry of the slot, one on the bus included (R19, R93), and an in-flight marker is none, unless the arbiter has begun the
probe of a PENDING record. -/
def Obligations.RestartKeepsRecords : Prop :=
  ∀ (level : Byte) (low : LowLines) (s t : State), s.framesTaken → s.mp.restartEnable = true →
    level = 0x01 ∨ level = 0x02 → exec (.restart [level] low) s = .next t →
    ∀ i,
      (∀ r, s.recAt i = some r → r.state ≠ .retiring → level = 0x01 ∨ s.isProtected i = true →
        ∃ q, t.recAt i = some q ∧ (q.marker = .none ∨ (q.marker = .probe ∧ r.state = .pending)) ∧
          q = { r with
            holdOff := if r.state = .quarantined then (if level = 0x01 then s.hm.holdOff else 20) else 0
            absenceAge := 0, used := false, expiryHeld := false
            undelivered := moreLost r.undelivered (s.posted i).length, marker := q.marker }) ∧
      ((∀ r, s.recAt i = some r → r.state = .retiring ∨ (level = 0x02 ∧ s.isProtected i = false)) →
        t.recAt i = none)

/-! ### Protection -/

/-- R157, with the decoding of R183: the checks of SET_PROTECT in their order, and its effect. -/
def Obligations.SetProtectReplacesCodeAndLock : Prop :=
  (∀ a b : Byte, decodeProtect [a, b] = none ↔ 8 ≤ a.toNat ∨ 2 ≤ b.toNat) ∧
  (∀ (a b : Byte) (code : Fin 8) (lock : Bool), decodeProtect [a, b] = some (code, lock) →
    code.val = a.toNat ∧ (lock = true ↔ b = 0x01)) ∧
  modifying .setProtect = true ∧
  ∀ (s : State) (tag a b : Byte) (rest : List Command), s.queues .setProtect tag [a, b] rest →
    let answered := fun m code => Host.Outcome.next (State.concludeWith m ⟨.setProtect, tag, code, []⟩)
    (decodeProtect [a, b] = none → exec .setProtect s = answered (s.taken rest) .badField) ∧
    ∀ code lock, decodeProtect [a, b] = some (code, lock) →
      (s.pu.fixed = true → exec .setProtect s = answered (s.taken rest) .fixed) ∧
      (s.pu.fixed = false → s.pu.lock = true → s.pu.prot = false →
        exec .setProtect s = answered (s.taken rest) .locked) ∧
      (s.pu.fixed = false → s.pu.lock = false ∨ s.pu.prot = true →
        (∃ i r, i.val < protectedCount code ∧ s.recAt i = some r ∧ r.state = .retiring) →
        exec .setProtect s = answered (s.taken rest) .badField) ∧
      (s.pu.fixed = false → s.pu.lock = false ∨ s.pu.prot = true →
        (∀ i r, i.val < protectedCount code → s.recAt i = some r → r.state ≠ .retiring) →
        exec .setProtect s =
          answered { s.taken rest with pu := { s.pu with code := code, lock := lock } } .done)

/-- R159: FIX_PROTECT sets protect-fixed, and only a full reset clears it. -/
def Obligations.FixProtectHoldsUntilFullReset : Prop :=
  modifying .fixProtect = true ∧ commandLength .fixProtect = 2 ∧
  ∀ s : State,
    (∀ (tag : Byte) (args : List Byte) (rest : List Command), s.queues .fixProtect tag args rest →
      (s.pu.fixed = false → exec .fixProtect s =
        .next ({ s.taken rest with pu := { s.pu with fixed := true } }.concludeWith ⟨.fixProtect, tag, .done, []⟩)) ∧
      (s.pu.fixed = true → exec .fixProtect s =
        .next ((s.taken rest).concludeWith ⟨.fixProtect, tag, .fixed, []⟩))) ∧
    (∀ (tag : Byte) (args : List Byte) (rest : List Command), s.queues .setProtect tag args rest →
      decodeProtect args ≠ none → s.pu.fixed = true → exec .setProtect s =
        .next ((s.taken rest).concludeWith ⟨.setProtect, tag, .fixed, []⟩)) ∧
    (∀ c t, exec c s = .next t → s.pu.fixed = true → c ≠ .fullReset →
      t.pu.fixed = true ∧ t.pu.code = s.pu.code ∧ t.pu.lock = s.pu.lock) ∧
    ∃ t, exec .fullReset s = .next t ∧ t.pu.fixed = false ∧ t.pu.code = 0 ∧ t.pu.lock = false

/-- R153, R158: the protected count of each code, and the protected slots; a change of the PROT pin changes PU's level
alone. -/
def Obligations.ProtectedRangeAndPin : Prop :=
  ([0, 1, 2, 3, 4, 5, 6, 7].map protectedCount) = [0, 4, 8, 16, 24, 32, 40, 48] ∧
  (∀ (s : State) (i : Slot), s.isProtected i = true ↔ i.val < protectedCount s.pu.code) ∧
  ∀ (high : Bool) (s : State), exec (.protChange high) s = .next { s with pu := { s.pu with prot := high } }

/-- R155: no command but a full reset frees a protected slot or changes its record's alias, segment or target, in
any state that holds no RETIRING record in the protected range (R156, NoRetiringProtectedKept). -/
def Obligations.ProtectedSlotsStay : Prop :=
  ∀ (c : Instr) (s t : State), s.NoRetiringProtected → c ≠ .fullReset → exec c s = .next t → KeepsProtected s t

/-- R156: the protected range never takes in a RETIRING record. -/
def Obligations.NoRetiringProtectedKept : Prop :=
  ∀ s t : State, s.NoRetiringProtected → step s = .next t → t.NoRetiringProtected

/-! ### Commands on records -/

/-- R136, R14: LOOKUP answers the image of the record it finds, NOT_FOUND or BAD_FIELD, and changes nothing. -/
def Obligations.LookupFindsARecord : Prop :=
  ∀ (s : State) (tag m a b : Byte) (rest : List Command), s.queues .lookup tag [m, a, b] rest →
    let answered := fun code results =>
      Host.Outcome.next ((s.taken rest).concludeWith ⟨.lookup, tag, code, results⟩)
    (∀ i r, s.recAt i = some r → m = 0x00 → a.toNat = i.val →
      exec .lookup s = answered .done (oneByte i.val :: r.image)) ∧
    (∀ i r, s.recAt i = some r → m = 0x01 → a.toNat < 128 → s.lookupAlias (a.truncate 7) = some i →
      exec .lookup s = answered .done (oneByte i.val :: r.image)) ∧
    (∀ i r, s.recAt i = some r → m = 0x02 → a.toNat = r.segment.val → b.toNat = r.target.toNat → s.Unique →
      exec .lookup s = answered .done (oneByte i.val :: r.image)) ∧
    ((m = 0x00 ∧ ∃ i, a.toNat = i.val ∧ s.recAt i = none) ∨
      (m = 0x01 ∧ a.toNat < 128 ∧ s.lookupAlias (a.truncate 7) = none) ∨
      (m = 0x02 ∧ a.toNat < 4 ∧ b.toNat < 128 ∧
        ∀ i r, s.recAt i = some r → a.toNat ≠ r.segment.val ∨ b.toNat ≠ r.target.toNat) →
      exec .lookup s = answered .notFound []) ∧
    ((m = 0x00 ∧ 48 ≤ a.toNat) ∨ (m = 0x01 ∧ 128 ≤ a.toNat) ∨
      (m = 0x02 ∧ (4 ≤ a.toNat ∨ 128 ≤ b.toNat)) ∨ 2 < m.toNat →
      exec .lookup s = answered .badField [])

/-- R188: the eighteen items of the record image, at their offsets, with the codes of R187 and R188. -/
def Obligations.RecordImageLayout : Prop :=
  ([RecState.pending, .bound, .quarantined, .absent, .retiring].map RecState.code = [0x01, 0x02, 0x03, 0x04, 0x05]) ∧
  ([Marker.none, .forward, .probe, .delivery].map Marker.code = [0x00, 0x01, 0x02, 0x03]) ∧
  ([none, some Cause.errors, some .mismatch].map causeCode = [0x00, 0x01, 0x02]) ∧
  ∀ r : Record,
    r.image.length = 36 ∧
    (r.image.take 8 = [0x21, r.state.code, 0x22, r.aliasAddr.zeroExtend 8, 0x23, BitVec.ofNat 8 r.segment.val, 0x24,
      r.target.zeroExtend 8]) ∧
    (∃ o, (r.image.drop 8).take 4 = [0x25, o, 0x26, r.fill] ∧ o.getLsbD 0 = decide (r.cls = .held) ∧
      o.getLsbD 1 = decide (r.origin = .discovery) ∧ o.getLsbD 2 = decide (r.policy = .fill) ∧
      o.getLsbD 3 = r.posting ∧ o.getLsbD 4 = r.frozen ∧ o.toNat < 32) ∧
    ((r.image.drop 12).take 2 = match r.probeReg with | some v => [0x27, v] | none => [0xA7, 0x00]) ∧
    ((r.image.drop 14).take 2 = match r.identity with | some v => [0x28, v] | none => [0xA8, 0x00]) ∧
    r.image.drop 16 = [0x29, BitVec.ofNat 8 r.errorCount, 0x2A, BitVec.ofNat 8 r.threshold, 0x2B, causeCode r.cause,
      0x2C, BitVec.ofNat 8 r.reprobeFailures, 0x2D, BitVec.ofNat 8 r.holdOff, 0x2E, BitVec.ofNat 8 (r.absenceAge / 256),
      0x2F, BitVec.ofNat 8 r.absenceAge, 0x30, BitVec.ofNat 8 r.undelivered, 0x31, if r.used then 0x01 else 0x00,
      0x32, r.marker.code]

/-- R15, R137: the checks of a BIND in their order, BAD_FIELD first (R135, R184), and the record it creates, with its
probe asked for (R96), which a FAILED segment refuses (R98): a PROBE still noted on the slot would then be answered
SEGMENT_FAULT (R145). -/
def Obligations.BindCreatesAPendingRecord : Prop :=
  ∀ (s : State) (low : LowLines) (tag : Byte) (args : List Byte) (rest : List Command),
    s.queues .bind tag args rest →
    let refused := fun code => Host.Outcome.next ((s.taken rest).concludeWith ⟨.bind, tag, code, []⟩)
    (decodeBind args = none → exec (.bind low) s = refused .badField) ∧
    ∀ f, decodeBind args = some f →
      let guarded := ∃ i, f.slot = some i ∧ s.isProtected i = true
      let aliasUsed := ∃ i r, s.recAt i = some r ∧ r.aliasAddr = f.aliasAddr
      let pairUsed := ∃ i r, s.recAt i = some r ∧ r.segment = f.segment ∧ r.target = f.target
      let usable := fun i => s.recAt i = none ∧ s.isProtected i = false
      let created := fun i : Slot => { s.taken rest with
        dir := {
          slots := s.dir.slots.set i.val (some {
            state := .pending, aliasAddr := f.aliasAddr, segment := f.segment, target := f.target, cls := f.cls,
            origin := .host, policy := f.policy, fill := f.fill, posting := f.posting, probeReg := f.probeReg,
            identity := f.identity, frozen := f.frozen, errorCount := 0, threshold := f.threshold, cause := none,
            reprobeFailures := 0, holdOff := 0, absenceAge := 0, undelivered := 0, used := false, marker := .none,
            expiryHeld := false })
          aliasIndex := s.dir.aliasIndex.set f.aliasAddr.toNat (some i) f.aliasAddr.isLt }
        au := { s.au with changed := s.au.changed.set i.val true } }
      (guarded → exec (.bind low) s = refused .protectedSlot) ∧
      (¬guarded → aliasUsed → exec (.bind low) s = refused .aliasInUse) ∧
      (¬guarded → ¬aliasUsed → pairUsed → exec (.bind low) s = refused .targetInUse) ∧
      (¬guarded → ¬aliasUsed → ¬pairUsed → (∃ i, f.slot = some i ∧ s.recAt i ≠ none) →
        exec (.bind low) s = refused .slotInUse) ∧
      (¬aliasUsed → ¬pairUsed → f.slot = none → (∀ i, ¬usable i) → exec (.bind low) s = refused .tableFull) ∧
      (∀ i, ¬aliasUsed → ¬pairUsed → usable i → f.slot = some i ∨ (f.slot = none ∧ ∀ j, j < i → ¬usable j) →
        let answers := fun m =>
          exec (.bind low) s = .next (State.settleWith m low ⟨.bind, tag, .done, [oneByte i.val]⟩)
        ((s.engine f.segment).state ≠ .failed → answers { created i with
          eng := s.eng.set f.segment { s.engine f.segment with
            probeQueue := if i ∈ (s.engine f.segment).probeQueue then (s.engine f.segment).probeQueue
              else (s.engine f.segment).probeQueue ++ [i] } }) ∧
        ((s.engine f.segment).state = .failed → answers { created i with
          dc := { ops := s.dc.ops.map fun op =>
            if op.work = .probe i false ∧ op.answer = none
              then { op with answer := some ⟨.probe, op.tag, .segmentFault, []⟩ } else op } }))

/-- R138, R139, R5: the checks of an EDIT in their order; the selected fields change in the event, and the state
only by the threshold law. A quarantine has the effects of R10 and R11: the record's entries are purged, each counting
undelivered (R87, R88), and a request that waits for it is answered by stand-in (R42). -/
def Obligations.EditChangesSelectedFields : Prop :=
  ∀ (s : State) (tag : Byte) (args : List Byte) (rest : List Command), s.queues .edit tag args rest →
    let refused := fun code => Host.Outcome.next ((s.taken rest).concludeWith ⟨.edit, tag, code, []⟩)
    (decodeEdit args = none → exec .edit s = refused .badField) ∧
    ∀ i sel, decodeEdit args = some (i, sel) →
      (s.recAt i = none → exec .edit s = refused .slotFree) ∧
      ∀ r, s.recAt i = some r →
        let probeReg := sel.probeReg.getD r.probeReg
        let frozen := sel.frozen.getD r.frozen
        let quarantines := ∃ n, sel.threshold = some n ∧ r.state = .bound ∧ n ≤ r.errorCount
        (s.isProtected i = true → exec .edit s = refused .protectedSlot) ∧
        (s.isProtected i = false → frozen = true → probeReg = none → exec .edit s = refused .badField) ∧
        (s.isProtected i = false → (frozen = false ∨ probeReg ≠ none) →
          ∃ t q, exec .edit s = .next t ∧ t.recAt i = some q ∧ OtherRecords s t i ∧
            q = { r with
              cls := sel.cls.getD r.cls, policy := sel.policy.getD r.policy, fill := sel.fill.getD r.fill,
              posting := sel.posting.getD r.posting, probeReg := probeReg, frozen := frozen,
              identity := sel.identity.getD r.identity, threshold := sel.threshold.getD r.threshold,
              state := q.state, errorCount := q.errorCount, cause := q.cause, reprobeFailures := q.reprobeFailures,
              holdOff := q.holdOff, absenceAge := q.absenceAge, used := q.used, undelivered := q.undelivered,
              expiryHeld := q.expiryHeld } ∧
            (quarantines → q.state = .quarantined ∧ q.cause = some .errors ∧
              q.errorCount = sel.threshold.getD r.threshold ∧ q.holdOff = s.hm.holdOff ∧ q.reprobeFailures = 0 ∧
              q.used = false ∧ q.absenceAge = 0 ∧ q.expiryHeld = false ∧
              q.undelivered = moreLost r.undelivered (s.purged r.segment i).length ∧ PurgedOf s t r.segment i ∧
              RequestAfter s s.up t r.segment (fun w => w.slot = some i) False ∧ t.au.changed[i.val] = true) ∧
            (¬quarantines → q.state = r.state ∧ q.cause = r.cause ∧ q.holdOff = r.holdOff ∧
              q.reprobeFailures = r.reprobeFailures ∧ q.used = r.used ∧ q.undelivered = r.undelivered ∧
              q.absenceAge = r.absenceAge ∧ q.expiryHeld = r.expiryHeld ∧
              q.errorCount = (if r.state = .bound then r.errorCount
                else match sel.threshold with | some n => min r.errorCount n | none => r.errorCount)) ∧
            (sel.identity.getD r.identity ≠ r.identity → t.au.changed[i.val] = true) ∧
            t.mp.responses.getLast? = some ⟨.edit, tag, .done, [q.state.code]⟩ ∧ t.mp.commands = rest ∧
            t.dir.aliasIndex = s.dir.aliasIndex ∧ t.hm = s.hm ∧ t.pu = s.pu ∧ t.stallLimit = s.stallLimit ∧
            t.au.lines = s.au.lines ∧ t.au.faults = s.au.faults ∧ t.pool.reservation = s.pool.reservation ∧
            (∀ k, k ≠ r.segment → t.engine k = s.engine k ∧ t.poolSeg k = s.poolSeg k) ∧
            t.engine r.segment = { s.engine r.segment with request := (t.engine r.segment).request } ∧
            (¬quarantines → t.eng = s.eng ∧ t.pool = s.pool ∧ t.up = s.up))

/-- R20, R140: the checks of a REBIND in their order, and the record afterwards: PENDING at the new pair, with its
probe asked for there (R96, R98). A record that leaves BOUND has the effects of R11; one moved to another pair owns no
probe on the bus any more (R17); its PROBEs wait on the new request (R145). That within its segment the slot keeps its
place in the probe queue is log entry 34, and the flags of the probe on the bus are log entry 13. -/
def Obligations.RebindMovesARecord : Prop :=
  ∀ (s : State) (low : LowLines) (tag : Byte) (args : List Byte) (rest : List Command),
    s.queues .rebind tag args rest →
    let refused := fun code => Host.Outcome.next ((s.taken rest).concludeWith ⟨.rebind, tag, code, []⟩)
    (decodeRebind args = none → exec (.rebind low) s = refused .badField) ∧
    ∀ i k a, decodeRebind args = some (i, k, a) →
      (s.recAt i = none → exec (.rebind low) s = refused .slotFree) ∧
      ∀ r, s.recAt i = some r →
        let busy := r.state = .retiring ∨ r.marker = .forward ∨ r.marker = .delivery
        let inUse := ∃ j q, j ≠ i ∧ s.recAt j = some q ∧ q.segment = k ∧ q.target = a
        (s.isProtected i = true → exec (.rebind low) s = refused .protectedSlot) ∧
        (s.isProtected i = false → busy → exec (.rebind low) s = refused .busy) ∧
        (s.isProtected i = false → ¬busy → inUse → exec (.rebind low) s = refused .targetInUse) ∧
        (s.isProtected i = false → ¬busy → ¬inUse →
          ∃ m t q, exec (.rebind low) s = .next t ∧ t = m.settleWith low ⟨.rebind, tag, .done, []⟩ ∧
            t.recAt i = some q ∧
            q = { r with
              state := .pending, segment := k, target := a, errorCount := 0, reprobeFailures := 0, holdOff := 0,
              absenceAge := 0, cause := none, used := false, expiryHeld := false,
              identity := if r.frozen then r.identity else none,
              undelivered := q.undelivered, marker := q.marker } ∧
            q.undelivered = (if r.state = .bound then moreLost r.undelivered (s.purged r.segment i).length
              else r.undelivered) ∧
            (let same := r.segment = k ∧ r.target = a
             let left := fun j => if j = r.segment ∧ j ≠ k then (s.engine j).probeQueue.filter (fun x => x != i)
               else (s.engine j).probeQueue
             m.recAt i = some { q with marker := if same then r.marker else .none } ∧
             (r.state = .bound → PurgedOf s m r.segment i) ∧
             RequestAfter s s.up m r.segment (LeavesFor i r q) False ∧
             (∀ j, m.engine j = { s.engine j with
                tx := (s.engine j).tx.map fun x =>
                  if x.slot = some i ∧ ¬same then { x with ownsMarker := false, sameRecord := false } else x
                request := if j = r.segment then (m.engine j).request else (s.engine j).request
                probeQueue := if j = k ∧ (s.engine k).state ≠ .failed ∧ i ∉ left j then left j ++ [i] else left j }) ∧
             ((s.engine k).state ≠ .failed → m.dc.ops = s.dc.ops.map fun op =>
                if op.work = .probe i true then { op with work := .probe i false } else op) ∧
             ((s.engine k).state = .failed → ∀ op ∈ s.dc.ops, ∀ b, op.work = .probe i b → op.answer = none →
                { op with work := .probe i false, answer := some ⟨.probe, op.tag, .segmentFault, []⟩ } ∈ m.dc.ops)) ∧
            (∀ j, j ≠ i → (t.recAt j).map Record.unmarked = (s.recAt j).map Record.unmarked) ∧
            t.dir.aliasIndex = s.dir.aliasIndex ∧ t.au.changed[i.val] = true ∧
            ((s.engine k).state ≠ .failed → (s.engine k).state ≠ .idle → i ∈ (t.engine k).probeQueue) ∧
            (r.segment ≠ k → i ∉ (t.engine r.segment).probeQueue) ∧
            (∀ j, j ≠ k → j ≠ r.segment → (s.engine j).state ≠ .idle →
              (∀ x, (s.engine j).tx = some x → x.slot ≠ some i) → t.engine j = s.engine j) ∧
            (∀ j, j ≠ r.segment → t.poolSeg j = s.poolSeg j) ∧ (r.state ≠ .bound → t.pool = s.pool) ∧
            t.mp.responses.getLast? = some ⟨.rebind, tag, .done, []⟩ ∧ t.mp.commands = rest ∧
            t.hm = s.hm ∧ t.pu = s.pu ∧ t.au.lines = s.au.lines ∧ t.stallLimit = s.stallLimit)

/-- R21, R22, R141: a RETIRE of a record that owes nothing frees the slot at once; one of a record that owes something
waits with the record RETIRING; refusals in their order. The PROBEs of the slot are answered RETIRED (R145), a slot that
becomes FREE ends the RETIREs that wait on it, each with its own count (R24, R141), and a request that waits for the
record is withdrawn (R42). The flags of a transaction on the bus are log entry 13. -/
def Obligations.RetireFreesOrWaits : Prop :=
  ∀ (s : State) (tag : Byte) (args : List Byte) (rest : List Command), s.queues .retire tag args rest →
    let refused := fun code => Host.Outcome.next ((s.taken rest).concludeWith ⟨.retire, tag, code, []⟩)
    (decodeRetire args = none → exec .retire s = refused .badField) ∧
    ∀ i discard, decodeRetire args = some (i, discard) →
      (s.recAt i = none → exec .retire s = refused .slotFree) ∧
      ∀ r, s.recAt i = some r →
        let queued := (s.poolSeg r.segment).queue.filter fun e => e.slot == i
        let overtaken := fun t : State => ∀ op ∈ s.dc.ops, ∀ b, op.work = .probe i b → op.answer = none →
          ⟨.probe, op.tag, .retired, []⟩ ∈ t.mp.responses
        (s.isProtected i = true → exec .retire s = refused .protectedSlot) ∧
        (s.isProtected i = false → r.marker = .none → (∀ e ∈ s.busEntries r.segment, e.slot ≠ i) →
          queued = [] ∨ discard = true →
          ∃ t, exec .retire s = .next t ∧ t.recAt i = none ∧ OtherRecords s t i ∧
            t.dir.aliasIndex = s.dir.aliasIndex.set r.aliasAddr.toNat none r.aliasAddr.isLt ∧
            (∀ k, i ∉ (t.engine k).probeQueue) ∧ t.au.changed[i.val] = true ∧
            (t.poolSeg r.segment).queue = (s.poolSeg r.segment).queue.filter (fun e => e.slot != i) ∧
            t.mp.responses.getLast? = some ⟨.retire, tag, .done, twoBytes (if discard then queued.length else 0)⟩ ∧
            t.mp.commands = rest ∧ t.hm = s.hm ∧ t.pu = s.pu ∧ t.au.lines = s.au.lines ∧
            (∀ k, k ≠ r.segment → t.poolSeg k = s.poolSeg k) ∧ t.pool.reservation = s.pool.reservation ∧
            overtaken t ∧
            (∀ op ∈ s.dc.ops, ∀ n, op.work = .retire i n → op.answer = none →
              ⟨.retire, op.tag, .done, twoBytes n⟩ ∈ t.mp.responses) ∧
            RequestAfter s s.up t r.segment (fun w => w.slot = some i) True ∧
            ∀ k, t.engine k = { s.engine k with
              request := if k = r.segment then (t.engine k).request else (s.engine k).request
              probeQueue := (s.engine k).probeQueue.filter fun j => j != i
              tx := (s.engine k).tx.map fun x =>
                if x.slot = some i then { x with sameRecord := false, ownsMarker := false } else x }) ∧
        (s.isProtected i = false → r.marker ≠ .none ∨ (queued ≠ [] ∧ discard = false) →
          ∃ t q, exec .retire s = .next t ∧ t.recAt i = some q ∧ OtherRecords s t i ∧
            (r.state = .retiring → q = { r with undelivered := q.undelivered }) ∧
            (r.state ≠ .retiring → t.au.changed[i.val] = true ∧
              q = { r with state := .retiring, cause := none, holdOff := 0, used := false, expiryHeld := false,
                           undelivered := q.undelivered }) ∧
            q.undelivered = (if discard then moreLost r.undelivered (s.purged r.segment i).length else r.undelivered) ∧
            t.dir.aliasIndex = s.dir.aliasIndex ∧
            t.dc.ops.getLast? =
              some ⟨.retire i (if discard then (s.purged r.segment i).length else 0), tag, none⟩ ∧
            (discard = false → t.pool = s.pool) ∧ (discard = true → PurgedOf s t r.segment i) ∧ overtaken t ∧
            RequestAfter s s.up t r.segment (LeavesFor i r q) False ∧
            t.mp.commands = rest ∧ t.hm = s.hm ∧ t.pu = s.pu ∧ t.au.lines = s.au.lines ∧
            (∀ k, k ≠ r.segment → t.poolSeg k = s.poolSeg k) ∧ t.pool.reservation = s.pool.reservation ∧
            ∀ k, t.engine k = { s.engine k with
              request := if k = r.segment then (t.engine k).request else (s.engine k).request })

/-- R142, R25: CLEAR_COUNTS clears three counts, of one record or of every record, and answers how many. -/
def Obligations.ClearCountsClearsThree : Prop :=
  ∀ (s : State) (tag b : Byte) (rest : List Command), s.queues .clearCounts tag [b] rest →
    let cleared := fun r : Record => { r with errorCount := 0, reprobeFailures := 0, undelivered := 0 }
    (∀ i r, b.toNat = i.val → s.recAt i = some r →
      ∃ t, exec .clearCounts s = .next t ∧ t.recAt i = some (cleared r) ∧ OtherRecords s t i ∧
        t.dir.aliasIndex = s.dir.aliasIndex ∧ t.au.changed = s.au.changed ∧
        t.mp.responses.getLast? = some ⟨.clearCounts, tag, .done, [0x01]⟩ ∧ t.mp.commands = rest ∧
        t = { s with dir := t.dir, mp := t.mp, dc := t.dc, au := { s.au with alert := t.au.alert, attn := t.au.attn } }) ∧
    (b = 0xFF →
      ∃ t, exec .clearCounts s = .next t ∧ (∀ i, t.recAt i = (s.recAt i).map cleared) ∧
        t.dir.aliasIndex = s.dir.aliasIndex ∧
        t.mp.responses.getLast? = some ⟨.clearCounts, tag, .done,
          [oneByte (allSlots.filter fun i => (s.recAt i).isSome).length]⟩ ∧ t.mp.commands = rest ∧
        t = { s with dir := t.dir, mp := t.mp, dc := t.dc, au := { s.au with alert := t.au.alert, attn := t.au.attn } }) ∧
    (∀ i, b.toNat = i.val → s.recAt i = none → exec .clearCounts s =
      .next ((s.taken rest).concludeWith ⟨.clearCounts, tag, .slotFree, []⟩)) ∧
    (48 ≤ b.toNat → b ≠ 0xFF → exec .clearCounts s =
      .next ((s.taken rest).concludeWith ⟨.clearCounts, tag, .badField, []⟩))

/-- R143: the checks of a PROBE in their order; taken, its request joins the probe queue and it waits. -/
def Obligations.ProbeQueuesARequest : Prop :=
  ∀ (s : State) (low : LowLines) (tag b : Byte) (rest : List Command), s.queues .probe tag [b] rest →
    let refused := fun code => Host.Outcome.next ((s.taken rest).concludeWith ⟨.probe, tag, code, []⟩)
    (48 ≤ b.toNat → exec (.probe low) s = refused .badField) ∧
    ∀ i, b.toNat = i.val →
      (s.recAt i = none → exec (.probe low) s = refused .slotFree) ∧
      ∀ r, s.recAt i = some r →
        (r.state = .retiring → exec (.probe low) s = refused .retired) ∧
        (r.state ≠ .retiring → (s.engine r.segment).state = .failed →
          exec (.probe low) s = refused .segmentFault) ∧
        (r.state ≠ .retiring → (s.engine r.segment).state ≠ .failed →
          exec (.probe low) s = .next (
            { s.taken rest with
              eng := s.eng.set r.segment { s.engine r.segment with
                probeQueue := if i ∈ (s.engine r.segment).probeQueue then (s.engine r.segment).probeQueue
                  else (s.engine r.segment).probeQueue ++ [i] }
              dc := { ops := s.dc.ops ++ [({ work := .probe i false, tag := tag, answer := none } : LongOp)] } }.settle low))

/-! ### Commands on segments, settings and alerts -/

/-- R118, R119: the checks of a DISCOVER in their order, and the context it creates. -/
def Obligations.DiscoverCreatesAContext : Prop :=
  ∀ (s : State) (low : LowLines) (tag k l h b : Byte) (rest : List Command), s.queues .discover tag [k, l, h, b] rest →
    let refused := fun code => Host.Outcome.next ((s.taken rest).concludeWith ⟨.discover, tag, code, []⟩)
    (¬(k.toNat < 4 ∧ 0x08 ≤ l.toNat ∧ l.toNat ≤ h.toNat ∧ h.toNat ≤ 0x77 ∧ 0x08 ≤ b.toNat ∧
        b.toNat + (h.toNat - l.toNat) ≤ 0x77) → exec (.discover low) s = refused .badField) ∧
    ∀ g : Seg, k.toNat = g.val → 0x08 ≤ l.toNat → l.toNat ≤ h.toNat → h.toNat ≤ 0x77 → 0x08 ≤ b.toNat →
      b.toNat + (h.toNat - l.toNat) ≤ 0x77 →
      ((s.engine g).discovery ≠ none → exec (.discover low) s = refused .alreadyRunning) ∧
      ((s.engine g).discovery = none → (s.engine g).state = .failed →
        exec (.discover low) s = refused .segmentFault) ∧
      ((s.engine g).discovery = none → (s.engine g).state ≠ .failed →
        exec (.discover low) s = .next (
          { s.taken rest with
            eng := s.eng.set g { s.engine g with discovery := some {
              low := l.truncate 7, high := h.truncate 7, base := b.truncate 7, tag := tag,
              next := some (l.truncate 7), onBus := none, cancelRequested := false, found := 0, created := 0,
              known := 0, collisions := 0, lastFinished := none } }
            dc := { ops := s.dc.ops ++ [({ work := .discover g, tag := tag, answer := none } : LongOp)] } }.settle low))

/-- R124: a CANCEL reaches every discovery with its tag: one with no probe on the bus is given up at once, and its
DISCOVER is answered CANCELLED with the counts so far (R125), before the CANCEL (R132); the other is marked; with none
it is answered NOT_FOUND. -/
def Obligations.CancelReachesItsDiscoveries : Prop :=
  ∀ (s : State) (tag x : Byte) (rest : List Command), s.queues .cancel tag [x] rest →
    ((∀ k d, (s.engine k).discovery = some d → d.tag ≠ x) → exec .cancel s =
      .next ((s.taken rest).concludeWith ⟨.cancel, tag, .notFound, []⟩)) ∧
    ((∃ k d, (s.engine k).discovery = some d ∧ d.tag = x) →
      let ended := fun op : LongOp => match op.work with
        | .discover k => match (s.engine k).discovery with
          | some d => if d.tag = x ∧ d.onBus = none then
              some (⟨.discover, op.tag, .cancelled, [oneByte d.found, oneByte d.created, oneByte d.known,
                oneByte d.collisions, match d.lastFinished with | some a => a.zeroExtend 8 | none => 0xFF]⟩ : Response)
            else none
          | none => none
        | _ => none
      ∃ t, exec .cancel s = .next t ∧
        (∀ k, t.engine k = { s.engine k with discovery := (t.engine k).discovery } ∧
          (t.engine k).discovery = match (s.engine k).discovery with
            | some d => if d.tag = x then
                (if d.onBus.isSome then some { d with cancelRequested := true } else none) else some d
            | none => none) ∧
        t.mp.responses.getLast? = some ⟨.cancel, tag, .done, [oneByte (allSegs.filter fun k =>
          (s.engine k).discovery.any fun d => d.tag == x).length]⟩ ∧
        (s.NoAnswerHeld →
          t.mp.responses = s.mp.responses ++ s.dc.ops.filterMap ended ++ [⟨.cancel, tag, .done, [oneByte
            (allSegs.filter fun k => (s.engine k).discovery.any fun d => d.tag == x).length]⟩] ∧
          t.dc.ops = s.dc.ops.filter fun op => (ended op).isNone) ∧
        t.mp = { s.mp with commands := rest, responses := t.mp.responses } ∧
        t = { s with eng := t.eng, mp := t.mp, dc := t.dc,
                     au := { s.au with alert := t.au.alert, attn := t.au.attn } })

/-- R73, R146: a PAUSE by the engine's state; a forward request that waits at an engine that enters PAUSED is
withdrawn (R42). -/
def Obligations.PauseByEngineState : Prop :=
  ∀ (s : State) (tag b : Byte) (rest : List Command), s.queues .pause tag [b] rest →
    let answered := fun code => Host.Outcome.next ((s.taken rest).concludeWith ⟨.pause, tag, code, []⟩)
    (4 ≤ b.toNat → exec .pause s = answered .badField) ∧
    ∀ k : Seg, b.toNat = k.val →
      (s.waitsPause k = true ∨ s.waitsResume k = true → exec .pause s = answered .busy) ∧
      (s.waitsPause k = false → s.waitsResume k = false →
        ((s.engine k).state = .failed → exec .pause s = answered .segmentFault) ∧
        ((s.engine k).state = .paused → exec .pause s = answered .done) ∧
        ((s.engine k).state = .active ∨ (s.engine k).state = .recovering → exec .pause s = .next (
          { s.taken rest with
            eng := s.eng.set k { s.engine k with pausePending := true }
            dc := { ops := s.dc.ops ++ [({ work := .pause k, tag := tag, answer := none } : LongOp)] } }.conclude)) ∧
        ((s.engine k).state = .idle → ∃ t, exec .pause s = .next t ∧ (t.engine k).state = .paused ∧
          RequestAfter s s.up t k (fun _ => True) False ∧ (t.engine k).probeQueue = (s.engine k).probeQueue ∧
          (t.engine k).discovery = (s.engine k).discovery ∧ t.pool = s.pool ∧ t.dir = s.dir ∧
          (∀ j, j ≠ k → t.engine j = s.engine j) ∧
          t.mp.responses.getLast? = some ⟨.pause, tag, .done, []⟩ ∧ t.mp.commands = rest))

/-- R74, R146: a RESUME by the engine's state. -/
def Obligations.ResumeByEngineState : Prop :=
  ∀ (s : State) (low : LowLines) (tag b : Byte) (rest : List Command), s.queues .resume tag [b] rest →
    (4 ≤ b.toNat → exec (.resume low) s = .next ((s.taken rest).concludeWith ⟨.resume, tag, .badField, []⟩)) ∧
    ∀ k : Seg, b.toNat = k.val →
      (s.waitsResume k = true → exec (.resume low) s =
        .next ((s.taken rest).concludeWith ⟨.resume, tag, .busy, []⟩)) ∧
      (s.waitsResume k = false →
        ((s.engine k).state = .idle → exec (.resume low) s =
          .next ((s.taken rest).concludeWith ⟨.resume, tag, .done, []⟩)) ∧
        ((s.engine k).state = .paused → exec (.resume low) s = .next (
          { s.taken rest with eng := s.eng.set k { s.engine k with state := .idle } }.settleWith low
            ⟨.resume, tag, .done, []⟩)) ∧
        ((s.engine k).state = .active ∨ (s.engine k).state = .recovering →
          ∃ t, exec (.resume low) s = .next t ∧
            (∀ j, t.engine j = if j = k then { s.engine k with pausePending := false } else s.engine j) ∧
            (s.NoAnswerHeld → t.mp.responses = s.mp.responses ++
              (s.dc.ops.filter fun o => o.work == .pause k).map (fun o => ⟨.pause, o.tag, .cancelled, []⟩) ++
              [⟨.resume, tag, .done, []⟩]) ∧
            t.dir = s.dir ∧ t.pool = s.pool ∧ t.mp.commands = rest) ∧
        ((s.engine k).state = .failed → ∃ t, exec (.resume low) s = .next t ∧
          t.engine k = { s.engine k with state := .recovering, resumeWaiting := true, attemptCount := 0, tx := none,
                                         stall := none, attempt := none, busRate := (s.engine k).rate } ∧
          (∀ j, j ≠ k → t.engine j = s.engine j) ∧ t.dc.ops.getLast? = some ⟨.resume k, tag, none⟩ ∧
          t.dir = s.dir ∧ t.pool = s.pool ∧ t.mp.commands = rest))

/-- R90, R147: a FLUSH removes every entry of the segment that is not on the bus, and answers their number; each entry
removed counts undelivered on its record (R19, R87), and a RETIRING record that is left owing nothing is FREE, with its
RETIREs answered (R24, R141). No other segment's queue changes, and no record in any other field but the in-flight
marker of work that an arbiter begins. -/
def Obligations.FlushEmptiesAQueue : Prop :=
  ∀ (s : State) (low : LowLines) (tag b : Byte) (rest : List Command), s.queues .flush tag [b] rest →
    (4 ≤ b.toNat → exec (.flush low) s = .next ((s.taken rest).concludeWith ⟨.flush, tag, .badField, []⟩)) ∧
    ∀ k : Seg, b.toNat = k.val →
    ∃ m t : State, exec (.flush low) s = .next t ∧
      t = m.settleWith low ⟨.flush, tag, .done, twoBytes (s.waitingEntries k).length⟩ ∧
      (t.poolSeg k).queue = (if s.deliveryOnBus k then (s.poolSeg k).queue.take 1 else []) ∧
      (t.poolSeg k).share = (s.poolSeg k).share ∧ (∀ j, j ≠ k → t.poolSeg j = s.poolSeg j) ∧
      t.pool.reservation = s.pool.reservation ∧
      t.mp.responses.getLast? = some ⟨.flush, tag, .done, twoBytes
        (if s.deliveryOnBus k then ((s.poolSeg k).queue.drop 1).length else (s.poolSeg k).queue.length)⟩ ∧
      t.mp.commands = rest ∧ t.hm = s.hm ∧ t.pu = s.pu ∧ t.stallLimit = s.stallLimit ∧
      (t.poolSeg k).purgeMark = ((s.poolSeg k).purgeMark || s.deliveryOnBus k && !(s.poolSeg k).queue.isEmpty) ∧
      ∀ i, (s.recAt i = none → t.recAt i = none) ∧ ∀ r, s.recAt i = some r →
        LeftByPurge s m k i r r ∧ (t.recAt i).map Record.unmarked = (m.recAt i).map Record.unmarked

/-- R78, R148: a PARTITION checks its values, then the queues and the reservation, and replaces the four shares. -/
def Obligations.PartitionReplacesShares : Prop :=
  ∀ (s : State) (tag a1 a0 b1 b0 c1 c0 d1 d0 : Byte) (rest : List Command),
    s.queues .partition tag [a1, a0, b1, b0, c1, c0, d1, d0] rest →
    let n0 := a1.toNat * 256 + a0.toNat
    let n1 := b1.toNat * 256 + b0.toNat
    let n2 := c1.toNat * 256 + c0.toNat
    let n3 := d1.toNat * 256 + d0.toNat
    let allowed := fun n : Nat => n = 0 ∨ (32 ≤ n ∧ n ≤ 512 ∧ n % 8 = 0)
    let valid := allowed n0 ∧ allowed n1 ∧ allowed n2 ∧ allowed n3 ∧ n0 + n1 + n2 + n3 ≤ 512
    let quiet := (∀ k, (s.poolSeg k).queue = []) ∧ s.pool.reservation = none
    let answered := fun m code => Host.Outcome.next (State.concludeWith m ⟨.partition, tag, code, []⟩)
    modifying .partition = true ∧
    (¬valid → exec .partition s = answered (s.taken rest) .badPartition) ∧
    (valid → ¬quiet → exec .partition s = answered (s.taken rest) .notQuiescent) ∧
    (valid → quiet → exec .partition s = answered { s.taken rest with pool := { s.pool with segs :=
      ⟨{ s.poolSeg 0 with share := n0 }, { s.poolSeg 1 with share := n1 }, { s.poolSeg 2 with share := n2 },
       { s.poolSeg 3 with share := n3 }⟩ } } .done)

/-- R149, R150, R186: a SET_TIMING with a byte out of range changes nothing; otherwise every setting changes in the
event, an idle timeout of 0 stops the idle timer (R104) and a QUARANTINED record's hold-off stays within the
setting (R110). -/
def Obligations.SetTimingChangesSettings : Prop :=
  ∀ (s : State) (tag h st a r i o l c q : Byte) (rest : List Command),
    s.queues .setTiming tag [h, st, a, r, i, o, l, c, q] rest →
    let code := fun n : Nat => q.toNat / 4 ^ n % 4
    let valid := h ≠ 0 ∧ st ≠ 0 ∧ a ≠ 0 ∧ r ≠ 0 ∧ o ≠ 0 ∧ (c = 0xFF ∨ c.toNat < 4) ∧ ∀ n, n < 4 → code n ≠ 3
    (¬valid → exec .setTiming s = .next ((s.taken rest).concludeWith ⟨.setTiming, tag, .badField, []⟩)) ∧
    (valid → ∃ t, exec .setTiming s = .next t ∧
      t.up = { s.up with holdLimit := h.toNat, catchAll := t.up.catchAll } ∧
      (t.up.catchAll = none ↔ c = 0xFF) ∧ (∀ k, t.up.catchAll = some k → k.val = c.toNat) ∧
      t.stallLimit = st.toNat ∧
      t.hm = { s.hm with activePeriod := a.toNat, relaxedPeriod := r.toNat, idleTimeout := i.toNat, holdOff := o.toNat,
                         lifetime := l.toNat, idleLeft := if i = 0 then none else s.hm.idleLeft } ∧
      (∀ k, t.engine k = { s.engine k with rate := (t.engine k).rate } ∧
        ((t.engine k).rate = .khz100 ↔ code k.val = 0) ∧ ((t.engine k).rate = .khz400 ↔ code k.val = 1) ∧
        ((t.engine k).rate = .khz1000 ↔ code k.val = 2)) ∧
      (∀ j, t.recAt j = (s.recAt j).map fun x =>
        if x.state = .quarantined then { x with holdOff := min x.holdOff o.toNat } else x) ∧
      t.dir.aliasIndex = s.dir.aliasIndex ∧ t.pool = s.pool ∧ t.pu = s.pu ∧ t.au.changed = s.au.changed ∧
      t.mp.responses.getLast? = some ⟨.setTiming, tag, .done, []⟩ ∧ t.mp.commands = rest)

/-- R179, R186: SET_ALERT replaces one line's configuration, or the cause mask, and the lines follow in the event.
R177, R187: CHANGES answers both sets and empties them. -/
def Obligations.SetAlertAndChanges : Prop :=
  (∀ (s : State) (tag : Byte) (args : List Byte) (rest : List Command), s.queues .setAlert tag args rest →
    (decodeAlert args = none → exec .setAlert s =
      .next ((s.taken rest).concludeWith ⟨.setAlert, tag, .badField, []⟩)) ∧
    (∀ k config, decodeAlert args = some (.line k config) → exec .setAlert s =
      .next ({ s.taken rest with au := { s.au with lines := s.au.lines.set k config } }.concludeWith
        ⟨.setAlert, tag, .done, []⟩)) ∧
    ∀ rs ch, decodeAlert args = some (.attn rs ch) → exec .setAlert s =
      .next ({ s.taken rest with au := { s.au with responsesEnabled := rs, changesEnabled := ch } }.concludeWith
        ⟨.setAlert, tag, .done, []⟩)) ∧
  ∀ (s : State) (tag : Byte) (args : List Byte) (rest : List Command), s.queues .changes tag args rest →
    (∀ m : FaultMarks, m.byte.getLsbD 0 = m.recovered ∧ m.byte.getLsbD 1 = m.failed ∧ m.byte.toNat < 4) ∧
    ∃ t, exec .changes s = .next t ∧ (∀ i : Slot, t.au.changed[i.val] = false) ∧
      (∀ k, t.au.faults.get k = FaultMarks.none) ∧
      t.mp.responses.getLast? = some ⟨.changes, tag, .done,
        oneByte (allSlots.filter fun i => s.au.changed[i.val]).length ::
          ((allSlots.filter fun i => s.au.changed[i.val]).map fun i => oneByte i.val) ++
          [(s.au.faults.get 0).byte, (s.au.faults.get 1).byte, (s.au.faults.get 2).byte, (s.au.faults.get 3).byte]⟩ ∧
      t.mp.commands = rest ∧ t.dir = s.dir ∧ t.eng = s.eng ∧ t.pool = s.pool ∧ t.up = s.up ∧ t.hm = s.hm ∧
      t.pu = s.pu ∧ t.au.lines = s.au.lines

/-! ### The upstream port -/

/-- R30 to R35, R36, R48, R50, R102: the answer UP gives an address, by the record and the segment it finds, with
the traffic notice HM takes. While a transaction is under way an address acts as after a repeated start; an open
downstream transaction that the address does not continue, be it that the record has left BOUND (R43), is asked to end
first (R39, R40). That an address in the middle of a transaction acts so (log entry 5), that the bytes carried go on
counting at a repeated start (log entry 30), that an address after a restart is one whose start came after it (R51, log
entry 35), and that a request still waiting is taken back there as at a stop (log entry 38), are the model's choices. -/
def Obligations.AddressIsResolvedByRecord : Prop :=
  ∀ (a : Addr) (d : Dir) (low : LowLines) (s : State), s.inReset = false →
    let heard := { s with hm := { s.hm with
      cadence := .active
      surveyLeft := if s.hm.cadence = Cadence.relaxed then min s.hm.surveyLeft (s.hm.activePeriod * 100)
                    else s.hm.surveyLeft
      idleLeft := if s.hm.idleTimeout = 0 then none else some (s.hm.idleTimeout * 1000) } }
    let ctx := fun phase mode slot seg answer hold => ({
      phase := phase, mode := some mode, address := some (a, d), slot := slot, segment := seg, answer := answer,
      downOpen := none, lastByteGiven := false, staged := [], hold := hold } : UpContext)
    let held := some ({ limit := s.up.holdLimit, elapsed := 0 } : Timer)
    let refused := { heard with up := { s.up with ctx := .unaddressed none, out := ⟨some false, none⟩ } }
    let answers := fun m => exec (.addressEvent a d low) s = .next (State.settle m low)
    let serves := fun k => (s.engine k).state ≠ .paused ∧ (s.engine k).state ≠ .failed
    let posts := fun r : Record => r.state = .bound ∧ d = .write ∧ r.posting = true ∧
      (s.engine r.segment).state ≠ .failed ∧ 18 + queueCost (s.poolSeg r.segment).queue ≤ (s.poolSeg r.segment).share ∧
      s.pool.reservation = none
    let repeats := fun k (x : Tx) => { heard with eng := s.eng.set k { s.engine k with
      tx := some { x with dir := d, phase := .address, step := .address } } }
    let continuable := fun k x => s.up.ctx.downOpen = some k ∧ s.onBus k x ∧ x.isForward = true ∧
      x.phase ≠ .closing ∧ (x.step = .waitUp ∨ x.step = .nak ∨ ∃ b, x.step = .hold b)
    let continues := fun k (x : Tx) => continuable k x ∧ 0x08 ≤ a.toNat ∧ a.toNat ≤ 0x77 ∧ serves k ∧
      ((∃ i r, x.slot = some i ∧ s.lookupAlias a = some i ∧ s.recAt i = some r ∧ r.state = .bound ∧ r.segment = k ∧
          ¬posts r) ∨
        (x.slot = none ∧ x.target = a ∧ s.lookupAlias a = none ∧ s.up.catchAll = some k))
    (s.up.ctx.phase ≠ .unaddressed →
      exec (.addressEvent a d low) s = exec (.repeatedStart false (some (a, d)) low) s) ∧
    (s.up.ctx.phase = .unaddressed → s.IndexLaw → (∀ k x, ¬continues k x) →
      exec (.addressEvent a d low) s = exec (.addressEvent a d low) s.abandonOpen) ∧
    (s.up.ctx.downOpen = none → s.abandonOpen = s) ∧
    (∀ k x, s.up.ctx.downOpen = some k → s.onBus k x → x.isForward = true →
      let step := match x.step with | .waitUp | .hold _ | .nak => .stop | other => other
      let left := { s.up with ctx := { s.up.ctx with downOpen := none } }
      (x.phase ≠ .closing → s.abandonOpen = { s with
        eng := s.eng.set k { s.engine k with
          tx := some { x with phase := .closing, step := step, reason := some .onRequest } }
        up := left }) ∧
      (x.phase = .closing → s.abandonOpen = { s with up := left })) ∧
    (s.up.ctx.phase = .unaddressed → s.up.ctx.downOpen = none →
      (a.toNat < 0x08 ∨ 0x77 < a.toNat → answers refused) ∧
      (0x08 ≤ a.toNat → a.toNat ≤ 0x77 → s.lookupAlias a = none →
        (s.up.catchAll = none → answers refused) ∧
        ∀ k, s.up.catchAll = some k → (¬serves k → answers refused) ∧
          (serves k → answers { heard with
            eng := s.eng.set k { s.engine k with request := some ⟨none, a, d⟩ }
            up := { s.up with ctx := ctx .address .catchAll none (some k) none held, out := .released } })) ∧
      ∀ i r, 0x08 ≤ a.toNat → a.toNat ≤ 0x77 → s.lookupAlias a = some i → s.recAt i = some r →
        (posts r → answers { heard with
          pool := { s.pool with reservation := some r.segment }
          up := { s.up with ctx := ctx .write .posted (some i) (some r.segment) (some ⟨r.policy, r.fill⟩) none,
                            out := ⟨some true, none⟩ } }) ∧
        (r.state = .bound → ¬posts r → serves r.segment → answers { heard with
          eng := s.eng.set r.segment { s.engine r.segment with request := some ⟨some i, r.target, d⟩ }
          up := { s.up with ctx := ctx .address .forward (some i) (some r.segment) (some ⟨r.policy, r.fill⟩) held,
                            out := .released } }) ∧
        (r.state ≠ .bound ∨ (¬posts r ∧ ¬serves r.segment) →
          (r.policy = .refuse → answers refused) ∧
          (r.policy = .fill → answers { heard with up := { s.up with
            ctx := ctx (match d with | .read => .read | .write => .write) .standIn (some i) none
              (some ⟨.fill, r.fill⟩) none
            out := ⟨some true, if d = Dir.read then some r.fill else none⟩ } }))) ∧
    (s.up.ctx.phase = .unaddressed → ∀ k x, continuable k x → 0x08 ≤ a.toNat → a.toNat ≤ 0x77 → serves k →
      (∀ i r, x.slot = some i → s.lookupAlias a = some i → s.recAt i = some r → r.state = .bound →
        r.segment = k → ¬posts r → answers { repeats k x with up := { s.up with
          ctx := { ctx .address .forward (some i) (some k) (some ⟨r.policy, r.fill⟩) held with downOpen := some k }
          out := .released } }) ∧
      (x.slot = none → x.target = a → s.lookupAlias a = none → s.up.catchAll = some k →
        answers { repeats k x with up := { s.up with
          ctx := { ctx .address .catchAll none (some k) none held with downOpen := some k }
          out := .released } }))

/-- R40, R41, R49: a repeated start closes the current mode as a stop does, but leaves a forward that stands between
two bytes open, unless it cuts a written byte; the address after it then resolves as R30 gives. The order of the
closing and the new address, and what a cut byte does to a forward, are read from R30 and R41 (log entries 5 and 8).
While UP is UNADDRESSED the condition cuts an address byte, which resolves to nothing, and an open transaction is closed
as for a stop (R41). That a request still waiting is taken back with no answer, as at a stop, is the model's choice (log
entry 38). -/
def Obligations.RepeatedStartClosesTheMode : Prop :=
  ∀ (cut : Bool) (low : LowLines) (s : State), s.inReset = false →
    (s.up.ctx.mode = some .posted → exec (.repeatedStart cut none low) s = exec (.stopCondition low) s) ∧
    (∀ m, s.up.ctx.mode = some m → s.up.ctx.downOpen = none →
      exec (.repeatedStart cut none low) s = exec (.stopCondition low) s) ∧
    (∀ m k x, s.up.ctx.mode = some m → m ≠ .posted → s.up.ctx.downOpen = some k → (s.engine k).tx = some x →
      let stays := (x.step = .waitUp ∨ x.step = .nak ∨ ∃ b, x.step = .hold b) ∧ (cut = false ∨ s.up.ctx.phase ≠ .write)
      (stays → exec (.repeatedStart cut none low) s =
        .next ({ s with up := { s.up with ctx := .unaddressed (some k), out := .released } }.settle low)) ∧
      (¬stays → exec (.repeatedStart cut none low) s = exec (.stopCondition low) s)) ∧
    (s.up.ctx.mode = none →
      let left := { s.up with ctx := .unaddressed s.up.ctx.downOpen, out := .released }
      let answers := fun m => exec (.repeatedStart cut none low) s = .next (State.settle m low)
      (s.up.ctx.downOpen = none → answers { s with up := left }) ∧
      ∀ k x, s.up.ctx.downOpen = some k → s.onBus k x → x.isForward = true →
        let step := match x.step with | .waitUp | .hold _ | .nak => .stop | other => other
        (x.phase ≠ .closing → answers { s with
          eng := s.eng.set k { s.engine k with
            tx := some { x with phase := .closing, step := step, reason := some .onRequest } }
          up := left }) ∧
        (x.phase = .closing → answers { s with up := left })) ∧
    ∀ a d, exec (.repeatedStart cut (some (a, d)) low) s =
      exec (.addressEvent a d low) ((s.closeForRestart cut).arbitrateAll low)

/-- R39, R49, R80: what a stop does by mode: a POSTED write is committed, or dropped with an undelivered claim
while the slot still holds its alias; an open forward is to end with a downstream stop. That a request that still waits
for the arbiter is taken back, with no answer to its address, is the model's choice (log entry 38). -/
def Obligations.StopCommitsOrEndsDownstream : Prop :=
  ∀ (low : LowLines) (s : State), s.inReset = false →
    let left := { s.up with ctx := .unaddressed s.up.ctx.downOpen, out := .released }
    let answers := fun m => exec (.stopCondition low) s = .next (State.settle m low)
    (∀ i a d k, s.up.ctx.mode = some .posted → s.up.ctx.slot = some i → s.up.ctx.address = some (a, d) →
      s.pool.reservation = some k →
      let wanted := ∃ r, s.recAt i = some r ∧ r.state = .bound ∧ r.aliasAddr = a ∧ r.segment = k ∧
        (s.engine k).state ≠ .failed
      (wanted → answers { s with
        pool := { segs := s.pool.segs.set k { s.poolSeg k with
                    queue := (s.poolSeg k).queue ++ [⟨i, s.up.ctx.staged, false⟩] }
                  reservation := none }
        up := left }) ∧
      (∀ r, ¬wanted → s.recAt i = some r → r.aliasAddr = a → r.undelivered < 255 → answers { s with
        pool := { s.pool with reservation := none }
        dir := { s.dir with slots := s.dir.slots.set i.val (some { r with undelivered := r.undelivered + 1 }) }
        au := { s.au with changed := s.au.changed.set i.val true }
        up := left }) ∧
      (∀ r, ¬wanted → s.recAt i = some r → r.aliasAddr = a → 255 ≤ r.undelivered →
        answers { s with pool := { s.pool with reservation := none }, up := left }) ∧
      ((∀ r, s.recAt i = some r → r.aliasAddr ≠ a) →
        answers { s with pool := { s.pool with reservation := none }, up := left })) ∧
    (∀ k x, s.up.ctx.mode ≠ some .posted → s.up.ctx.downOpen = some k → s.onBus k x → x.isForward = true →
      let step := match x.step with | .waitUp | .hold _ | .nak => .stop | other => other
      (x.phase ≠ .closing → answers { s with
        eng := s.eng.set k { s.engine k with
          tx := some { x with phase := .closing, step := step, reason := some .onRequest } }
        up := left }) ∧
      (x.phase = .closing → answers { s with up := left })) ∧
    (∀ k, s.up.ctx.mode ≠ some .posted → s.up.ctx.downOpen = none → s.up.ctx.segment = some k →
      answers { s with eng := s.eng.set k { s.engine k with request := none }, up := left }) ∧
    (s.up.ctx.mode ≠ some .posted → s.up.ctx.downOpen = none → s.up.ctx.segment = none →
      answers { s with up := left })

/-- R35, R37, R38, R46, R48, R59: what UP does with a byte the master writes, and with its answer to a byte it read: an
acknowledge fetches the next byte, and for a NAK the engine releases the segment clock for that bit, in which a target
may hold it (log entry 7). The record of what UP drives (log entry 19) and the count of the bytes carried (log entry 30)
are the model's choices. -/
def Obligations.UpstreamBytesByMode : Prop :=
  ∀ s : State, s.inReset = false →
    let held := some ({ limit := s.up.holdLimit, elapsed := 0 } : Timer)
    let carries := fun m => s.up.ctx.mode = m ∧ (m = some .forward ∨ m = some .catchAll)
    (∀ b : Byte,
      let answers := fun m => exec (.writeEvent b) s = .next (State.conclude m)
      (s.up.ctx.phase = .write → s.up.ctx.mode = some .posted → s.up.ctx.staged.length < 16 →
        answers { s with up := { s.up with ctx := { s.up.ctx with staged := s.up.ctx.staged ++ [b] },
                                           out := ⟨some true, none⟩ } }) ∧
      (s.up.ctx.phase = .write → s.up.ctx.mode = some .posted → 16 ≤ s.up.ctx.staged.length →
        answers { s with up := { s.up with out := ⟨some false, none⟩ } }) ∧
      (s.up.ctx.phase = .write → s.up.ctx.mode = some .standIn →
        answers { s with up := { s.up with out := ⟨some true, none⟩ } }) ∧
      (s.up.ctx.phase = .unaddressed → answers { s with up := { s.up with out := ⟨some false, none⟩ } }) ∧
      (∀ m k x, s.up.ctx.phase = .write → carries m → s.up.ctx.downOpen = some k → s.onBus k x →
        x.isForward = true → x.phase = .data → x.step = .waitUp →
        answers { s with
          eng := s.eng.set k { s.engine k with tx := some { x with step := .send b } }
          up := { s.up with ctx := { s.up.ctx with hold := held }, out := .released } })) ∧
    ∀ ack : Bool,
      let answers := fun m => exec (.masterReadAnswer ack) s = .next (State.conclude m)
      s.up.ctx.phase = .read →
      (s.up.ctx.lastByteGiven = true → answers { s with up := { s.up with out := .released } }) ∧
      (∀ f, s.up.ctx.lastByteGiven = false → s.up.ctx.mode = some .standIn →
        (∃ p, s.up.ctx.answer = some ⟨p, f⟩) ∨ (s.up.ctx.answer = none ∧ f = 0xFF) →
        (ack = true → answers { s with up := { s.up with out := ⟨none, some f⟩ } }) ∧
        (ack = false → answers { s with up := { s.up with ctx := { s.up.ctx with lastByteGiven := true },
                                                          out := .released } })) ∧
      (∀ m k x b, s.up.ctx.lastByteGiven = false → carries m → s.up.ctx.downOpen = some k →
        (s.engine k).tx = some x → x.step = .hold b →
        (ack = true → answers { s with
          eng := s.eng.set k { s.engine k with
            tx := some { x with phase := .data, step := .fetch, carried := x.carried + 1 } }
          up := { s.up with ctx := { s.up.ctx with hold := held }, out := .released } }) ∧
        (ack = false → answers { s with
          eng := s.eng.set k { s.engine k with tx := some { x with step := .nak, carried := x.carried + 1 } }
          up := { s.up with ctx := { s.up.ctx with lastByteGiven := true }, out := .released } }))

/-- R45, R46: at the hold limit a request that has not started is withdrawn, a transaction that has is to end with a
stop, and the master gets a NAK, or in a read the fill byte, with which UP stands in from then on. -/
def Obligations.HoldLimitAnswersUpstream : Prop :=
  ∀ (s : State) (k : Seg) (held : Timer), s.inReset = false → s.up.ctx.hold = some held →
    let answered := fun e : Engine =>
      let refused := exec .holdLimitExpiry s = .next (
        { s with
          eng := s.eng.set k e
          up := { s.up with ctx := .unaddressed s.up.ctx.downOpen, out := ⟨some false, none⟩ } }.conclude)
      (s.up.ctx.phase = .address → refused) ∧ (s.up.ctx.phase = .write → refused) ∧
      (∀ f, s.up.ctx.phase = .read → (∃ p, s.up.ctx.answer = some ⟨p, f⟩) ∨ (s.up.ctx.answer = none ∧ f = 0xFF) →
        exec .holdLimitExpiry s = .next (
          { s with
            eng := s.eng.set k e
            up := { s.up with ctx := { s.up.ctx with mode := some .standIn, segment := none, hold := none }
                              out := ⟨none, some f⟩ } }.conclude))
    (s.up.ctx.downOpen = none → s.up.ctx.segment = some k → answered { s.engine k with request := none }) ∧
    ∀ x, s.up.ctx.downOpen = some k → s.onBus k x → x.isForward = true → x.phase ≠ .closing →
      let step := match x.step with | .waitUp | .hold _ | .nak => .stop | other => other
      answered { s.engine k with
        tx := some { x with phase := .closing, step := step, reason := some .onRequest } }

/-! ### Transactions on the segment buses -/

/-- R36, R45, R60, R8: a target's answer to an address. A forward's acknowledge takes the used claim and opens the
data phase, its NAK brings the stop, and UP gives either to the master it still relays for; a delivery goes on to
its first byte or to its stop. The clock has risen, which stops the stall timer (R65). The fetch of a read's first byte
in this event (log entry 6), the steps of a delivery (log entry 9) and the phase of a stop nobody asked for (log entry
31) are the model's choices. -/
def Obligations.TargetAddressAnswerIsRelayed : Prop :=
  ∀ (k : Seg) (ack : Bool) (s u : State) (x : Tx), s.inReset = false → s.onBus k x → x.step = .address →
    let moved := fun (m : State) (y : Tx) => { m with
      eng := m.eng.set k { m.engine k with tx := some y, stall := none } }
    let answers := fun m => exec (.targetAddressAnswer k ack) s = .next (State.conclude m)
    (x.isForward = true →
      (x.slot = none ∧ u = s) ∨ (∃ i r, x.slot = some i ∧ s.recAt i = some r ∧
        u = { s with dir := { s.dir with
          slots := s.dir.slots.set i.val (some { r with used := if r.state = .bound then true else r.used }) } }) →
      (x.phase = .closing → ack = true → answers (moved u { x with step := .stop })) ∧
      (x.phase = .closing → ack = false →
        answers (moved s { x with step := .stop, reason := some .addressNak })) ∧
      (x.phase ≠ .closing → ack = true →
        (¬Relays s k → answers (moved u { x with phase := .data, step := .waitUp })) ∧
        (Relays s k → x.dir = .write →
          answers { (moved u { x with phase := .data, step := .waitUp }) with up := { s.up with
            ctx := { s.up.ctx with phase := .write, hold := none }, out := ⟨some true, none⟩ } }) ∧
        (Relays s k → x.dir = .read →
          answers { (moved u { x with phase := .data, step := .fetch }) with up := { s.up with
            ctx := { s.up.ctx with phase := .read, hold := some ⟨s.up.holdLimit, 0⟩ }, out := ⟨some true, none⟩ } })) ∧
      (x.phase ≠ .closing → ack = false →
        let stopped := moved s { x with phase := .closing, step := .stop, reason := some .addressNak }
        (¬Relays s k → answers stopped) ∧
        (Relays s k → answers { stopped with up := { s.up with
          ctx := .unaddressed (some k), out := ⟨some false, none⟩ } }))) ∧
    (∀ e rest, x.kind = .delivery → (s.poolSeg k).queue = e :: rest →
      (ack = false → answers (moved s { x with phase := .closing, step := .stop, reason := some .addressNak })) ∧
      (ack = true → e.data = [] →
        answers (moved s { x with phase := .closing, step := .stop, carried := 0, reason := some .complete })) ∧
      (∀ b bs, ack = true → e.data = b :: bs →
        answers (moved s { x with phase := .data, step := .send b, carried := 0 })))

/-- R37, R38, R46, R60: a target's answer to a written byte, and a byte read from it, each given upstream while UP
relays the transaction; in CLOSING the stop follows instead. The clock has risen, which stops the stall timer (R65). The
steps of a delivery (log entry 9), which bytes count as carried (log entry 30) and the phase of a stop nobody asked for
(log entry 31) are the model's choices. -/
def Obligations.TargetBytesAreRelayed : Prop :=
  ∀ (k : Seg) (s : State) (x : Tx), s.inReset = false → s.onBus k x →
    let moved := fun (y : Tx) => { s with eng := s.eng.set k { s.engine k with tx := some y, stall := none } }
    (∀ b ack, x.step = .send b →
      let answers := fun m => exec (.targetByteAnswer k ack) s = .next (State.conclude m)
      (x.isForward = true →
        (x.phase = .closing → answers
          (moved { x with step := .stop, carried := if ack then x.carried + 1 else x.carried })) ∧
        (x.phase ≠ .closing → ack = true →
          let taken := moved { x with step := .waitUp, carried := x.carried + 1 }
          (¬Relays s k → answers taken) ∧
          (Relays s k → answers { taken with up := { s.up with ctx := { s.up.ctx with hold := none },
                                                                 out := ⟨some true, none⟩ } })) ∧
        (x.phase ≠ .closing → ack = false →
          let stopped := moved { x with phase := .closing, step := .stop, reason := some .dataNak }
          (¬Relays s k → answers stopped) ∧
          (Relays s k → answers { stopped with up := { s.up with ctx := .unaddressed (some k),
                                                                 out := ⟨some false, none⟩ } }))) ∧
      (∀ e rest, x.kind = .delivery → (s.poolSeg k).queue = e :: rest →
        (ack = false → answers (moved { x with phase := .closing, step := .stop, reason := some .dataNak })) ∧
        (ack = true → e.data.length ≤ x.carried + 1 → answers (moved
          { x with phase := .closing, step := .stop, carried := x.carried + 1, reason := some .complete })) ∧
        (∀ next, ack = true → e.data[x.carried + 1]? = some next → answers (moved
          { x with phase := .data, step := .send next, carried := x.carried + 1 })))) ∧
    ∀ b : Byte, x.step = .fetch → x.isForward = true →
      let answers := fun m => exec (.readByteArrives k b) s = .next (State.conclude m)
      (x.phase = .closing → answers (moved { x with step := .stop })) ∧
      (x.phase ≠ .closing → ¬Relays s k → answers (moved { x with step := .hold b })) ∧
      (x.phase ≠ .closing → Relays s k → answers { (moved { x with step := .hold b }) with
        up := { s.up with ctx := { s.up.ctx with hold := none }, out := ⟨none, some b⟩ } })

/-- R63, R18, R39, R58: the end of a forward or catch-all transaction: the marker is cleared, an address NAK is charged,
which may quarantine the record and purge its entries (R11, R88), the bus is free and downstream open becomes no. A slot
that becomes FREE with it ends the RETIREs that wait on it (R24, R141). A request that waits is withdrawn when its
record leaves BOUND or the engine enters PAUSED (R42). That the end is read from the transaction (log entry 9) and that
a held absence expiry is judged again (log entry 12) are the model's choices. -/
def Obligations.ForwardEnds : Prop :=
  ∀ (k : Seg) (low : LowLines) (s : State) (x : Tx), s.inReset = false → s.onBus k x → x.isForward = true →
    x.phase = .closing → x.step = .stop →
    let closed := { s.up with ctx := { s.up.ctx with
      downOpen := if s.up.ctx.downOpen = some k then none else s.up.ctx.downOpen } }
    let pauses := (s.engine k).pausePending = true
    ∃ m : State, exec (.forwardEnd k low) s = .next (m.settle low) ∧ Released s m k ∧
      (x.slot = none → m.dir = s.dir ∧ m.pool = s.pool ∧ m.au = s.au ∧ m.hm = s.hm ∧ m.mp = s.mp ∧
        (∀ j, j ≠ k → m.engine j = s.engine j) ∧ RequestAfter s closed m k (fun _ => pauses) False) ∧
      ∀ i r, x.slot = some i → s.recAt i = some r → r.segment = k →
        let q := if x.reason = some .addressNak then { r with marker := .none }.charged s.hm.holdOff
          else { r with marker := .none }
        EndFrame s m k i ∧ LeftBehind s m i r q ∧
        (q.state = r.state → m.pool = s.pool) ∧ (q.state ≠ r.state → PurgedOf s m k i) ∧
        (s.WorkLaw → RequestAfter s closed m k (fun w => pauses ∨ LeavesFor i r q w) False)

/-- R82 to R85, R18, R19: the end of a delivery by its outcome: the entry leaves the queue; COMPLETE takes the used
claim, a NAK counts undelivered, and an address NAK is charged too, which may quarantine the record and purge its other
entries (R88). What waited for the end follows: a retirement (R24), with its RETIREs answered (R141), a held absence
expiry (R26), a request withdrawn (R42). Which end fits the answers given so far is the model's check (log entry 9), the
charge of an entry that FLUSH marked is read from R18 and R105 (log entry 32), and that a held expiry is judged again,
class and protection included, is read from R26 (log entry 12). -/
def Obligations.DeliveryEnds : Prop :=
  ∀ (k : Seg) (o : DeliveryEnd) (low : LowLines) (s : State) (x : Tx) (e : Entry) (rest : List Entry) (r : Record),
    s.inReset = false → s.onBus k x → x.kind = .delivery → (s.poolSeg k).queue = e :: rest →
    s.recAt e.slot = some r → r.segment = k → deliveryFits x e o = true →
    let ended := { r with marker := .none }
    let q := match o with
      | .complete => { ended with used := if r.state = .bound then true else r.used }
      | .dataNak => ended.oneLost
      | .addressNak => ended.oneLost.charged s.hm.holdOff
    ∃ m : State, exec (.deliveryEnd k o low) s = .next (m.settle low) ∧ Released s m k ∧ EndFrame s m k e.slot ∧
      LeftBehind s m e.slot r q ∧ (m.poolSeg k).purgeMark = false ∧
      (m.poolSeg k).queue = (if q.state = r.state then rest else rest.filter fun f => f.slot != e.slot) ∧
      (o ≠ .complete → r.undelivered < 255 → m.au.changed[e.slot.val] = true) ∧
      (s.WorkLaw → RequestAfter s s.up m k
        (fun w => (s.engine k).pausePending = true ∨ LeavesFor e.slot r q w) False)

/-- R17, R97, R99, R144, R187: the end of a probe of a record. Its outcome is applied by R17's table while the slot
still holds that record at that pair, and answers the PROBEs whose note it carries; else nothing is applied, and a slot
that becomes FREE answers them RETIRED (R145); on a slot that is FREE the end changes nothing. What waited for the end
follows (R24, R26, R42), a waiting PAUSE with it (R73, R146). The two flags of the probe (log entry 13), where a PROBE's
note stands (log entry 14) and that a held absence expiry is judged again (log entry 12) are the model's. -/
def Obligations.ProbeEnds : Prop :=
  ∀ (k : Seg) (answer : ProbeAnswer) (low : LowLines) (s : State) (x : Tx) (i : Slot),
    s.inReset = false → s.onBus k x → x.isProbe = true → x.slot = some i →
    let pauses := (s.engine k).pausePending = true
    let byte := match answer with
      | .answered b => if x.kind = .identityProbe then some b else none
      | .notAnswered => none
    ∃ m : State, exec (.probeEnd k answer low) s = .next (m.settle low) ∧ Released s m k ∧
      (s.recAt i = none → ProbeOfFreeSlot s m k pauses) ∧
      ∀ r, s.recAt i = some r → EndFrame s m k i ∧
        let differs := ∃ b v, byte = some b ∧ r.identity = some v ∧ b ≠ v
        (¬ProbeApplies x k r → ProbeDiscarded s m k x i r pauses) ∧
        ∀ o, ProbeApplies x k r → (o = .notPresent ↔ answer = .notAnswered) →
          (o = .mismatch ↔ r.frozen = true ∧ differs) → ProbeApplied s m k x i r o byte pauses

/-- R119, R121, R122, R124, R16: the end of a discovery probe: the address is finished, a device found is KNOWN, a
COLLISION, a record in the lowest-numbered slot that is FREE and unprotected, or the end with TABLE_FULL; the last
address ends the discovery DONE, and a cancel CANCELLED. A pause pending answers its PAUSE and withdraws a request that
waits (R42, R73). That the count of created records goes on past 48 is the
model's choice (log entry 36). -/
def Obligations.DiscoveryProbeEnds : Prop :=
  ∀ (k : Seg) (found : Bool) (low : LowLines) (s : State) (x : Tx) (d : Discovery),
    s.inReset = false → s.onBus k x → x.kind = .discoveryProbe → (s.engine k).discovery = some d →
    let next := if x.target = d.high then none else some (x.target + 1)
    let named := d.base + (x.target - d.low)
    let finished := { d with lastFinished := some x.target, onBus := none, next := next }
    let pairUsed := ∃ j q, s.recAt j = some q ∧ q.segment = k ∧ q.target = x.target
    let aliasUsed := ∃ j q, s.recAt j = some q ∧ q.aliasAddr = named
    let usable := fun j => s.recAt j = none ∧ s.isProtected j = false
    ∃ m : State, exec (.discoveryProbeEnd k found low) s = .next (m.settle low) ∧ Released s m k ∧ m.pool = s.pool ∧
      m.hm = s.hm ∧ m.mp = s.mp ∧ m.pu = s.pu ∧ (∀ j, j ≠ k → m.engine j = s.engine j) ∧
      (m.engine k).probeQueue = (s.engine k).probeQueue ∧
      RequestAfter s s.up m k (fun _ => (s.engine k).pausePending = true) False ∧
      let goesOn := DiscoveryGoesOn s m k
      (found = false → m.dir = s.dir ∧ m.au = s.au ∧ goesOn finished) ∧
      (found = true → pairUsed → m.dir = s.dir ∧ m.au = s.au ∧
        goesOn { finished with found := d.found + 1, known := d.known + 1 }) ∧
      (found = true → ¬pairUsed → aliasUsed → m.dir = s.dir ∧ m.au = s.au ∧
        goesOn { finished with found := d.found + 1, collisions := d.collisions + 1 }) ∧
      (found = true → ¬pairUsed → ¬aliasUsed → (∀ j, ¬usable j) → m.dir = s.dir ∧ m.au = s.au ∧
        DiscoveryEnded s m k { finished with found := d.found + 1 } .tableFull) ∧
      ∀ i, found = true → ¬pairUsed → ¬aliasUsed → usable i → (∀ j, j < i → ¬usable j) →
        m.dir = {
          slots := s.dir.slots.set i.val (some {
            state := .bound, aliasAddr := named, segment := k, target := x.target, cls := .dynamic,
            origin := .discovery, policy := .refuse, fill := 0xFF, posting := false, probeReg := none, identity := none,
            frozen := false, errorCount := 0, threshold := 8, cause := none, reprobeFailures := 0, holdOff := 0,
            absenceAge := 0, undelivered := 0, used := false, marker := .none, expiryHeld := false })
          aliasIndex := s.dir.aliasIndex.set named.toNat (some i) named.isLt } ∧
        m.au = { s.au with changed := s.au.changed.set i.val true } ∧
        goesOn { finished with found := d.found + 1, created := d.created + 1 }

/-- R65, R59: the stall timer of a segment starts, on the limit in force, when its engine finds held low a clock that it
has released, and never in a hold of the engine's own; the clock's rise stops it; a stopped timer does not expire. R47,
R84, R97, R121: its expiry, a stall, ends the transaction by its kind and the engine enters RECOVERING. A probe ends
NOT_PRESENT, which is applied or discarded as at any end of a probe (R17, R144, R145), and a discovery probe's address
is finished as not found, which may end the discovery (R124, R125). In a closing left by a restart it gives up the
closing (R76). UP answers the master it still relays for (R47); a request that waits is withdrawn only when its record
leaves BOUND (R42). That STALL's operand names R65's event, and that the engine's own hold follows the NAK's bit at that
rise (log entry 7), that a stall of such a closing acts as CLOSING_END (log entry 27), that a held absence expiry is
judged again (log entry 12), that UP drives nothing where it holds no clock (log entry 11), the two flags of a probe (log
entry 13) and where a PROBE's note stands (log entry 14) are the model's choices. The charge of an entry that a FLUSH
marked, on a record still BOUND, is read from R18 and R105, against R84's words that the charge of a marked entry is
discarded (log entry 32). -/
def Obligations.StallEndsTheTransaction : Prop :=
  ∀ (k : Seg) (low : LowLines) (s : State) (x : Tx), s.inReset = false →
    let released := x.step ≠ .waitUp ∧ ∀ b, x.step ≠ .hold b
    ((s.engine k).tx = some x →
      (released → (s.engine k).stall = none → exec (.stall k .heldLow) s =
        .next { s with eng := s.eng.set k { s.engine k with stall := some ⟨s.stallLimit, 0⟩ } }) ∧
      (¬released ∨ (s.engine k).stall ≠ none → exec (.stall k .heldLow) s = .next s) ∧
      exec (.stall k .rises) s = .next { s with eng := s.eng.set k { s.engine k with
        tx := some { x with step := match x.step with | .nak => .waitUp | other => other }, stall := none } } ∧
      ((s.engine k).stall = none → exec (.stall k (.expires low)) s = .next s) ∧
      (x.silent = true → (s.engine k).stall ≠ none →
        exec (.stall k (.expires low)) s = exec (.closingEnd k low) s)) ∧
    ((s.engine k).tx = none → exec (.stall k .heldLow) s = .next s ∧ exec (.stall k (.expires low)) s = .next s ∧
      exec (.stall k .rises) s = .next { s with eng := s.eng.set k { s.engine k with stall := none } }) ∧
    (s.onBus k x → (s.engine k).stall ≠ none →
      let relayed := x.isForward = true ∧ x.phase ≠ .closing ∧ Relays s k
      let closed := { s.up with ctx := { s.up.ctx with
        downOpen := if s.up.ctx.downOpen = some k then none else s.up.ctx.downOpen } }
      ∃ m : State, exec (.stall k (.expires low)) s = .next m.conclude ∧ Recovers s m k ∧
        (x.kind = .catchAll → x.slot = none → m.dir = s.dir ∧ m.pool = s.pool ∧
          (¬relayed → RequestAfter s closed m k (fun _ => False) False)) ∧
        (relayed → s.WorkLaw → (s.engine k).request = none →
          s.up.ctx.hold ≠ none →
          (s.up.ctx.phase ≠ .read → m.up = { s.up with ctx := .unaddressed none, out := ⟨some false, none⟩ }) ∧
          ∀ f, s.up.ctx.phase = .read → (∃ p, s.up.ctx.answer = some ⟨p, f⟩) ∨ (s.up.ctx.answer = none ∧ f = 0xFF) →
            m.up = { s.up with ctx := { s.up.ctx with mode := some .standIn, segment := none, hold := none,
                                                      downOpen := none }, out := ⟨none, some f⟩ }) ∧
        (relayed → s.WorkLaw → (s.engine k).request = none → s.up.ctx.hold = none → s.up.ctx.phase = .read →
          m.up = { s.up with ctx := { s.up.ctx with mode := some .standIn, segment := none, downOpen := none } }) ∧
        (∀ d, x.kind = .discoveryProbe → (s.engine k).discovery = some d → m.dir = s.dir ∧ m.pool = s.pool ∧
          m.up = s.up ∧ m.au = s.au ∧ (m.engine k).request = (s.engine k).request ∧
          (m.engine k).probeQueue = (s.engine k).probeQueue ∧ DiscoveryGoesOn s m k { d with
            lastFinished := some x.target, onBus := none
            next := if x.target = d.high then none else some (x.target + 1) }) ∧
        (∀ i, x.isProbe = true → x.slot = some i →
          (s.recAt i = none → ProbeOfFreeSlot s m k False) ∧
          ∀ r, s.recAt i = some r → EndFrame s m k i ∧
            (¬ProbeApplies x k r → ProbeDiscarded s m k x i r False) ∧
            (ProbeApplies x k r → ProbeApplied s m k x i r .notPresent none False)) ∧
        ∀ i r, x.slot = some i → s.recAt i = some r → r.segment = k →
          let ended := { r with marker := .none }
          let left := fun q : Record => LeftBehind s m i r q ∧ (s.WorkLaw → ¬relayed →
            RequestAfter s (if x.isForward then closed else s.up) m k (LeavesFor i r q) False)
          (x.kind = .forward →
            let q := ended.charged s.hm.holdOff
            EndFrame s m k i ∧ left q ∧ (q.state = r.state → m.pool = s.pool) ∧
            (q.state ≠ r.state → PurgedOf s m k i)) ∧
          (∀ e rest, x.kind = .delivery → (s.poolSeg k).queue = e :: rest →
            let q := ended.oneLost.charged s.hm.holdOff
            EndFrame s m k i ∧ left q ∧ (m.poolSeg k).purgeMark = false ∧
            (m.poolSeg k).queue = (if q.state = r.state then rest else rest.filter fun f => f.slot != i)))

/-- R66 to R68, R47, R86, R121: a fault during a transaction cuts it without a charge, and the engine enters
RECOVERING: a forward is answered upstream, an entry goes back once, a probed slot goes back to the front of its
queue with the notes of the PROBEs that wait on it (R143), unless its record was rebound away or the slot is FREE, and a
discovery address stays the next, unless a cancel was noted, which ends the discovery CANCELLED (R124, R125). A request
that waits goes on waiting. That a fault may meet a closing
left by a restart (log entry 10), that a held absence expiry is judged again (log entry 12), that UP drives nothing
where it holds no clock (log entry 11), the two flags of a probe (log entry 13) and where a PROBE's note stands (log
entry 14) are the model's choices. -/
def Obligations.BusFaultCutsTheTransaction : Prop :=
  ∀ (k : Seg) (s : State) (x : Tx), s.inReset = false → (s.engine k).tx = some x →
    let relayed := x.isForward = true ∧ x.phase ≠ .closing ∧ Relays s k
    let closed := { s.up with ctx := { s.up.ctx with
      downOpen := if s.up.ctx.downOpen = some k then none else s.up.ctx.downOpen } }
    ∃ m : State, exec (.busFault k) s = .next m.conclude ∧ Recovers s m k ∧
      (x.silent = true → m.dir = s.dir ∧ m.pool = s.pool ∧ m.up = s.up ∧ m.dc = s.dc) ∧
      (x.silent = false →
        (s.WorkLaw → (m.engine k).request = (s.engine k).request) ∧
        (x.kind = .catchAll → x.slot = none → m.dir = s.dir ∧ m.pool = s.pool ∧ (¬relayed → m.up = closed)) ∧
        (relayed → s.WorkLaw → s.up.ctx.hold ≠ none →
          (s.up.ctx.phase ≠ .read → m.up = { s.up with ctx := .unaddressed none, out := ⟨some false, none⟩ }) ∧
          ∀ f, s.up.ctx.phase = .read → (∃ p, s.up.ctx.answer = some ⟨p, f⟩) ∨ (s.up.ctx.answer = none ∧ f = 0xFF) →
            m.up = { s.up with ctx := { s.up.ctx with mode := some .standIn, segment := none, hold := none,
                                                      downOpen := none }, out := ⟨none, some f⟩ }) ∧
        (relayed → s.WorkLaw → s.up.ctx.hold = none →
          (s.up.ctx.phase = .write → m.up = { s.up with ctx := .unaddressed none }) ∧
          (s.up.ctx.phase = .read →
            m.up = { s.up with ctx := { s.up.ctx with mode := some .standIn, segment := none, downOpen := none } })) ∧
        (s.WorkLaw → x.isForward = false → m.up = s.up) ∧
        (∀ d, x.kind = .discoveryProbe → (s.engine k).discovery = some d → m.dir = s.dir ∧ m.pool = s.pool ∧
          (d.cancelRequested = false → (m.engine k).discovery = some { d with onBus := none } ∧ m.dc = s.dc) ∧
          (d.cancelRequested = true → DiscoveryEnded s m k d .cancelled)) ∧
        (∀ i, x.isProbe = true → x.slot = some i →
          (s.recAt i = none → ProbeOfFreeSlot s m k False) ∧ ∀ r, s.recAt i = some r → ProbeCut s m k x i r) ∧
        ∀ i r, x.slot = some i → s.recAt i = some r → r.segment = k →
          let ended := { r with marker := .none }
          (x.kind = .forward → EndFrame s m k i ∧ LeftBehind s m i r ended ∧ m.pool = s.pool ∧
            (s.WorkLaw → ¬relayed → m.up = closed)) ∧
          (∀ e rest, x.kind = .delivery → (s.poolSeg k).queue = e :: rest →
            EndFrame s m k i ∧
            (e.retried = false → (s.poolSeg k).purgeMark = false → LeftBehind s m i r ended ∧
              (m.poolSeg k).queue = { e with retried := true } :: rest) ∧
            (e.retried = true ∨ (s.poolSeg k).purgeMark = true → LeftBehind s m i r ended.oneLost ∧
              (m.poolSeg k).queue = rest ∧ (m.poolSeg k).purgeMark = false)))

/-- R54, R58, R66, R8, R36: what the arbiter of an IDLE engine does at the end of an event: a forward whose record has
no entry queued, then the head entry, then the first slot of the probe queue whose record is not RETIRING, then the
discovery's next address. The record's in-flight marker is set, UP's downstream open becomes yes, and a PROBE's note
goes with the probe (R143). A window address that a record holds is passed over as KNOWN, and a window passed to its end
ends the discovery DONE (R57, R120, R125). A line found low at the start puts the engine in RECOVERING and leaves the
work where it stood. -/
def Obligations.ArbiterOrder : Prop :=
  ∀ (m : State) (low : LowLines) (k : Seg), (m.engine k).state = .idle →
    let starts := fun (x : Tx) => k ∉ low → ((m.settle low).engine k).state = .active ∧
      ((m.settle low).engine k).tx = some x ∧ ((m.settle low).engine k).busRate = (m.engine k).rate ∧
      ((m.settle low).engine k).discovery = (m.engine k).discovery
    let marks := fun (i : Slot) (mark : Marker) => k ∉ low → m.WorkLaw →
      ∀ r, m.recAt i = some r → (m.settle low).recAt i = some { r with marker := mark }
    let recovering := fun (d : Option Discovery) =>
      { m.engine k with state := .recovering, tx := none, stall := none, attemptCount := 0, attempt := none,
                        busRate := (m.engine k).rate, discovery := d }
    let faults := k ∈ low → (m.settle low).engine k = recovering (m.engine k).discovery
    let fresh := fun kind slot target dir reg owns => ({
      kind := kind, slot := slot, target := target, dir := dir, phase := .address, carried := 0, step := .address,
      register := reg, reason := none, ownsMarker := owns, sameRecord := true, silent := false } : Tx)
    let ready := fun q : FwdRequest => (m.engine k).request = some q ∧
      ∀ i, q.slot = some i → ∀ e ∈ (m.poolSeg k).queue, e.slot ≠ i
    let known := fun t : Nat => ∃ j r, m.recAt j = some r ∧ r.segment = k ∧ r.target.toNat = t
    (∀ q, ready q → faults ∧
      (k ∉ low → ((m.settle low).engine k).request = none) ∧
      (k ∉ low → (∀ j, j ≠ k → (m.engine j).request = none) →
        (m.settle low).up = { m.up with ctx := { m.up.ctx with downOpen := some k } }) ∧
      (∀ i, q.slot = some i → starts (fresh .forward (some i) q.target q.dir none true) ∧ marks i .forward) ∧
      (q.slot = none → starts (fresh .catchAll none q.target q.dir none false))) ∧
    (∀ e rest r, (∀ q, ¬ready q) → (m.poolSeg k).queue = e :: rest → m.recAt e.slot = some r → faults ∧
      starts (fresh .delivery (some e.slot) r.target .write none true) ∧ marks e.slot .delivery ∧
      (m.settle low).pool = m.pool) ∧
    (∀ before i after r, (∀ q, ¬ready q) → (m.poolSeg k).queue = [] →
      (m.engine k).probeQueue = before ++ i :: after → i ∉ before →
      (∀ j ∈ before, ∀ q, m.recAt j = some q → q.state = .retiring) →
      m.recAt i = some r → r.state ≠ .retiring → faults ∧
      (k ∉ low → ((m.settle low).engine k).probeQueue = before ++ after) ∧ marks i .probe ∧
      (k ∉ low → ∀ op ∈ m.dc.ops, op.work = .probe i false → op.answer = none →
        { op with work := .probe i true } ∈ (m.settle low).dc.ops) ∧
      (r.probeReg = none → starts (fresh .quickProbe (some i) r.target .write none true)) ∧
      (∀ reg, r.probeReg = some reg → starts (fresh .identityProbe (some i) r.target .write (some reg) true))) ∧
    ∀ d t, (∀ q, ¬ready q) → (m.poolSeg k).queue = [] →
      (∀ j ∈ (m.engine k).probeQueue, ∀ q, m.recAt j = some q → q.state = .retiring) →
      (m.engine k).discovery = some d → d.next = some t → t.toNat ≤ d.high.toNat →
      (∀ n, t.toNat + n ≤ d.high.toNat → (∀ v, v < n → known (t.toNat + v)) → ¬known (t.toNat + n) →
        let here : Addr := BitVec.ofNat 7 (t.toNat + n)
        let passed := { d with
          known := d.known + n, next := some here, lastFinished := if n = 0 then d.lastFinished else some (here - 1) }
        (k ∈ low → (m.settle low).engine k = recovering (some passed)) ∧
        (k ∉ low → ((m.settle low).engine k).state = .active ∧
          ((m.settle low).engine k).tx = some (fresh .discoveryProbe none here .write none false) ∧
          ((m.settle low).engine k).busRate = (m.engine k).rate ∧
          ((m.settle low).engine k).discovery = some { passed with onBus := some here })) ∧
      ((∀ v, t.toNat ≤ v → v ≤ d.high.toNat → known v) →
        (m.settle low).engine k = { m.engine k with discovery := none } ∧
        ∀ op ∈ m.dc.ops, op.work = .discover k → op.answer = none →
          ⟨.discover, op.tag, .done, [oneByte d.found, oneByte d.created,
            oneByte (d.known + (d.high.toNat - t.toNat + 1)), oneByte d.collisions, d.high.zeroExtend 8]⟩
              ∈ (m.settle low).mp.responses)

/-- R54's law: a forward starts downstream only when its segment's posted queue holds no entry of its record. -/
def Obligations.ForwardsFollowTheQueue : Prop :=
  ∀ (c : Instr) (s t : State) (k : Seg) (x : Tx) (i : Slot), exec c s = .next t → t.onBus k x → x.kind = .forward →
    x.slot = some i → (∀ y, (s.engine k).tx = some y → ¬(y.kind = .forward ∧ y.slot = some i)) →
    ∀ e ∈ (t.poolSeg k).queue, e.slot ≠ i

/-! ### Recovery and timers -/

/-- R69 to R71, R76, R96: the end of a recovery attempt, the wait between two attempts, and the end of a closing
left by a restart. At PAUSED and FAILED a request that waits is withdrawn (R42); at FAILED the waiting PAUSE, RESUME,
DISCOVER and PROBEs of the segment are answered SEGMENT_FAULT (R71, R98, R145), every entry of the segment counts
undelivered on its record, and a RETIRING record left owing nothing is FREE, with its RETIREs answered (R19, R24, R89).
The rate kept for the attempt is log entry 22's field, the order in which probes are asked for in one event is log entry
33, and that the arbiter chooses after them, ahead of a discovery that waited, is log entry 37. -/
def Obligations.RecoveryAttemptsEnd : Prop :=
  ∀ (k : Seg) (low : LowLines) (s : State),
    let e := s.engine k
    let freed := { s with
      eng := s.eng.set k { e with attemptCount := 0, attempt := none, state := .idle }
      au := { s.au with faults := s.au.faults.set k { s.au.faults.get k with recovered := true } } }
    (e.state = .recovering → e.attempt = none →
      (e.pausePending = false → e.resumeWaiting = false →
        exec (.recoveryAttemptSucceeds k low) s = .next (freed.settle low)) ∧
      (e.pausePending = true → ∃ m : State, exec (.recoveryAttemptSucceeds k low) s = .next (m.settle low) ∧
        m.engine k = { e with attemptCount := 0, attempt := none, state := .paused, pausePending := false, tx := none,
                              stall := none, request := none } ∧
        (∀ j, j ≠ k → m.engine j = s.engine j) ∧ m.au = freed.au ∧ m.dir = s.dir ∧ m.pool = s.pool ∧
        RequestAfter s s.up m k (fun _ => True) False ∧
        Answered s m (fun w => w = .pause k) fun op => ⟨.pause, op.tag, .done, []⟩) ∧
      (e.pausePending = false → e.resumeWaiting = true → ∃ m : State, exec (.recoveryAttemptSucceeds k low) s = .next (m.settle low) ∧
        m.engine k = { e with attemptCount := 0, attempt := none, state := .idle, resumeWaiting := false,
                              probeQueue := (m.engine k).probeQueue } ∧
        (∃ more, (m.engine k).probeQueue = e.probeQueue ++ more ∧ more.Pairwise (· < ·) ∧ ∀ i, i ∈ more ↔
          i ∉ e.probeQueue ∧ ∃ r, s.recAt i = some r ∧ r.state = .pending ∧ r.segment = k) ∧
        (∀ j, j ≠ k → m.engine j = s.engine j) ∧ m.au = freed.au ∧ m.dir = s.dir ∧ m.pool = s.pool ∧
        m.up = s.up ∧
        Answered s m (fun w => w = .resume k) fun op => ⟨.resume, op.tag, .done, []⟩) ∧
      (e.attemptCount < 2 → exec (.recoveryAttemptFails k) s = .next (
        { s with eng := s.eng.set k { e with attemptCount := e.attemptCount + 1, attempt := some ⟨10, 0⟩ } }.conclude)) ∧
      (2 ≤ e.attemptCount → e.tx = none → ∃ m : State, exec (.recoveryAttemptFails k) s = .next m.conclude ∧
        m.engine k = { e with state := .failed, attemptCount := e.attemptCount + 1, pausePending := false,
                              resumeWaiting := false, stall := none, request := none, probeQueue := [],
                              discovery := none } ∧
        (m.poolSeg k).queue = [] ∧ (∀ j, j ≠ k → m.poolSeg j = s.poolSeg j) ∧
        m.au.faults = s.au.faults.set k { s.au.faults.get k with failed := true } ∧ m.hm = s.hm ∧ m.pu = s.pu ∧
        (s.WorkLaw → RequestAfter s s.up m k (fun _ => True) False) ∧
        Answered s m (fun w => w = .pause k) (fun op => ⟨.pause, op.tag, .segmentFault, []⟩) ∧
        Answered s m (fun w => w = .resume k) (fun op => ⟨.resume, op.tag, .segmentFault, []⟩) ∧
        (∀ d, e.discovery = some d → Answered s m (fun w => w = .discover k) fun op =>
          ⟨.discover, op.tag, .segmentFault, [oneByte d.found, oneByte d.created, oneByte d.known,
            oneByte d.collisions, match d.lastFinished with | some a => a.zeroExtend 8 | none => 0xFF]⟩) ∧
        (∀ i, i ∈ e.probeQueue → (∀ r, s.recAt i = some r → r.state ≠ .retiring) →
          Answered s m (fun w => w = .probe i false) fun op => ⟨.probe, op.tag, .segmentFault, []⟩) ∧
        ∀ i, (s.recAt i = none → m.recAt i = none) ∧ ∀ r, s.recAt i = some r → LeftByPurge s m k i r { r with
          holdOff := if r.state = RecState.quarantined ∧ i ∈ e.probeQueue then s.hm.holdOff else r.holdOff })) ∧
    (e.state = .recovering → e.attempt ≠ none → exec (.attemptTimerExpiry k) s =
      .next { s with eng := s.eng.set k { e with attempt := none, busRate := e.rate } }) ∧
    ∀ x, e.tx = some x → x.silent = true → ∃ m : State, exec (.closingEnd k low) s = .next (m.settle low) ∧ Released s m k ∧
      m.dir = s.dir ∧ m.pool = s.pool ∧ m.au = s.au ∧ m.hm = s.hm ∧ m.mp = s.mp ∧
      (∀ j, j ≠ k → m.engine j = s.engine j) ∧ RequestAfter s s.up m k (fun _ => e.pausePending = true) False

/-- R101, R112, R107: the survey probes every ABSENT record and every BOUND one whose used flag is clear on the
segments in service, clears every used flag and starts again; a 100 ms step counts down the hold-offs of QUARANTINED
records there and asks for a reprobe at 0; a second counts the ages of ABSENT records there while the restart notice
is clear, and at the lifetime expires those that are DYNAMIC and unprotected (R26), whose waiting PROBEs are answered
RETIRED (R145). The ascending order of the probes of one event is the model's choice (log entry 33). -/
def Obligations.HealthTimersExpire : Prop :=
  ∀ (low : LowLines) (s : State), s.inReset = false →
    let serves := fun k => (s.engine k).state ≠ .paused ∧ (s.engine k).state ≠ .failed
    let joins := fun (m : State) (p : Slot → Record → Prop) => ∀ k, ∃ more,
      m.engine k = { s.engine k with probeQueue := (s.engine k).probeQueue ++ more } ∧ more.Pairwise (· < ·) ∧
      ∀ i, i ∈ more ↔ i ∉ (s.engine k).probeQueue ∧ ∃ r, s.recAt i = some r ∧ r.segment = k ∧ serves k ∧ p i r
    (∃ m : State, exec (.surveyTimerExpiry low) s = .next (m.settle low) ∧
      joins m (fun _ r => r.state = .absent ∨ (r.state = .bound ∧ r.used = false)) ∧
      (∀ i, m.recAt i = (s.recAt i).map fun r => { r with used := false }) ∧
      m.hm = { s.hm with surveyLeft := if s.hm.cadence = .active then s.hm.activePeriod * 100
                                       else s.hm.relaxedPeriod * 1000 } ∧
      m = { s with eng := m.eng, dir := { s.dir with slots := m.dir.slots }, hm := m.hm }) ∧
    (∃ m : State, exec (.stepTimerExpiry low) s = .next (m.settle low) ∧
      joins m (fun _ r => r.state = .quarantined ∧ r.holdOff = 1) ∧
      (∀ i, m.recAt i = (s.recAt i).map fun r =>
        if r.state = .quarantined ∧ serves r.segment then { r with holdOff := r.holdOff - 1 } else r) ∧
      m = { s with eng := m.eng, dir := { s.dir with slots := m.dir.slots }, hm := { s.hm with stepRun := 0 } }) ∧
    ∃ m : State, exec .secondTimerExpiry s = .next m.conclude ∧ m.hm = { s.hm with secondRun := 0 } ∧ m.pool = s.pool ∧
      m.mp = s.mp ∧ m.pu = s.pu ∧ m.stallLimit = s.stallLimit ∧
      ∀ i, (s.recAt i = none → m.recAt i = none) ∧ ∀ r, s.recAt i = some r →
        let age := if r.absenceAge < 65535 then r.absenceAge + 1 else 65535
        let counted := r.state = .absent ∧ serves r.segment ∧ s.mp.notice = false
        let expires := counted ∧ s.hm.lifetime ≠ 0 ∧ s.hm.lifetime ≤ age ∧ r.cls = .dynamic ∧ s.isProtected i = false
        (¬counted → m.recAt i = some r) ∧
        (counted → ¬expires → m.recAt i = some { r with absenceAge := age }) ∧
        (expires → r.marker ≠ .none → m.recAt i = some { r with absenceAge := age, expiryHeld := true }) ∧
        (expires → r.marker = .none → m.recAt i = none ∧ m.au.changed[i.val] = true ∧
          (∀ k, i ∉ (m.engine k).probeQueue) ∧
          Answered s m (fun w => ∃ b, w = .probe i b) fun op => ⟨.probe, op.tag, .retired, []⟩)

/-- R103: when the idle timer expires, the cadence becomes RELAXED and the timer stops; nothing else changes. -/
def Obligations.IdleTimerRelaxesCadence : Prop :=
  ∀ s : State, s.inReset = false → s.hm.idleLeft ≠ none →
    exec .idleTimerExpiry s = .next { s with hm := { s.hm with cadence := .relaxed, idleLeft := none } }

/-! ### Laws every step keeps -/

/-- R4 to R8, R17: the ranges and laws of every record's fields. -/
def Obligations.RecordsLawfulKept : Prop :=
  ∀ s t : State, s.RecordsLawful → step s = .next t → t.RecordsLawful

/-- R13: aliases are unique, pairs of segment and target are unique, and the alias index names each record once. -/
def Obligations.DirectoryLawsKept : Prop :=
  ∀ s t : State, s.Unique → s.IndexLaw → step s = .next t → t.Unique ∧ t.IndexLaw

/-- R77, R48: no segment's use exceeds its share, the shares fit the pool, and 16 bytes at most are staged. -/
def Obligations.PoolLawKept : Prop :=
  ∀ s t : State, s.PoolLaw → step s = .next t → t.PoolLaw

/-- R167, R132: the outstanding count is what is queued, taken and answered, at most 8, and every answer an event
gives leaves in that event. R52, R146: the flags of an engine follow the PAUSE or RESUME that waits on it, in any state
where the engines that have a transaction are the ACTIVE ones (R53, WorkLawsKept). R65, R59: no stall timer runs
without a transaction on the bus, or in a hold of the engine's own. -/
def Obligations.CommandLawsKept : Prop :=
  ∀ s t : State, s.NoAnswerHeld → step s = .next t →
    t.NoAnswerHeld ∧ (s.OutstandingLaw → t.OutstandingLaw) ∧ (s.TxLaw → s.FlagsLaw → t.FlagsLaw) ∧
    (s.StallLaw → t.StallLaw)

/-- R178, R180, R174: after every step the alert lines and ATTN stand as the records, the queue and the sets say. -/
def Obligations.LinesLawKept : Prop :=
  ∀ s t : State, s.LinesLaw → step s = .next t → t.LinesLaw

/-- R8, R53 to R56, R81, R87: transactions, markers, posted entries, requests and probe queues stay tied to the records
they serve, only a CATCH-ALL and a discovery probe name no slot, a probe queue holds each slot once, and an IDLE engine
has nothing left to do. -/
def Obligations.WorkLawsKept : Prop :=
  ∀ s t : State, s.WorkLaw → s.RestLaw → s.ProbeQueuesLaw → step s = .next t →
    t.WorkLaw ∧ t.RestLaw ∧ t.ProbeQueuesLaw

end
end

