-- ==== Sys2Proof/Laws/State.lean ====
section
/-! SUPPORT. Laws/State.lean: what each update of Machine/Ops.lean changes and leaves, one fact for each field, and
reading after writing for slots, engines, pool segments and groups of four. -/

namespace Sys2Proof

/-! ### Groups of four -/

namespace Quad

variable {α β : Type}

theorem get_set (q : Quad α) (k j : Seg) (x : α) : (q.set k x).get j = if j = k then x else q.get j := by
  revert k j
  intro k j
  match k, j with
  | 0, 0 | 0, 1 | 0, 2 | 0, 3 | 1, 0 | 1, 1 | 1, 2 | 1, 3 | 2, 0 | 2, 1 | 2, 2 | 2, 3 | 3, 0 | 3, 1 | 3, 2 | 3, 3 => rfl

@[simp] theorem get_set_self (q : Quad α) (k : Seg) (x : α) : (q.set k x).get k = x := by simp [get_set]

theorem get_set_other (q : Quad α) {k j : Seg} (h : j ≠ k) (x : α) : (q.set k x).get j = q.get j := by
  simp [get_set, h]

@[simp] theorem get_map (q : Quad α) (f : α → β) (k : Seg) : (q.map f).get k = f (q.get k) := by
  match k with
  | 0 | 1 | 2 | 3 => rfl

@[simp] theorem get_fill (x : α) (k : Seg) : (fill x).get k = x := by
  match k with
  | 0 | 1 | 2 | 3 => rfl

@[simp] theorem get_zipWith {γ : Type} (f : α → β → γ) (q : Quad α) (p : Quad β) (k : Seg) :
    (zipWith f q p).get k = f (q.get k) (p.get k) := by
  match k with
  | 0 | 1 | 2 | 3 => rfl

/-- Two groups that agree at each segment are the same. -/
theorem ext_get {q p : Quad α} (h : ∀ k, q.get k = p.get k) : q = p := by
  have h0 := h 0
  have h1 := h 1
  have h2 := h 2
  have h3 := h 3
  cases q; cases p
  simp only [get] at h0 h1 h2 h3
  simp [h0, h1, h2, h3]

@[simp] theorem set_get_self (q : Quad α) (k : Seg) : q.set k (q.get k) = q := by
  match k with
  | 0 | 1 | 2 | 3 => rfl

end Quad

namespace Machine

variable (s : State)

/-! ### Vectors -/

@[simp] theorem getElem_mapEach {α β : Type} {n : Nat} (f : α → β) (v : Vector α n) (i : Nat) (h : i < n) :
    (mapEach f v)[i] = f v[i] := by
  simp [mapEach]

/-! ### One update, one field -/

@[simp] theorem setUp_up (u : UpPort) : (s.setUp u).up = u := rfl
@[simp] theorem setUp_dir (u : UpPort) : (s.setUp u).dir = s.dir := rfl
@[simp] theorem setUp_eng (u : UpPort) : (s.setUp u).eng = s.eng := rfl
@[simp] theorem setUp_stallLimit (u : UpPort) : (s.setUp u).stallLimit = s.stallLimit := rfl
@[simp] theorem setUp_pool (u : UpPort) : (s.setUp u).pool = s.pool := rfl
@[simp] theorem setUp_hm (u : UpPort) : (s.setUp u).hm = s.hm := rfl
@[simp] theorem setUp_dc (u : UpPort) : (s.setUp u).dc = s.dc := rfl
@[simp] theorem setUp_mp (u : UpPort) : (s.setUp u).mp = s.mp := rfl
@[simp] theorem setUp_pu (u : UpPort) : (s.setUp u).pu = s.pu := rfl
@[simp] theorem setUp_au (u : UpPort) : (s.setUp u).au = s.au := rfl
@[simp] theorem setUp_inReset (u : UpPort) : (s.setUp u).inReset = s.inReset := rfl
@[simp] theorem setUp_pending (u : UpPort) : (s.setUp u).pending = s.pending := rfl

@[simp] theorem setDir_up (d : Directory) : (s.setDir d).up = s.up := rfl
@[simp] theorem setDir_dir (d : Directory) : (s.setDir d).dir = d := rfl
@[simp] theorem setDir_eng (d : Directory) : (s.setDir d).eng = s.eng := rfl
@[simp] theorem setDir_stallLimit (d : Directory) : (s.setDir d).stallLimit = s.stallLimit := rfl
@[simp] theorem setDir_pool (d : Directory) : (s.setDir d).pool = s.pool := rfl
@[simp] theorem setDir_hm (d : Directory) : (s.setDir d).hm = s.hm := rfl
@[simp] theorem setDir_dc (d : Directory) : (s.setDir d).dc = s.dc := rfl
@[simp] theorem setDir_mp (d : Directory) : (s.setDir d).mp = s.mp := rfl
@[simp] theorem setDir_pu (d : Directory) : (s.setDir d).pu = s.pu := rfl
@[simp] theorem setDir_au (d : Directory) : (s.setDir d).au = s.au := rfl
@[simp] theorem setDir_inReset (d : Directory) : (s.setDir d).inReset = s.inReset := rfl
@[simp] theorem setDir_pending (d : Directory) : (s.setDir d).pending = s.pending := rfl

@[simp] theorem setEng_up (e : Quad Engine) : (s.setEng e).up = s.up := rfl
@[simp] theorem setEng_dir (e : Quad Engine) : (s.setEng e).dir = s.dir := rfl
@[simp] theorem setEng_eng (e : Quad Engine) : (s.setEng e).eng = e := rfl
@[simp] theorem setEng_stallLimit (e : Quad Engine) : (s.setEng e).stallLimit = s.stallLimit := rfl
@[simp] theorem setEng_pool (e : Quad Engine) : (s.setEng e).pool = s.pool := rfl
@[simp] theorem setEng_hm (e : Quad Engine) : (s.setEng e).hm = s.hm := rfl
@[simp] theorem setEng_dc (e : Quad Engine) : (s.setEng e).dc = s.dc := rfl
@[simp] theorem setEng_mp (e : Quad Engine) : (s.setEng e).mp = s.mp := rfl
@[simp] theorem setEng_pu (e : Quad Engine) : (s.setEng e).pu = s.pu := rfl
@[simp] theorem setEng_au (e : Quad Engine) : (s.setEng e).au = s.au := rfl
@[simp] theorem setEng_inReset (e : Quad Engine) : (s.setEng e).inReset = s.inReset := rfl
@[simp] theorem setEng_pending (e : Quad Engine) : (s.setEng e).pending = s.pending := rfl

@[simp] theorem setPool_up (p : Pool) : (s.setPool p).up = s.up := rfl
@[simp] theorem setPool_dir (p : Pool) : (s.setPool p).dir = s.dir := rfl
@[simp] theorem setPool_eng (p : Pool) : (s.setPool p).eng = s.eng := rfl
@[simp] theorem setPool_stallLimit (p : Pool) : (s.setPool p).stallLimit = s.stallLimit := rfl
@[simp] theorem setPool_pool (p : Pool) : (s.setPool p).pool = p := rfl
@[simp] theorem setPool_hm (p : Pool) : (s.setPool p).hm = s.hm := rfl
@[simp] theorem setPool_dc (p : Pool) : (s.setPool p).dc = s.dc := rfl
@[simp] theorem setPool_mp (p : Pool) : (s.setPool p).mp = s.mp := rfl
@[simp] theorem setPool_pu (p : Pool) : (s.setPool p).pu = s.pu := rfl
@[simp] theorem setPool_au (p : Pool) : (s.setPool p).au = s.au := rfl
@[simp] theorem setPool_inReset (p : Pool) : (s.setPool p).inReset = s.inReset := rfl
@[simp] theorem setPool_pending (p : Pool) : (s.setPool p).pending = s.pending := rfl

@[simp] theorem setHm_up (h : Health) : (s.setHm h).up = s.up := rfl
@[simp] theorem setHm_dir (h : Health) : (s.setHm h).dir = s.dir := rfl
@[simp] theorem setHm_eng (h : Health) : (s.setHm h).eng = s.eng := rfl
@[simp] theorem setHm_stallLimit (h : Health) : (s.setHm h).stallLimit = s.stallLimit := rfl
@[simp] theorem setHm_pool (h : Health) : (s.setHm h).pool = s.pool := rfl
@[simp] theorem setHm_hm (h : Health) : (s.setHm h).hm = h := rfl
@[simp] theorem setHm_dc (h : Health) : (s.setHm h).dc = s.dc := rfl
@[simp] theorem setHm_mp (h : Health) : (s.setHm h).mp = s.mp := rfl
@[simp] theorem setHm_pu (h : Health) : (s.setHm h).pu = s.pu := rfl
@[simp] theorem setHm_au (h : Health) : (s.setHm h).au = s.au := rfl
@[simp] theorem setHm_inReset (h : Health) : (s.setHm h).inReset = s.inReset := rfl
@[simp] theorem setHm_pending (h : Health) : (s.setHm h).pending = s.pending := rfl

@[simp] theorem setDc_up (d : Controller) : (s.setDc d).up = s.up := rfl
@[simp] theorem setDc_dir (d : Controller) : (s.setDc d).dir = s.dir := rfl
@[simp] theorem setDc_eng (d : Controller) : (s.setDc d).eng = s.eng := rfl
@[simp] theorem setDc_stallLimit (d : Controller) : (s.setDc d).stallLimit = s.stallLimit := rfl
@[simp] theorem setDc_pool (d : Controller) : (s.setDc d).pool = s.pool := rfl
@[simp] theorem setDc_hm (d : Controller) : (s.setDc d).hm = s.hm := rfl
@[simp] theorem setDc_dc (d : Controller) : (s.setDc d).dc = d := rfl
@[simp] theorem setDc_mp (d : Controller) : (s.setDc d).mp = s.mp := rfl
@[simp] theorem setDc_pu (d : Controller) : (s.setDc d).pu = s.pu := rfl
@[simp] theorem setDc_au (d : Controller) : (s.setDc d).au = s.au := rfl
@[simp] theorem setDc_inReset (d : Controller) : (s.setDc d).inReset = s.inReset := rfl
@[simp] theorem setDc_pending (d : Controller) : (s.setDc d).pending = s.pending := rfl

@[simp] theorem setMp_up (m : Port) : (s.setMp m).up = s.up := rfl
@[simp] theorem setMp_dir (m : Port) : (s.setMp m).dir = s.dir := rfl
@[simp] theorem setMp_eng (m : Port) : (s.setMp m).eng = s.eng := rfl
@[simp] theorem setMp_stallLimit (m : Port) : (s.setMp m).stallLimit = s.stallLimit := rfl
@[simp] theorem setMp_pool (m : Port) : (s.setMp m).pool = s.pool := rfl
@[simp] theorem setMp_hm (m : Port) : (s.setMp m).hm = s.hm := rfl
@[simp] theorem setMp_dc (m : Port) : (s.setMp m).dc = s.dc := rfl
@[simp] theorem setMp_mp (m : Port) : (s.setMp m).mp = m := rfl
@[simp] theorem setMp_pu (m : Port) : (s.setMp m).pu = s.pu := rfl
@[simp] theorem setMp_au (m : Port) : (s.setMp m).au = s.au := rfl
@[simp] theorem setMp_inReset (m : Port) : (s.setMp m).inReset = s.inReset := rfl
@[simp] theorem setMp_pending (m : Port) : (s.setMp m).pending = s.pending := rfl

@[simp] theorem setPu_up (p : Protection) : (s.setPu p).up = s.up := rfl
@[simp] theorem setPu_dir (p : Protection) : (s.setPu p).dir = s.dir := rfl
@[simp] theorem setPu_eng (p : Protection) : (s.setPu p).eng = s.eng := rfl
@[simp] theorem setPu_stallLimit (p : Protection) : (s.setPu p).stallLimit = s.stallLimit := rfl
@[simp] theorem setPu_pool (p : Protection) : (s.setPu p).pool = s.pool := rfl
@[simp] theorem setPu_hm (p : Protection) : (s.setPu p).hm = s.hm := rfl
@[simp] theorem setPu_dc (p : Protection) : (s.setPu p).dc = s.dc := rfl
@[simp] theorem setPu_mp (p : Protection) : (s.setPu p).mp = s.mp := rfl
@[simp] theorem setPu_pu (p : Protection) : (s.setPu p).pu = p := rfl
@[simp] theorem setPu_au (p : Protection) : (s.setPu p).au = s.au := rfl
@[simp] theorem setPu_inReset (p : Protection) : (s.setPu p).inReset = s.inReset := rfl
@[simp] theorem setPu_pending (p : Protection) : (s.setPu p).pending = s.pending := rfl

@[simp] theorem setAu_up (a : Alerts) : (s.setAu a).up = s.up := rfl
@[simp] theorem setAu_dir (a : Alerts) : (s.setAu a).dir = s.dir := rfl
@[simp] theorem setAu_eng (a : Alerts) : (s.setAu a).eng = s.eng := rfl
@[simp] theorem setAu_stallLimit (a : Alerts) : (s.setAu a).stallLimit = s.stallLimit := rfl
@[simp] theorem setAu_pool (a : Alerts) : (s.setAu a).pool = s.pool := rfl
@[simp] theorem setAu_hm (a : Alerts) : (s.setAu a).hm = s.hm := rfl
@[simp] theorem setAu_dc (a : Alerts) : (s.setAu a).dc = s.dc := rfl
@[simp] theorem setAu_mp (a : Alerts) : (s.setAu a).mp = s.mp := rfl
@[simp] theorem setAu_pu (a : Alerts) : (s.setAu a).pu = s.pu := rfl
@[simp] theorem setAu_au (a : Alerts) : (s.setAu a).au = a := rfl
@[simp] theorem setAu_inReset (a : Alerts) : (s.setAu a).inReset = s.inReset := rfl
@[simp] theorem setAu_pending (a : Alerts) : (s.setAu a).pending = s.pending := rfl

@[simp] theorem setCtx_up (c : UpContext) : (s.setCtx c).up = { s.up with ctx := c } := rfl
@[simp] theorem setCtx_dir (c : UpContext) : (s.setCtx c).dir = s.dir := rfl
@[simp] theorem setCtx_eng (c : UpContext) : (s.setCtx c).eng = s.eng := rfl
@[simp] theorem setCtx_stallLimit (c : UpContext) : (s.setCtx c).stallLimit = s.stallLimit := rfl
@[simp] theorem setCtx_pool (c : UpContext) : (s.setCtx c).pool = s.pool := rfl
@[simp] theorem setCtx_hm (c : UpContext) : (s.setCtx c).hm = s.hm := rfl
@[simp] theorem setCtx_dc (c : UpContext) : (s.setCtx c).dc = s.dc := rfl
@[simp] theorem setCtx_mp (c : UpContext) : (s.setCtx c).mp = s.mp := rfl
@[simp] theorem setCtx_pu (c : UpContext) : (s.setCtx c).pu = s.pu := rfl
@[simp] theorem setCtx_au (c : UpContext) : (s.setCtx c).au = s.au := rfl
@[simp] theorem setCtx_inReset (c : UpContext) : (s.setCtx c).inReset = s.inReset := rfl
@[simp] theorem setCtx_pending (c : UpContext) : (s.setCtx c).pending = s.pending := rfl
@[simp] theorem setOut_up (o : UpLines) : (s.setOut o).up = { s.up with out := o } := rfl
@[simp] theorem setOut_dir (o : UpLines) : (s.setOut o).dir = s.dir := rfl
@[simp] theorem setOut_eng (o : UpLines) : (s.setOut o).eng = s.eng := rfl
@[simp] theorem setOut_stallLimit (o : UpLines) : (s.setOut o).stallLimit = s.stallLimit := rfl
@[simp] theorem setOut_pool (o : UpLines) : (s.setOut o).pool = s.pool := rfl
@[simp] theorem setOut_hm (o : UpLines) : (s.setOut o).hm = s.hm := rfl
@[simp] theorem setOut_dc (o : UpLines) : (s.setOut o).dc = s.dc := rfl
@[simp] theorem setOut_mp (o : UpLines) : (s.setOut o).mp = s.mp := rfl
@[simp] theorem setOut_pu (o : UpLines) : (s.setOut o).pu = s.pu := rfl
@[simp] theorem setOut_au (o : UpLines) : (s.setOut o).au = s.au := rfl
@[simp] theorem setOut_inReset (o : UpLines) : (s.setOut o).inReset = s.inReset := rfl
@[simp] theorem setOut_pending (o : UpLines) : (s.setOut o).pending = s.pending := rfl

@[simp] theorem putRec_dir (i : Slot) (r : Option Record) : (s.putRec i r).dir = { s.dir with slots := s.dir.slots.set i.val r } := rfl
@[simp] theorem putRec_up (i : Slot) (r : Option Record) : (s.putRec i r).up = s.up := rfl
@[simp] theorem putRec_eng (i : Slot) (r : Option Record) : (s.putRec i r).eng = s.eng := rfl
@[simp] theorem putRec_stallLimit (i : Slot) (r : Option Record) : (s.putRec i r).stallLimit = s.stallLimit := rfl
@[simp] theorem putRec_pool (i : Slot) (r : Option Record) : (s.putRec i r).pool = s.pool := rfl
@[simp] theorem putRec_hm (i : Slot) (r : Option Record) : (s.putRec i r).hm = s.hm := rfl
@[simp] theorem putRec_dc (i : Slot) (r : Option Record) : (s.putRec i r).dc = s.dc := rfl
@[simp] theorem putRec_mp (i : Slot) (r : Option Record) : (s.putRec i r).mp = s.mp := rfl
@[simp] theorem putRec_pu (i : Slot) (r : Option Record) : (s.putRec i r).pu = s.pu := rfl
@[simp] theorem putRec_au (i : Slot) (r : Option Record) : (s.putRec i r).au = s.au := rfl
@[simp] theorem putRec_inReset (i : Slot) (r : Option Record) : (s.putRec i r).inReset = s.inReset := rfl
@[simp] theorem putRec_pending (i : Slot) (r : Option Record) : (s.putRec i r).pending = s.pending := rfl

@[simp] theorem modEngine_eng (k : Seg) (f : Engine → Engine) : (s.modEngine k f).eng = s.eng.set k (f (s.eng.get k)) := rfl
@[simp] theorem modEngine_up (k : Seg) (f : Engine → Engine) : (s.modEngine k f).up = s.up := rfl
@[simp] theorem modEngine_dir (k : Seg) (f : Engine → Engine) : (s.modEngine k f).dir = s.dir := rfl
@[simp] theorem modEngine_stallLimit (k : Seg) (f : Engine → Engine) : (s.modEngine k f).stallLimit = s.stallLimit := rfl
@[simp] theorem modEngine_pool (k : Seg) (f : Engine → Engine) : (s.modEngine k f).pool = s.pool := rfl
@[simp] theorem modEngine_hm (k : Seg) (f : Engine → Engine) : (s.modEngine k f).hm = s.hm := rfl
@[simp] theorem modEngine_dc (k : Seg) (f : Engine → Engine) : (s.modEngine k f).dc = s.dc := rfl
@[simp] theorem modEngine_mp (k : Seg) (f : Engine → Engine) : (s.modEngine k f).mp = s.mp := rfl
@[simp] theorem modEngine_pu (k : Seg) (f : Engine → Engine) : (s.modEngine k f).pu = s.pu := rfl
@[simp] theorem modEngine_au (k : Seg) (f : Engine → Engine) : (s.modEngine k f).au = s.au := rfl
@[simp] theorem modEngine_inReset (k : Seg) (f : Engine → Engine) : (s.modEngine k f).inReset = s.inReset := rfl
@[simp] theorem modEngine_pending (k : Seg) (f : Engine → Engine) : (s.modEngine k f).pending = s.pending := rfl

@[simp] theorem modPool_pool (k : Seg) (f : PoolSeg → PoolSeg) :
    (s.modPool k f).pool = { s.pool with segs := s.pool.segs.set k (f (s.pool.segs.get k)) } := rfl
@[simp] theorem modPool_up (k : Seg) (f : PoolSeg → PoolSeg) : (s.modPool k f).up = s.up := rfl
@[simp] theorem modPool_dir (k : Seg) (f : PoolSeg → PoolSeg) : (s.modPool k f).dir = s.dir := rfl
@[simp] theorem modPool_eng (k : Seg) (f : PoolSeg → PoolSeg) : (s.modPool k f).eng = s.eng := rfl
@[simp] theorem modPool_stallLimit (k : Seg) (f : PoolSeg → PoolSeg) : (s.modPool k f).stallLimit = s.stallLimit := rfl
@[simp] theorem modPool_hm (k : Seg) (f : PoolSeg → PoolSeg) : (s.modPool k f).hm = s.hm := rfl
@[simp] theorem modPool_dc (k : Seg) (f : PoolSeg → PoolSeg) : (s.modPool k f).dc = s.dc := rfl
@[simp] theorem modPool_mp (k : Seg) (f : PoolSeg → PoolSeg) : (s.modPool k f).mp = s.mp := rfl
@[simp] theorem modPool_pu (k : Seg) (f : PoolSeg → PoolSeg) : (s.modPool k f).pu = s.pu := rfl
@[simp] theorem modPool_au (k : Seg) (f : PoolSeg → PoolSeg) : (s.modPool k f).au = s.au := rfl
@[simp] theorem modPool_inReset (k : Seg) (f : PoolSeg → PoolSeg) : (s.modPool k f).inReset = s.inReset := rfl
@[simp] theorem modPool_pending (k : Seg) (f : PoolSeg → PoolSeg) : (s.modPool k f).pending = s.pending := rfl

@[simp] theorem markChanged_au (i : Slot) : (s.markChanged i).au = { s.au with changed := s.au.changed.set i.val true } := rfl
@[simp] theorem markChanged_up (i : Slot) : (s.markChanged i).up = s.up := rfl
@[simp] theorem markChanged_dir (i : Slot) : (s.markChanged i).dir = s.dir := rfl
@[simp] theorem markChanged_eng (i : Slot) : (s.markChanged i).eng = s.eng := rfl
@[simp] theorem markChanged_stallLimit (i : Slot) : (s.markChanged i).stallLimit = s.stallLimit := rfl
@[simp] theorem markChanged_pool (i : Slot) : (s.markChanged i).pool = s.pool := rfl
@[simp] theorem markChanged_hm (i : Slot) : (s.markChanged i).hm = s.hm := rfl
@[simp] theorem markChanged_dc (i : Slot) : (s.markChanged i).dc = s.dc := rfl
@[simp] theorem markChanged_mp (i : Slot) : (s.markChanged i).mp = s.mp := rfl
@[simp] theorem markChanged_pu (i : Slot) : (s.markChanged i).pu = s.pu := rfl
@[simp] theorem markChanged_inReset (i : Slot) : (s.markChanged i).inReset = s.inReset := rfl
@[simp] theorem markChanged_pending (i : Slot) : (s.markChanged i).pending = s.pending := rfl

@[simp] theorem markFault_au (k : Seg) (f : FaultMarks → FaultMarks) :
    (s.markFault k f).au = { s.au with faults := s.au.faults.set k (f (s.au.faults.get k)) } := rfl
@[simp] theorem markFault_up (k : Seg) (f : FaultMarks → FaultMarks) : (s.markFault k f).up = s.up := rfl
@[simp] theorem markFault_dir (k : Seg) (f : FaultMarks → FaultMarks) : (s.markFault k f).dir = s.dir := rfl
@[simp] theorem markFault_eng (k : Seg) (f : FaultMarks → FaultMarks) : (s.markFault k f).eng = s.eng := rfl
@[simp] theorem markFault_stallLimit (k : Seg) (f : FaultMarks → FaultMarks) : (s.markFault k f).stallLimit = s.stallLimit := rfl
@[simp] theorem markFault_pool (k : Seg) (f : FaultMarks → FaultMarks) : (s.markFault k f).pool = s.pool := rfl
@[simp] theorem markFault_hm (k : Seg) (f : FaultMarks → FaultMarks) : (s.markFault k f).hm = s.hm := rfl
@[simp] theorem markFault_dc (k : Seg) (f : FaultMarks → FaultMarks) : (s.markFault k f).dc = s.dc := rfl
@[simp] theorem markFault_mp (k : Seg) (f : FaultMarks → FaultMarks) : (s.markFault k f).mp = s.mp := rfl
@[simp] theorem markFault_pu (k : Seg) (f : FaultMarks → FaultMarks) : (s.markFault k f).pu = s.pu := rfl
@[simp] theorem markFault_inReset (k : Seg) (f : FaultMarks → FaultMarks) : (s.markFault k f).inReset = s.inReset := rfl
@[simp] theorem markFault_pending (k : Seg) (f : FaultMarks → FaultMarks) : (s.markFault k f).pending = s.pending := rfl

@[simp] theorem settleOps_up (f : LongOp → Option Response) : (s.settleOps f).up = s.up := rfl
@[simp] theorem settleOps_dir (f : LongOp → Option Response) : (s.settleOps f).dir = s.dir := rfl
@[simp] theorem settleOps_eng (f : LongOp → Option Response) : (s.settleOps f).eng = s.eng := rfl
@[simp] theorem settleOps_stallLimit (f : LongOp → Option Response) : (s.settleOps f).stallLimit = s.stallLimit := rfl
@[simp] theorem settleOps_pool (f : LongOp → Option Response) : (s.settleOps f).pool = s.pool := rfl
@[simp] theorem settleOps_hm (f : LongOp → Option Response) : (s.settleOps f).hm = s.hm := rfl
@[simp] theorem settleOps_mp (f : LongOp → Option Response) : (s.settleOps f).mp = s.mp := rfl
@[simp] theorem settleOps_pu (f : LongOp → Option Response) : (s.settleOps f).pu = s.pu := rfl
@[simp] theorem settleOps_au (f : LongOp → Option Response) : (s.settleOps f).au = s.au := rfl
@[simp] theorem settleOps_inReset (f : LongOp → Option Response) : (s.settleOps f).inReset = s.inReset := rfl
@[simp] theorem settleOps_pending (f : LongOp → Option Response) : (s.settleOps f).pending = s.pending := rfl

@[simp] theorem moveNotes_up (i : Slot) (b : Bool) : (s.moveNotes i b).up = s.up := rfl
@[simp] theorem moveNotes_dir (i : Slot) (b : Bool) : (s.moveNotes i b).dir = s.dir := rfl
@[simp] theorem moveNotes_eng (i : Slot) (b : Bool) : (s.moveNotes i b).eng = s.eng := rfl
@[simp] theorem moveNotes_stallLimit (i : Slot) (b : Bool) : (s.moveNotes i b).stallLimit = s.stallLimit := rfl
@[simp] theorem moveNotes_pool (i : Slot) (b : Bool) : (s.moveNotes i b).pool = s.pool := rfl
@[simp] theorem moveNotes_hm (i : Slot) (b : Bool) : (s.moveNotes i b).hm = s.hm := rfl
@[simp] theorem moveNotes_mp (i : Slot) (b : Bool) : (s.moveNotes i b).mp = s.mp := rfl
@[simp] theorem moveNotes_pu (i : Slot) (b : Bool) : (s.moveNotes i b).pu = s.pu := rfl
@[simp] theorem moveNotes_au (i : Slot) (b : Bool) : (s.moveNotes i b).au = s.au := rfl
@[simp] theorem moveNotes_inReset (i : Slot) (b : Bool) : (s.moveNotes i b).inReset = s.inReset := rfl
@[simp] theorem moveNotes_pending (i : Slot) (b : Bool) : (s.moveNotes i b).pending = s.pending := rfl

@[simp] theorem pushResponse_mp (r : Response) : (s.pushResponse r).mp = { s.mp with responses := s.mp.responses ++ [r] } := rfl
@[simp] theorem pushResponse_up (r : Response) : (s.pushResponse r).up = s.up := rfl
@[simp] theorem pushResponse_dir (r : Response) : (s.pushResponse r).dir = s.dir := rfl
@[simp] theorem pushResponse_eng (r : Response) : (s.pushResponse r).eng = s.eng := rfl
@[simp] theorem pushResponse_stallLimit (r : Response) : (s.pushResponse r).stallLimit = s.stallLimit := rfl
@[simp] theorem pushResponse_pool (r : Response) : (s.pushResponse r).pool = s.pool := rfl
@[simp] theorem pushResponse_hm (r : Response) : (s.pushResponse r).hm = s.hm := rfl
@[simp] theorem pushResponse_dc (r : Response) : (s.pushResponse r).dc = s.dc := rfl
@[simp] theorem pushResponse_pu (r : Response) : (s.pushResponse r).pu = s.pu := rfl
@[simp] theorem pushResponse_au (r : Response) : (s.pushResponse r).au = s.au := rfl
@[simp] theorem pushResponse_inReset (r : Response) : (s.pushResponse r).inReset = s.inReset := rfl
@[simp] theorem pushResponse_pending (r : Response) : (s.pushResponse r).pending = s.pending := rfl

@[simp] theorem deliver_up : s.deliver.up = s.up := rfl
@[simp] theorem deliver_dir : s.deliver.dir = s.dir := rfl
@[simp] theorem deliver_eng : s.deliver.eng = s.eng := rfl
@[simp] theorem deliver_stallLimit : s.deliver.stallLimit = s.stallLimit := rfl
@[simp] theorem deliver_pool : s.deliver.pool = s.pool := rfl
@[simp] theorem deliver_hm : s.deliver.hm = s.hm := rfl
@[simp] theorem deliver_pu : s.deliver.pu = s.pu := rfl
@[simp] theorem deliver_au : s.deliver.au = s.au := rfl
@[simp] theorem deliver_inReset : s.deliver.inReset = s.inReset := rfl
@[simp] theorem deliver_pending : s.deliver.pending = s.pending := rfl

@[simp] theorem evaluate_up : s.evaluate.up = s.up := rfl
@[simp] theorem evaluate_dir : s.evaluate.dir = s.dir := rfl
@[simp] theorem evaluate_eng : s.evaluate.eng = s.eng := rfl
@[simp] theorem evaluate_stallLimit : s.evaluate.stallLimit = s.stallLimit := rfl
@[simp] theorem evaluate_pool : s.evaluate.pool = s.pool := rfl
@[simp] theorem evaluate_hm : s.evaluate.hm = s.hm := rfl
@[simp] theorem evaluate_dc : s.evaluate.dc = s.dc := rfl
@[simp] theorem evaluate_mp : s.evaluate.mp = s.mp := rfl
@[simp] theorem evaluate_pu : s.evaluate.pu = s.pu := rfl
@[simp] theorem evaluate_inReset : s.evaluate.inReset = s.inReset := rfl
@[simp] theorem evaluate_pending : s.evaluate.pending = s.pending := rfl

/-! ### Reading a slot, an engine and a pool segment -/

@[simp] theorem recAt_setUp (u : UpPort) (i : Slot) : (s.setUp u).recAt i = s.recAt i := rfl
@[simp] theorem recAt_setEng (e : Quad Engine) (i : Slot) : (s.setEng e).recAt i = s.recAt i := rfl
@[simp] theorem recAt_setPool (p : Pool) (i : Slot) : (s.setPool p).recAt i = s.recAt i := rfl
@[simp] theorem recAt_setHm (h : Health) (i : Slot) : (s.setHm h).recAt i = s.recAt i := rfl
@[simp] theorem recAt_setDc (d : Controller) (i : Slot) : (s.setDc d).recAt i = s.recAt i := rfl
@[simp] theorem recAt_setMp (m : Port) (i : Slot) : (s.setMp m).recAt i = s.recAt i := rfl
@[simp] theorem recAt_setPu (p : Protection) (i : Slot) : (s.setPu p).recAt i = s.recAt i := rfl
@[simp] theorem recAt_setAu (a : Alerts) (i : Slot) : (s.setAu a).recAt i = s.recAt i := rfl
@[simp] theorem recAt_setCtx (c : UpContext) (i : Slot) : (s.setCtx c).recAt i = s.recAt i := rfl
@[simp] theorem recAt_setOut (o : UpLines) (i : Slot) : (s.setOut o).recAt i = s.recAt i := rfl
@[simp] theorem recAt_modEngine (k' : Seg) (f : Engine → Engine) (i : Slot) : (s.modEngine k' f).recAt i = s.recAt i := rfl
@[simp] theorem recAt_modPool (k' : Seg) (f : PoolSeg → PoolSeg) (i : Slot) : (s.modPool k' f).recAt i = s.recAt i := rfl
@[simp] theorem recAt_markChanged (j : Slot) (i : Slot) : (s.markChanged j).recAt i = s.recAt i := rfl
@[simp] theorem recAt_markFault (k' : Seg) (f : FaultMarks → FaultMarks) (i : Slot) : (s.markFault k' f).recAt i = s.recAt i := rfl
@[simp] theorem recAt_settleOps (f : LongOp → Option Response) (i : Slot) : (s.settleOps f).recAt i = s.recAt i := rfl
@[simp] theorem recAt_moveNotes (j : Slot) (b : Bool) (i : Slot) : (s.moveNotes j b).recAt i = s.recAt i := rfl
@[simp] theorem recAt_pushResponse (q : Response) (i : Slot) : (s.pushResponse q).recAt i = s.recAt i := rfl
@[simp] theorem recAt_deliver (i : Slot) : s.deliver.recAt i = s.recAt i := rfl
@[simp] theorem recAt_evaluate (i : Slot) : s.evaluate.recAt i = s.recAt i := rfl

@[simp] theorem engine_setUp (u : UpPort) (k : Seg) : (s.setUp u).engine k = s.engine k := rfl
@[simp] theorem engine_setPool (p : Pool) (k : Seg) : (s.setPool p).engine k = s.engine k := rfl
@[simp] theorem engine_setHm (h : Health) (k : Seg) : (s.setHm h).engine k = s.engine k := rfl
@[simp] theorem engine_setDc (d : Controller) (k : Seg) : (s.setDc d).engine k = s.engine k := rfl
@[simp] theorem engine_setMp (m : Port) (k : Seg) : (s.setMp m).engine k = s.engine k := rfl
@[simp] theorem engine_setPu (p : Protection) (k : Seg) : (s.setPu p).engine k = s.engine k := rfl
@[simp] theorem engine_setAu (a : Alerts) (k : Seg) : (s.setAu a).engine k = s.engine k := rfl
@[simp] theorem engine_setDir (d : Directory) (k : Seg) : (s.setDir d).engine k = s.engine k := rfl
@[simp] theorem engine_setCtx (c : UpContext) (k : Seg) : (s.setCtx c).engine k = s.engine k := rfl
@[simp] theorem engine_setOut (o : UpLines) (k : Seg) : (s.setOut o).engine k = s.engine k := rfl
@[simp] theorem engine_modPool (k' : Seg) (f : PoolSeg → PoolSeg) (k : Seg) : (s.modPool k' f).engine k = s.engine k := rfl
@[simp] theorem engine_markChanged (j : Slot) (k : Seg) : (s.markChanged j).engine k = s.engine k := rfl
@[simp] theorem engine_markFault (k' : Seg) (f : FaultMarks → FaultMarks) (k : Seg) : (s.markFault k' f).engine k = s.engine k := rfl
@[simp] theorem engine_settleOps (f : LongOp → Option Response) (k : Seg) : (s.settleOps f).engine k = s.engine k := rfl
@[simp] theorem engine_moveNotes (j : Slot) (b : Bool) (k : Seg) : (s.moveNotes j b).engine k = s.engine k := rfl
@[simp] theorem engine_putRec (j : Slot) (q : Option Record) (k : Seg) : (s.putRec j q).engine k = s.engine k := rfl
@[simp] theorem engine_pushResponse (q : Response) (k : Seg) : (s.pushResponse q).engine k = s.engine k := rfl
@[simp] theorem engine_deliver (k : Seg) : s.deliver.engine k = s.engine k := rfl
@[simp] theorem engine_evaluate (k : Seg) : s.evaluate.engine k = s.engine k := rfl

@[simp] theorem poolSeg_setUp (u : UpPort) (k : Seg) : (s.setUp u).poolSeg k = s.poolSeg k := rfl
@[simp] theorem poolSeg_setEng (e : Quad Engine) (k : Seg) : (s.setEng e).poolSeg k = s.poolSeg k := rfl
@[simp] theorem poolSeg_setHm (h : Health) (k : Seg) : (s.setHm h).poolSeg k = s.poolSeg k := rfl
@[simp] theorem poolSeg_setDc (d : Controller) (k : Seg) : (s.setDc d).poolSeg k = s.poolSeg k := rfl
@[simp] theorem poolSeg_setMp (m : Port) (k : Seg) : (s.setMp m).poolSeg k = s.poolSeg k := rfl
@[simp] theorem poolSeg_setPu (p : Protection) (k : Seg) : (s.setPu p).poolSeg k = s.poolSeg k := rfl
@[simp] theorem poolSeg_setAu (a : Alerts) (k : Seg) : (s.setAu a).poolSeg k = s.poolSeg k := rfl
@[simp] theorem poolSeg_setDir (d : Directory) (k : Seg) : (s.setDir d).poolSeg k = s.poolSeg k := rfl
@[simp] theorem poolSeg_setCtx (c : UpContext) (k : Seg) : (s.setCtx c).poolSeg k = s.poolSeg k := rfl
@[simp] theorem poolSeg_setOut (o : UpLines) (k : Seg) : (s.setOut o).poolSeg k = s.poolSeg k := rfl
@[simp] theorem poolSeg_modEngine (k' : Seg) (f : Engine → Engine) (k : Seg) : (s.modEngine k' f).poolSeg k = s.poolSeg k := rfl
@[simp] theorem poolSeg_markChanged (j : Slot) (k : Seg) : (s.markChanged j).poolSeg k = s.poolSeg k := rfl
@[simp] theorem poolSeg_markFault (k' : Seg) (f : FaultMarks → FaultMarks) (k : Seg) : (s.markFault k' f).poolSeg k = s.poolSeg k := rfl
@[simp] theorem poolSeg_settleOps (f : LongOp → Option Response) (k : Seg) : (s.settleOps f).poolSeg k = s.poolSeg k := rfl
@[simp] theorem poolSeg_moveNotes (j : Slot) (b : Bool) (k : Seg) : (s.moveNotes j b).poolSeg k = s.poolSeg k := rfl
@[simp] theorem poolSeg_putRec (j : Slot) (q : Option Record) (k : Seg) : (s.putRec j q).poolSeg k = s.poolSeg k := rfl
@[simp] theorem poolSeg_pushResponse (q : Response) (k : Seg) : (s.pushResponse q).poolSeg k = s.poolSeg k := rfl
@[simp] theorem poolSeg_deliver (k : Seg) : s.deliver.poolSeg k = s.poolSeg k := rfl
@[simp] theorem poolSeg_evaluate (k : Seg) : s.evaluate.poolSeg k = s.poolSeg k := rfl

@[simp] theorem isProtected_setUp (u : UpPort) (i : Slot) : (s.setUp u).isProtected i = s.isProtected i := rfl
@[simp] theorem isProtected_setEng (e : Quad Engine) (i : Slot) : (s.setEng e).isProtected i = s.isProtected i := rfl
@[simp] theorem isProtected_setPool (p : Pool) (i : Slot) : (s.setPool p).isProtected i = s.isProtected i := rfl
@[simp] theorem isProtected_setHm (h : Health) (i : Slot) : (s.setHm h).isProtected i = s.isProtected i := rfl
@[simp] theorem isProtected_setDc (d : Controller) (i : Slot) : (s.setDc d).isProtected i = s.isProtected i := rfl
@[simp] theorem isProtected_setMp (m : Port) (i : Slot) : (s.setMp m).isProtected i = s.isProtected i := rfl
@[simp] theorem isProtected_setAu (a : Alerts) (i : Slot) : (s.setAu a).isProtected i = s.isProtected i := rfl
@[simp] theorem isProtected_setDir (d : Directory) (i : Slot) : (s.setDir d).isProtected i = s.isProtected i := rfl
@[simp] theorem isProtected_setCtx (c : UpContext) (i : Slot) : (s.setCtx c).isProtected i = s.isProtected i := rfl
@[simp] theorem isProtected_setOut (o : UpLines) (i : Slot) : (s.setOut o).isProtected i = s.isProtected i := rfl
@[simp] theorem isProtected_modEngine (k' : Seg) (f : Engine → Engine) (i : Slot) : (s.modEngine k' f).isProtected i = s.isProtected i := rfl
@[simp] theorem isProtected_modPool (k' : Seg) (f : PoolSeg → PoolSeg) (i : Slot) : (s.modPool k' f).isProtected i = s.isProtected i := rfl
@[simp] theorem isProtected_markChanged (j : Slot) (i : Slot) : (s.markChanged j).isProtected i = s.isProtected i := rfl
@[simp] theorem isProtected_markFault (k' : Seg) (f : FaultMarks → FaultMarks) (i : Slot) : (s.markFault k' f).isProtected i = s.isProtected i := rfl
@[simp] theorem isProtected_settleOps (f : LongOp → Option Response) (i : Slot) : (s.settleOps f).isProtected i = s.isProtected i := rfl
@[simp] theorem isProtected_moveNotes (j : Slot) (b : Bool) (i : Slot) : (s.moveNotes j b).isProtected i = s.isProtected i := rfl
@[simp] theorem isProtected_putRec (j : Slot) (q : Option Record) (i : Slot) : (s.putRec j q).isProtected i = s.isProtected i := rfl
@[simp] theorem isProtected_pushResponse (q : Response) (i : Slot) : (s.pushResponse q).isProtected i = s.isProtected i := rfl
@[simp] theorem isProtected_deliver (i : Slot) : s.deliver.isProtected i = s.isProtected i := rfl
@[simp] theorem isProtected_evaluate (i : Slot) : s.evaluate.isProtected i = s.isProtected i := rfl

@[simp] theorem lookupAlias_setUp (u : UpPort) (a : Addr) : (s.setUp u).lookupAlias a = s.lookupAlias a := rfl
@[simp] theorem lookupAlias_setEng (e : Quad Engine) (a : Addr) : (s.setEng e).lookupAlias a = s.lookupAlias a := rfl
@[simp] theorem lookupAlias_setPool (p : Pool) (a : Addr) : (s.setPool p).lookupAlias a = s.lookupAlias a := rfl
@[simp] theorem lookupAlias_setHm (h : Health) (a : Addr) : (s.setHm h).lookupAlias a = s.lookupAlias a := rfl
@[simp] theorem lookupAlias_setDc (d : Controller) (a : Addr) : (s.setDc d).lookupAlias a = s.lookupAlias a := rfl
@[simp] theorem lookupAlias_setMp (m : Port) (a : Addr) : (s.setMp m).lookupAlias a = s.lookupAlias a := rfl
@[simp] theorem lookupAlias_setPu (p : Protection) (a : Addr) : (s.setPu p).lookupAlias a = s.lookupAlias a := rfl
@[simp] theorem lookupAlias_setAu (a' : Alerts) (a : Addr) : (s.setAu a').lookupAlias a = s.lookupAlias a := rfl
@[simp] theorem lookupAlias_setCtx (c : UpContext) (a : Addr) : (s.setCtx c).lookupAlias a = s.lookupAlias a := rfl
@[simp] theorem lookupAlias_setOut (o : UpLines) (a : Addr) : (s.setOut o).lookupAlias a = s.lookupAlias a := rfl
@[simp] theorem lookupAlias_modEngine (k' : Seg) (f : Engine → Engine) (a : Addr) : (s.modEngine k' f).lookupAlias a = s.lookupAlias a := rfl
@[simp] theorem lookupAlias_modPool (k' : Seg) (f : PoolSeg → PoolSeg) (a : Addr) : (s.modPool k' f).lookupAlias a = s.lookupAlias a := rfl
@[simp] theorem lookupAlias_markChanged (j : Slot) (a : Addr) : (s.markChanged j).lookupAlias a = s.lookupAlias a := rfl
@[simp] theorem lookupAlias_markFault (k' : Seg) (f : FaultMarks → FaultMarks) (a : Addr) : (s.markFault k' f).lookupAlias a = s.lookupAlias a := rfl
@[simp] theorem lookupAlias_settleOps (f : LongOp → Option Response) (a : Addr) : (s.settleOps f).lookupAlias a = s.lookupAlias a := rfl
@[simp] theorem lookupAlias_moveNotes (j : Slot) (b : Bool) (a : Addr) : (s.moveNotes j b).lookupAlias a = s.lookupAlias a := rfl
@[simp] theorem lookupAlias_pushResponse (q : Response) (a : Addr) : (s.pushResponse q).lookupAlias a = s.lookupAlias a := rfl
@[simp] theorem lookupAlias_deliver (a : Addr) : s.deliver.lookupAlias a = s.lookupAlias a := rfl
@[simp] theorem lookupAlias_evaluate (a : Addr) : s.evaluate.lookupAlias a = s.lookupAlias a := rfl

theorem recAt_putRec (i j : Slot) (r : Option Record) :
    (s.putRec i r).recAt j = if i = j then r else s.recAt j := by
  unfold State.putRec State.setDir State.recAt
  simp only [Vector.getElem_set, Fin.ext_iff]

@[simp] theorem recAt_putRec_self (i : Slot) (r : Option Record) : (s.putRec i r).recAt i = r := by
  simp [recAt_putRec]

theorem recAt_putRec_other {i j : Slot} (h : i ≠ j) (r : Option Record) : (s.putRec i r).recAt j = s.recAt j := by
  simp [recAt_putRec, h]

@[simp] theorem lookupAlias_putRec (i : Slot) (r : Option Record) (a : Addr) :
    (s.putRec i r).lookupAlias a = s.lookupAlias a := rfl

theorem engine_modEngine (k j : Seg) (f : Engine → Engine) :
    (s.modEngine k f).engine j = if j = k then f (s.engine k) else s.engine j := by
  simp [State.engine, Quad.get_set]

@[simp] theorem engine_modEngine_self (k : Seg) (f : Engine → Engine) :
    (s.modEngine k f).engine k = f (s.engine k) := by simp [engine_modEngine]

theorem engine_modEngine_other {k j : Seg} (h : j ≠ k) (f : Engine → Engine) :
    (s.modEngine k f).engine j = s.engine j := by simp [engine_modEngine, h]

theorem poolSeg_modPool (k j : Seg) (f : PoolSeg → PoolSeg) :
    (s.modPool k f).poolSeg j = if j = k then f (s.poolSeg k) else s.poolSeg j := by
  simp [State.poolSeg, Quad.get_set]

@[simp] theorem poolSeg_modPool_self (k : Seg) (f : PoolSeg → PoolSeg) :
    (s.modPool k f).poolSeg k = f (s.poolSeg k) := by simp [poolSeg_modPool]

theorem poolSeg_modPool_other {k j : Seg} (h : j ≠ k) (f : PoolSeg → PoolSeg) :
    (s.modPool k f).poolSeg j = s.poolSeg j := by simp [poolSeg_modPool, h]

theorem recAt_modRec (i j : Slot) (f : Record → Record) :
    (s.modRec i f).recAt j = if i = j then (s.recAt i).map f else s.recAt j := by
  unfold State.modRec
  split <;> rename_i h
  · simp [recAt_putRec, h]
  · split
    · rename_i e; subst e; simp [h]
    · rfl

@[simp] theorem modRec_up (i : Slot) (f : Record → Record) : (s.modRec i f).up = s.up := by
  unfold State.modRec; split <;> rfl
@[simp] theorem modRec_eng (i : Slot) (f : Record → Record) : (s.modRec i f).eng = s.eng := by
  unfold State.modRec; split <;> rfl
@[simp] theorem modRec_stallLimit (i : Slot) (f : Record → Record) : (s.modRec i f).stallLimit = s.stallLimit := by
  unfold State.modRec; split <;> rfl
@[simp] theorem modRec_pool (i : Slot) (f : Record → Record) : (s.modRec i f).pool = s.pool := by
  unfold State.modRec; split <;> rfl
@[simp] theorem modRec_hm (i : Slot) (f : Record → Record) : (s.modRec i f).hm = s.hm := by
  unfold State.modRec; split <;> rfl
@[simp] theorem modRec_dc (i : Slot) (f : Record → Record) : (s.modRec i f).dc = s.dc := by
  unfold State.modRec; split <;> rfl
@[simp] theorem modRec_mp (i : Slot) (f : Record → Record) : (s.modRec i f).mp = s.mp := by
  unfold State.modRec; split <;> rfl
@[simp] theorem modRec_pu (i : Slot) (f : Record → Record) : (s.modRec i f).pu = s.pu := by
  unfold State.modRec; split <;> rfl
@[simp] theorem modRec_au (i : Slot) (f : Record → Record) : (s.modRec i f).au = s.au := by
  unfold State.modRec; split <;> rfl
@[simp] theorem modRec_inReset (i : Slot) (f : Record → Record) : (s.modRec i f).inReset = s.inReset := by
  unfold State.modRec; split <;> rfl
@[simp] theorem modRec_pending (i : Slot) (f : Record → Record) : (s.modRec i f).pending = s.pending := by
  unfold State.modRec; split <;> rfl

/-- Changing a record in place leaves the alias index. -/
@[simp] theorem modRec_aliasIndex (i : Slot) (f : Record → Record) :
    (s.modRec i f).dir.aliasIndex = s.dir.aliasIndex := by
  unfold State.modRec; split <;> rfl

end Machine

end Sys2Proof
end

