-- ==== Sys2Proof/Laws/Frames.lean ====
section
/-! SUPPORT. Laws/Frames.lean: for each shared operation of Machine/Ops.lean, the fields of the state it leaves alone, as
one fact of several parts; then the captures of a STATUS frame, and what starts and stops a stall timer. -/

namespace Sys2Proof.Machine

variable (s : State)

@[simp] theorem upNak_frame :
    (s.upNak).hm = s.hm ∧ (s.upNak).mp = s.mp ∧ (s.upNak).pu = s.pu ∧ (s.upNak).stallLimit = s.stallLimit ∧
    (s.upNak).inReset = s.inReset ∧ (s.upNak).pending = s.pending ∧ (s.upNak).dir = s.dir ∧
    (s.upNak).eng = s.eng ∧ (s.upNak).pool = s.pool ∧ (s.upNak).dc = s.dc ∧ (s.upNak).au = s.au := by
  unfold State.upNak
  simp

@[simp] theorem upStandIn_frame :
    (s.upStandIn).hm = s.hm ∧ (s.upStandIn).mp = s.mp ∧ (s.upStandIn).pu = s.pu ∧
    (s.upStandIn).stallLimit = s.stallLimit ∧ (s.upStandIn).inReset = s.inReset ∧
    (s.upStandIn).pending = s.pending ∧ (s.upStandIn).dir = s.dir ∧ (s.upStandIn).eng = s.eng ∧
    (s.upStandIn).pool = s.pool ∧ (s.upStandIn).dc = s.dc ∧ (s.upStandIn).au = s.au := by
  unfold State.upStandIn
  dsimp only
  split <;> simp

@[simp] theorem withdraw_frame (k : Seg) (how : Withdrawal) :
    (s.withdraw k how).hm = s.hm ∧ (s.withdraw k how).mp = s.mp ∧ (s.withdraw k how).pu = s.pu ∧
    (s.withdraw k how).stallLimit = s.stallLimit ∧ (s.withdraw k how).inReset = s.inReset ∧
    (s.withdraw k how).pending = s.pending ∧ (s.withdraw k how).dir = s.dir ∧
    (s.withdraw k how).pool = s.pool ∧ (s.withdraw k how).dc = s.dc ∧ (s.withdraw k how).au = s.au := by
  unfold State.withdraw
  split
  · simp
  · dsimp only
    split <;> simp

@[simp] theorem withdrawSlot_frame (k : Seg) (i : Slot) (how : Withdrawal) :
    (s.withdrawSlot k i how).hm = s.hm ∧ (s.withdrawSlot k i how).mp = s.mp ∧
    (s.withdrawSlot k i how).pu = s.pu ∧ (s.withdrawSlot k i how).stallLimit = s.stallLimit ∧
    (s.withdrawSlot k i how).inReset = s.inReset ∧ (s.withdrawSlot k i how).pending = s.pending ∧
    (s.withdrawSlot k i how).dir = s.dir ∧ (s.withdrawSlot k i how).pool = s.pool ∧
    (s.withdrawSlot k i how).dc = s.dc ∧ (s.withdrawSlot k i how).au = s.au := by
  unfold State.withdrawSlot
  split
  · split <;> simp
  · simp

@[simp] theorem undeliveredClaim_frame (i : Slot) :
    (s.undeliveredClaim i).hm = s.hm ∧ (s.undeliveredClaim i).mp = s.mp ∧ (s.undeliveredClaim i).pu = s.pu ∧
    (s.undeliveredClaim i).stallLimit = s.stallLimit ∧ (s.undeliveredClaim i).inReset = s.inReset ∧
    (s.undeliveredClaim i).pending = s.pending ∧ (s.undeliveredClaim i).up = s.up ∧
    (s.undeliveredClaim i).eng = s.eng ∧ (s.undeliveredClaim i).pool = s.pool ∧ (s.undeliveredClaim i).dc = s.dc := by
  unfold State.undeliveredClaim
  split
  · split <;> simp
  · simp

@[simp] theorem undeliveredClaims_frame (es : List Entry) :
    (s.undeliveredClaims es).hm = s.hm ∧ (s.undeliveredClaims es).mp = s.mp ∧
    (s.undeliveredClaims es).pu = s.pu ∧ (s.undeliveredClaims es).stallLimit = s.stallLimit ∧
    (s.undeliveredClaims es).inReset = s.inReset ∧ (s.undeliveredClaims es).pending = s.pending ∧
    (s.undeliveredClaims es).up = s.up ∧ (s.undeliveredClaims es).eng = s.eng ∧
    (s.undeliveredClaims es).pool = s.pool ∧ (s.undeliveredClaims es).dc = s.dc := by
  induction es generalizing s with
  | nil => simp [State.undeliveredClaims]
  | cons e rest ih => simp [State.undeliveredClaims, ih]

@[simp] theorem purge_frame (k : Seg) (covers : Entry → Bool) :
    (s.purge k covers).hm = s.hm ∧ (s.purge k covers).mp = s.mp ∧ (s.purge k covers).pu = s.pu ∧
    (s.purge k covers).stallLimit = s.stallLimit ∧ (s.purge k covers).inReset = s.inReset ∧
    (s.purge k covers).pending = s.pending ∧ (s.purge k covers).up = s.up ∧ (s.purge k covers).eng = s.eng ∧
    (s.purge k covers).dc = s.dc := by
  unfold State.purge
  simp

@[simp] theorem answerPause_frame (k : Seg) (code : ResultCode) :
    (s.answerPause k code).hm = s.hm ∧ (s.answerPause k code).mp = s.mp ∧ (s.answerPause k code).pu = s.pu ∧
    (s.answerPause k code).stallLimit = s.stallLimit ∧ (s.answerPause k code).inReset = s.inReset ∧
    (s.answerPause k code).pending = s.pending ∧ (s.answerPause k code).up = s.up ∧
    (s.answerPause k code).dir = s.dir ∧ (s.answerPause k code).eng = s.eng ∧
    (s.answerPause k code).pool = s.pool ∧ (s.answerPause k code).au = s.au := by
  unfold State.answerPause
  simp

@[simp] theorem answerResume_frame (k : Seg) (code : ResultCode) :
    (s.answerResume k code).hm = s.hm ∧ (s.answerResume k code).mp = s.mp ∧ (s.answerResume k code).pu = s.pu ∧
    (s.answerResume k code).stallLimit = s.stallLimit ∧ (s.answerResume k code).inReset = s.inReset ∧
    (s.answerResume k code).pending = s.pending ∧ (s.answerResume k code).up = s.up ∧
    (s.answerResume k code).dir = s.dir ∧ (s.answerResume k code).eng = s.eng ∧
    (s.answerResume k code).pool = s.pool ∧ (s.answerResume k code).au = s.au := by
  unfold State.answerResume
  simp

@[simp] theorem answerProbes_frame (i : Slot) (code : ResultCode) :
    (s.answerProbes i code).hm = s.hm ∧ (s.answerProbes i code).mp = s.mp ∧ (s.answerProbes i code).pu = s.pu ∧
    (s.answerProbes i code).stallLimit = s.stallLimit ∧ (s.answerProbes i code).inReset = s.inReset ∧
    (s.answerProbes i code).pending = s.pending ∧ (s.answerProbes i code).up = s.up ∧
    (s.answerProbes i code).dir = s.dir ∧ (s.answerProbes i code).eng = s.eng ∧
    (s.answerProbes i code).pool = s.pool ∧ (s.answerProbes i code).au = s.au := by
  unfold State.answerProbes
  simp

@[simp] theorem answerQueuedProbes_frame (i : Slot) (code : ResultCode) :
    (s.answerQueuedProbes i code).hm = s.hm ∧ (s.answerQueuedProbes i code).mp = s.mp ∧
    (s.answerQueuedProbes i code).pu = s.pu ∧ (s.answerQueuedProbes i code).stallLimit = s.stallLimit ∧
    (s.answerQueuedProbes i code).inReset = s.inReset ∧ (s.answerQueuedProbes i code).pending = s.pending ∧
    (s.answerQueuedProbes i code).up = s.up ∧ (s.answerQueuedProbes i code).dir = s.dir ∧
    (s.answerQueuedProbes i code).eng = s.eng ∧ (s.answerQueuedProbes i code).pool = s.pool ∧
    (s.answerQueuedProbes i code).au = s.au := by
  unfold State.answerQueuedProbes
  simp

@[simp] theorem answerRetires_frame (i : Slot) :
    (s.answerRetires i).hm = s.hm ∧ (s.answerRetires i).mp = s.mp ∧ (s.answerRetires i).pu = s.pu ∧
    (s.answerRetires i).stallLimit = s.stallLimit ∧ (s.answerRetires i).inReset = s.inReset ∧
    (s.answerRetires i).pending = s.pending ∧ (s.answerRetires i).up = s.up ∧ (s.answerRetires i).dir = s.dir ∧
    (s.answerRetires i).eng = s.eng ∧ (s.answerRetires i).pool = s.pool ∧ (s.answerRetires i).au = s.au := by
  unfold State.answerRetires
  simp

@[simp] theorem freeSlot_frame (i : Slot) :
    (s.freeSlot i).hm = s.hm ∧ (s.freeSlot i).mp = s.mp ∧ (s.freeSlot i).pu = s.pu ∧
    (s.freeSlot i).stallLimit = s.stallLimit ∧ (s.freeSlot i).inReset = s.inReset ∧
    (s.freeSlot i).pending = s.pending ∧ (s.freeSlot i).pool = s.pool := by
  unfold State.freeSlot
  split
  · simp
  · simp

@[simp] theorem retireCheck_frame (i : Slot) :
    (s.retireCheck i).hm = s.hm ∧ (s.retireCheck i).mp = s.mp ∧ (s.retireCheck i).pu = s.pu ∧
    (s.retireCheck i).stallLimit = s.stallLimit ∧ (s.retireCheck i).inReset = s.inReset ∧
    (s.retireCheck i).pending = s.pending ∧ (s.retireCheck i).pool = s.pool := by
  unfold State.retireCheck
  split
  · split <;> simp
  · simp

@[simp] theorem retireChecks_frame (es : List Entry) :
    (s.retireChecks es).hm = s.hm ∧ (s.retireChecks es).mp = s.mp ∧ (s.retireChecks es).pu = s.pu ∧
    (s.retireChecks es).stallLimit = s.stallLimit ∧ (s.retireChecks es).inReset = s.inReset ∧
    (s.retireChecks es).pending = s.pending ∧ (s.retireChecks es).pool = s.pool := by
  induction es generalizing s with
  | nil => simp [State.retireChecks]
  | cons e rest ih => simp [State.retireChecks, ih]

@[simp] theorem purgeAndRetire_frame (k : Seg) (covers : Entry → Bool) :
    (s.purgeAndRetire k covers).hm = s.hm ∧ (s.purgeAndRetire k covers).mp = s.mp ∧
    (s.purgeAndRetire k covers).pu = s.pu ∧ (s.purgeAndRetire k covers).stallLimit = s.stallLimit ∧
    (s.purgeAndRetire k covers).inReset = s.inReset ∧ (s.purgeAndRetire k covers).pending = s.pending := by
  unfold State.purgeAndRetire
  simp

@[simp] theorem leaveBound_frame (i : Slot) (k : Seg) (purges : Bool) :
    (s.leaveBound i k purges).hm = s.hm ∧ (s.leaveBound i k purges).mp = s.mp ∧
    (s.leaveBound i k purges).pu = s.pu ∧ (s.leaveBound i k purges).stallLimit = s.stallLimit ∧
    (s.leaveBound i k purges).inReset = s.inReset ∧ (s.leaveBound i k purges).pending = s.pending ∧
    (s.leaveBound i k purges).dc = s.dc := by
  unfold State.leaveBound
  dsimp only
  split <;> simp

@[simp] theorem moveRec_frame (i : Slot) (f : Record → Record) :
    (s.moveRec i f).hm = s.hm ∧ (s.moveRec i f).mp = s.mp ∧ (s.moveRec i f).pu = s.pu ∧
    (s.moveRec i f).stallLimit = s.stallLimit ∧ (s.moveRec i f).inReset = s.inReset ∧
    (s.moveRec i f).pending = s.pending ∧ (s.moveRec i f).dc = s.dc := by
  unfold State.moveRec
  split
  · simp
  · dsimp only
    split <;> simp

@[simp] theorem charge_frame (i : Slot) :
    (s.charge i).hm = s.hm ∧ (s.charge i).mp = s.mp ∧ (s.charge i).pu = s.pu ∧
    (s.charge i).stallLimit = s.stallLimit ∧ (s.charge i).inReset = s.inReset ∧
    (s.charge i).pending = s.pending ∧ (s.charge i).dc = s.dc := by
  unfold State.charge
  split
  · split
    · split <;> simp
    · simp
  · simp

@[simp] theorem usedClaim_frame (i : Slot) :
    (s.usedClaim i).hm = s.hm ∧ (s.usedClaim i).mp = s.mp ∧ (s.usedClaim i).pu = s.pu ∧
    (s.usedClaim i).stallLimit = s.stallLimit ∧ (s.usedClaim i).inReset = s.inReset ∧
    (s.usedClaim i).pending = s.pending ∧ (s.usedClaim i).up = s.up ∧ (s.usedClaim i).eng = s.eng ∧
    (s.usedClaim i).pool = s.pool ∧ (s.usedClaim i).dc = s.dc ∧ (s.usedClaim i).au = s.au := by
  unfold State.usedClaim
  simp

@[simp] theorem clearMarker_frame (i : Slot) :
    (s.clearMarker i).hm = s.hm ∧ (s.clearMarker i).mp = s.mp ∧ (s.clearMarker i).pu = s.pu ∧
    (s.clearMarker i).stallLimit = s.stallLimit ∧ (s.clearMarker i).inReset = s.inReset ∧
    (s.clearMarker i).pending = s.pending ∧ (s.clearMarker i).up = s.up ∧ (s.clearMarker i).eng = s.eng ∧
    (s.clearMarker i).pool = s.pool ∧ (s.clearMarker i).dc = s.dc ∧ (s.clearMarker i).au = s.au := by
  unfold State.clearMarker
  simp

@[simp] theorem absenceExpiry_frame (i : Slot) :
    (s.absenceExpiry i).hm = s.hm ∧ (s.absenceExpiry i).mp = s.mp ∧ (s.absenceExpiry i).pu = s.pu ∧
    (s.absenceExpiry i).stallLimit = s.stallLimit ∧ (s.absenceExpiry i).inReset = s.inReset ∧
    (s.absenceExpiry i).pending = s.pending ∧ (s.absenceExpiry i).pool = s.pool := by
  unfold State.absenceExpiry
  split
  · split
    · split <;> simp
    · simp
  · simp

@[simp] theorem afterEnd_frame (i : Slot) :
    (s.afterEnd i).hm = s.hm ∧ (s.afterEnd i).mp = s.mp ∧ (s.afterEnd i).pu = s.pu ∧
    (s.afterEnd i).stallLimit = s.stallLimit ∧ (s.afterEnd i).inReset = s.inReset ∧
    (s.afterEnd i).pending = s.pending ∧ (s.afterEnd i).pool = s.pool := by
  unfold State.afterEnd
  dsimp only
  split
  · split <;> simp
  · simp

@[simp] theorem refuseProbe_frame (i : Slot) :
    (s.refuseProbe i).hm = s.hm ∧ (s.refuseProbe i).mp = s.mp ∧ (s.refuseProbe i).pu = s.pu ∧
    (s.refuseProbe i).stallLimit = s.stallLimit ∧ (s.refuseProbe i).inReset = s.inReset ∧
    (s.refuseProbe i).pending = s.pending ∧ (s.refuseProbe i).up = s.up ∧ (s.refuseProbe i).eng = s.eng ∧
    (s.refuseProbe i).pool = s.pool ∧ (s.refuseProbe i).au = s.au := by
  unfold State.refuseProbe
  simp

@[simp] theorem requestProbe_frame (i : Slot) :
    (s.requestProbe i).hm = s.hm ∧ (s.requestProbe i).mp = s.mp ∧ (s.requestProbe i).pu = s.pu ∧
    (s.requestProbe i).stallLimit = s.stallLimit ∧ (s.requestProbe i).inReset = s.inReset ∧
    (s.requestProbe i).pending = s.pending ∧ (s.requestProbe i).up = s.up ∧ (s.requestProbe i).pool = s.pool ∧
    (s.requestProbe i).au = s.au := by
  unfold State.requestProbe
  split
  · split <;> simp
  · simp

@[simp] theorem requestProbes_frame (es : List Slot) :
    (s.requestProbes es).hm = s.hm ∧ (s.requestProbes es).mp = s.mp ∧ (s.requestProbes es).pu = s.pu ∧
    (s.requestProbes es).stallLimit = s.stallLimit ∧ (s.requestProbes es).inReset = s.inReset ∧
    (s.requestProbes es).pending = s.pending ∧ (s.requestProbes es).up = s.up ∧
    (s.requestProbes es).pool = s.pool ∧ (s.requestProbes es).au = s.au := by
  induction es generalizing s with
  | nil => simp [State.requestProbes]
  | cons e rest ih => simp [State.requestProbes, ih]

@[simp] theorem refuseProbes_frame (es : List Slot) :
    (s.refuseProbes es).hm = s.hm ∧ (s.refuseProbes es).mp = s.mp ∧ (s.refuseProbes es).pu = s.pu ∧
    (s.refuseProbes es).stallLimit = s.stallLimit ∧ (s.refuseProbes es).inReset = s.inReset ∧
    (s.refuseProbes es).pending = s.pending ∧ (s.refuseProbes es).up = s.up ∧ (s.refuseProbes es).eng = s.eng ∧
    (s.refuseProbes es).pool = s.pool ∧ (s.refuseProbes es).au = s.au := by
  induction es generalizing s with
  | nil => simp [State.refuseProbes]
  | cons e rest ih => simp [State.refuseProbes, ih]

@[simp] theorem endDiscovery_frame (k : Seg) (code : ResultCode) :
    (s.endDiscovery k code).hm = s.hm ∧ (s.endDiscovery k code).mp = s.mp ∧ (s.endDiscovery k code).pu = s.pu ∧
    (s.endDiscovery k code).stallLimit = s.stallLimit ∧ (s.endDiscovery k code).inReset = s.inReset ∧
    (s.endDiscovery k code).pending = s.pending ∧ (s.endDiscovery k code).up = s.up ∧
    (s.endDiscovery k code).dir = s.dir ∧ (s.endDiscovery k code).pool = s.pool ∧
    (s.endDiscovery k code).au = s.au := by
  unfold State.endDiscovery
  split <;> simp

@[simp] theorem enterPaused_frame (k : Seg) :
    (s.enterPaused k).hm = s.hm ∧ (s.enterPaused k).mp = s.mp ∧ (s.enterPaused k).pu = s.pu ∧
    (s.enterPaused k).stallLimit = s.stallLimit ∧ (s.enterPaused k).inReset = s.inReset ∧
    (s.enterPaused k).pending = s.pending ∧ (s.enterPaused k).dir = s.dir ∧ (s.enterPaused k).pool = s.pool ∧
    (s.enterPaused k).au = s.au := by
  unfold State.enterPaused
  simp

@[simp] theorem releaseBus_frame (k : Seg) :
    (s.releaseBus k).hm = s.hm ∧ (s.releaseBus k).mp = s.mp ∧ (s.releaseBus k).pu = s.pu ∧
    (s.releaseBus k).stallLimit = s.stallLimit ∧ (s.releaseBus k).inReset = s.inReset ∧
    (s.releaseBus k).pending = s.pending ∧ (s.releaseBus k).dir = s.dir ∧ (s.releaseBus k).pool = s.pool ∧
    (s.releaseBus k).au = s.au := by
  unfold State.releaseBus
  split <;> simp

@[simp] theorem enterRecovering_frame (k : Seg) :
    (s.enterRecovering k).hm = s.hm ∧ (s.enterRecovering k).mp = s.mp ∧ (s.enterRecovering k).pu = s.pu ∧
    (s.enterRecovering k).stallLimit = s.stallLimit ∧ (s.enterRecovering k).inReset = s.inReset ∧
    (s.enterRecovering k).pending = s.pending ∧ (s.enterRecovering k).up = s.up ∧
    (s.enterRecovering k).dir = s.dir ∧ (s.enterRecovering k).pool = s.pool ∧ (s.enterRecovering k).dc = s.dc ∧
    (s.enterRecovering k).au = s.au := by
  unfold State.enterRecovering
  simp

@[simp] theorem enterFailed_frame (k : Seg) :
    (s.enterFailed k).hm = s.hm ∧ (s.enterFailed k).mp = s.mp ∧ (s.enterFailed k).pu = s.pu ∧
    (s.enterFailed k).stallLimit = s.stallLimit ∧ (s.enterFailed k).inReset = s.inReset ∧
    (s.enterFailed k).pending = s.pending := by
  unfold State.enterFailed
  simp

@[simp] theorem requestEnd_frame (k : Seg) :
    (s.requestEnd k).hm = s.hm ∧ (s.requestEnd k).mp = s.mp ∧ (s.requestEnd k).pu = s.pu ∧
    (s.requestEnd k).stallLimit = s.stallLimit ∧ (s.requestEnd k).inReset = s.inReset ∧
    (s.requestEnd k).pending = s.pending ∧ (s.requestEnd k).up = s.up ∧ (s.requestEnd k).dir = s.dir ∧
    (s.requestEnd k).pool = s.pool ∧ (s.requestEnd k).dc = s.dc ∧ (s.requestEnd k).au = s.au := by
  unfold State.requestEnd
  simp

@[simp] theorem requestEndOpen_frame :
    (s.requestEndOpen).hm = s.hm ∧ (s.requestEndOpen).mp = s.mp ∧ (s.requestEndOpen).pu = s.pu ∧
    (s.requestEndOpen).stallLimit = s.stallLimit ∧ (s.requestEndOpen).inReset = s.inReset ∧
    (s.requestEndOpen).pending = s.pending ∧ (s.requestEndOpen).up = s.up ∧ (s.requestEndOpen).dir = s.dir ∧
    (s.requestEndOpen).pool = s.pool ∧ (s.requestEndOpen).dc = s.dc ∧ (s.requestEndOpen).au = s.au := by
  unfold State.requestEndOpen
  split <;> simp

/-- Reading an engine, a slot or a pool segment through the state's parts. -/
theorem engine_of_eng {s t : State} (h : t.eng = s.eng) (k : Seg) : t.engine k = s.engine k := by simp [State.engine, h]
theorem recAt_of_dir {s t : State} (h : t.dir = s.dir) (i : Slot) : t.recAt i = s.recAt i := by simp [State.recAt, h]
theorem poolSeg_of_pool {s t : State} (h : t.pool = s.pool) (k : Seg) : t.poolSeg k = s.poolSeg k := by simp [State.poolSeg, h]
theorem isProtected_of_pu {s t : State} (h : t.pu = s.pu) (i : Slot) : t.isProtected i = s.isProtected i := by
  simp [State.isProtected, h]

@[simp] theorem engine_modRec (i : Slot) (f : Record → Record) (k : Seg) : (s.modRec i f).engine k = s.engine k :=
  engine_of_eng (by simp) k
@[simp] theorem poolSeg_modRec (i : Slot) (f : Record → Record) (k : Seg) : (s.modRec i f).poolSeg k = s.poolSeg k :=
  poolSeg_of_pool (by simp) k
@[simp] theorem isProtected_modRec (i j : Slot) (f : Record → Record) :
    (s.modRec i f).isProtected j = s.isProtected j :=
  isProtected_of_pu (by simp) j

@[simp] theorem leaveQueue_frame (i : Slot) (old new : Seg) :
    (s.leaveQueue i old new).hm = s.hm ∧ (s.leaveQueue i old new).mp = s.mp ∧ (s.leaveQueue i old new).pu = s.pu ∧
    (s.leaveQueue i old new).stallLimit = s.stallLimit ∧ (s.leaveQueue i old new).inReset = s.inReset ∧
    (s.leaveQueue i old new).pending = s.pending ∧ (s.leaveQueue i old new).up = s.up ∧
    (s.leaveQueue i old new).dir = s.dir ∧ (s.leaveQueue i old new).pool = s.pool ∧
    (s.leaveQueue i old new).dc = s.dc ∧ (s.leaveQueue i old new).au = s.au := by
  unfold State.leaveQueue
  split <;> simp

/-! ### The answers to a waiting forward request (R42) -/

theorem upNak_answers : NotAcknowledged s.up s.upNak.up := rfl

theorem upStandIn_answers : AnsweredByStandIn s.up s.upStandIn.up := by
  unfold AnsweredByStandIn
  cases ha : s.up.ctx.answer with
  | none =>
    have e : s.upStandIn = s.upNak := by simp [State.upStandIn, ha]
    rw [e]
    exact upNak_answers s
  | some a =>
    obtain ⟨p, f⟩ := a
    cases hd : s.up.ctx.address with
    | none =>
      have e : s.upStandIn = s.upNak := by simp [State.upStandIn, hd]
      rw [e]
      cases p <;> exact upNak_answers s
    | some x =>
      obtain ⟨b, d⟩ := x
      cases p with
      | refuse =>
        have e : s.upStandIn = s.upNak := by simp [State.upStandIn, ha]
        rw [e]
        exact upNak_answers s
      | fill =>
        simp only [State.upStandIn, ha, hd]
        cases d <;> rfl

/-- What a withdrawal leaves: no request, and UP answered as R42 says. -/
theorem withdraw_request (k : Seg) (how : Withdrawal) :
    RequestAfter s s.up (s.withdraw k how) k (fun _ => True) (how = .nak) := by
  unfold RequestAfter State.withdraw
  cases h : (s.engine k).request with
  | none => exact ⟨h, rfl⟩
  | some q =>
    refine ⟨fun g => absurd trivial g, fun _ => ?_⟩
    dsimp only
    cases hs : q.slot with
    | none =>
      refine ⟨?_, fun _ => upNak_answers (s.modEngine k fun e => { e with request := none }), fun g => absurd rfl g⟩
      simp [State.engine, State.modEngine]
    | some i =>
      cases how with
      | standIn =>
        refine ⟨?_, by simp, fun _ _ => upStandIn_answers (s.modEngine k fun e => { e with request := none })⟩
        simp [State.engine, State.modEngine]
      | nak =>
        refine ⟨?_, fun _ => upNak_answers (s.modEngine k fun e => { e with request := none }), by simp⟩
        simp [State.engine, State.modEngine]

/-! ### The captures of a STATUS frame (R164) -/

/-- The first stretch of a STATUS frame captures the word as it stands, once for each repetition begun. -/
@[simp] theorem stretch_first (m : MdoShift) (n : Nat) (word : BitVec 16) :
    m.stretch ⟨n, false⟩ word = .status (List.replicate ((n + 15) / 16) word) n := by
  simp [MdoShift.stretch, statusShift]

@[simp] theorem stretch_onward (words : List (BitVec 16)) (bits n : Nat) (word : BitVec 16) :
    (MdoShift.status words bits).stretch ⟨n, true⟩ word = statusShift words bits n word := rfl

/-- After a frame other than STATUS there is nothing to go on with. -/
theorem stretch_of_other (m : MdoShift) (n : Nat) (word : BitVec 16) (h : ∀ words bits, m ≠ .status words bits) :
    m.stretch ⟨n, true⟩ word = m := by
  cases m with
  | status words bits => exact absurd rfl (h words bits)
  | bytes b => rfl
  | zeros => rfl

/-- Every repetition begun has one capture, if that held before the stretch. -/
theorem statusShift_captures {words : List (BitVec 16)} {bits : Nat} (h : words.length = (bits + 15) / 16) (more : Nat)
    (word : BitVec 16) :
    ∃ captures, statusShift words bits more word = .status captures (bits + more) ∧
      captures.length = (bits + more + 15) / 16 ∧ words <+: captures :=
  ⟨_, rfl, by simp only [List.length_append, List.length_replicate]; omega, List.prefix_append ..⟩

/-! ### The clock of a segment (R59, R65) -/

theorem BusStep.released_iff (b : BusStep) : b.released = true ↔ b ≠ .waitUp ∧ ∀ byte, b ≠ .hold byte := by
  cases b <;> simp [BusStep.released]

@[simp] theorem BusStep.closing_released (b : BusStep) : b.closing.released = true := by cases b <;> rfl

/-- All that a hold found in the clock does: the timer of this engine runs if it may, and nothing else changes. -/
theorem clockHeld_cases (k : Seg) :
    s.clockHeld k = s ∨
    (s.engine k).stall = none ∧ (∃ x, (s.engine k).tx = some x ∧ x.step.released = true) ∧
      s.clockHeld k = s.modEngine k fun e => { e with stall := s.stallStart } := by
  unfold State.clockHeld
  split
  · split
    · exact .inr ⟨by assumption, ⟨_, by assumption, by assumption⟩, rfl⟩
    · exact .inl rfl
  · exact .inl rfl

/-- A stopped timer does not expire. -/
theorem takeStall_stopped (k : Seg) (low : LowLines) (h : (s.engine k).stall = none) : s.takeStall k low = s := by
  unfold State.takeStall
  split
  · simp_all
  · rfl

end Sys2Proof.Machine
end

