-- ==== Sys2Proof/Laws/Arbiter.lean ====
section
/-! SUPPORT. Laws/Arbiter.lean: what a choice of the arbiters can change, and what the end of an event does. -/

namespace Sys2Proof.Machine

variable (s : State)

/-! ### Records up to their markers -/

@[simp] theorem Record.unmarked_marker (r : Record) (m : Marker) :
    { r with marker := m }.unmarked = r.unmarked := rfl

theorem modRec_marker_unmarked (i j : Slot) (m : Marker) :
    ((s.modRec i fun r => { r with marker := m }).recAt j).map Record.unmarked =
      (s.recAt j).map Record.unmarked := by
  rw [recAt_modRec]
  split
  · rename_i e
    subst e
    cases s.recAt i <;> rfl
  · rfl

@[simp] theorem lookupAlias_modRec (i : Slot) (f : Record → Record) (a : Addr) :
    (s.modRec i f).lookupAlias a = s.lookupAlias a := by
  unfold State.modRec; split <;> rfl

/-! ### Operations up to their notes -/

/-- The works and tags of DC's operations, in order, without the notes of PROBEs. -/
def State.opList (s : State) : List (LongWork × Byte) := s.dc.ops.map fun o => (o.work.unnoted, o.tag)

theorem opList_of_dc {s t : State} (h : t.dc = s.dc) : t.opList = s.opList := by simp [State.opList, h]

@[simp] theorem opList_settleOps (f : LongOp → Option Response) : (s.settleOps f).opList = s.opList := by
  unfold State.opList State.settleOps
  simp only [setDc_dc, List.map_map]
  apply List.map_congr_left
  intro o _
  simp only [Function.comp]
  split <;> rfl

@[simp] theorem opList_moveNotes (i : Slot) (b : Bool) : (s.moveNotes i b).opList = s.opList := by
  unfold State.opList State.moveNotes
  simp only [setDc_dc, List.map_map]
  apply List.map_congr_left
  intro o _
  simp only [Function.comp]
  split
  · rename_i h
    split
    · rename_i e
      subst e
      simp [h, LongWork.unnoted]
    · rfl
  · rfl

@[simp] theorem opList_endDiscovery (k : Seg) (c : ResultCode) : (s.endDiscovery k c).opList = s.opList := by
  unfold State.endDiscovery
  split
  · rfl
  · rw [opList_settleOps]
    rfl

/-! ### The parts of a choice -/

@[simp] theorem putOnBus_frame (k : Seg) (t : Tx) :
    (s.putOnBus k t).up = s.up ∧ (s.putOnBus k t).dir = s.dir ∧ (s.putOnBus k t).pool = s.pool ∧
    (s.putOnBus k t).dc = s.dc ∧ (s.putOnBus k t).au = s.au ∧ (s.putOnBus k t).hm = s.hm ∧
    (s.putOnBus k t).mp = s.mp ∧ (s.putOnBus k t).pu = s.pu ∧ (s.putOnBus k t).stallLimit = s.stallLimit ∧
    (s.putOnBus k t).inReset = s.inReset ∧ (s.putOnBus k t).pending = s.pending := by
  simp [State.putOnBus]

@[simp] theorem beginWork_frame (k : Seg) (x : Work) :
    (s.beginWork k x).pool = s.pool ∧ (s.beginWork k x).au = s.au ∧ (s.beginWork k x).hm = s.hm ∧
    (s.beginWork k x).mp = s.mp ∧ (s.beginWork k x).pu = s.pu ∧ (s.beginWork k x).stallLimit = s.stallLimit ∧
    (s.beginWork k x).inReset = s.inReset ∧ (s.beginWork k x).pending = s.pending ∧
    (s.beginWork k x).dir.aliasIndex = s.dir.aliasIndex := by
  cases x <;> simp only [State.beginWork]
  · split <;> simp
  · simp
  · simp

theorem beginWork_up (k : Seg) (x : Work) :
    (s.beginWork k x).up = s.up ∨ (s.beginWork k x).up = { s.up with ctx := { s.up.ctx with downOpen := some k } } := by
  cases x <;> simp only [State.beginWork]
  · right; split <;> simp
  · left; simp
  · left; simp

theorem beginWork_unmarked (k : Seg) (x : Work) (j : Slot) :
    ((s.beginWork k x).recAt j).map Record.unmarked = (s.recAt j).map Record.unmarked := by
  cases x <;> simp only [State.beginWork]
  · split
    · rw [modRec_marker_unmarked]; simp
    · simp
  · rw [modRec_marker_unmarked]
  · rw [modRec_marker_unmarked]; simp

@[simp] theorem opList_beginWork (k : Seg) (x : Work) : (s.beginWork k x).opList = s.opList := by
  cases x <;> simp only [State.beginWork]
  · split <;> (apply opList_of_dc; simp)
  · apply opList_of_dc; simp
  · rename_i i r
    refine (opList_of_dc (s := (s.modEngine k fun e => { e with probeQueue := e.probeQueue.erase i }).moveNotes i true)
      (by simp)).trans ?_
    rw [opList_moveNotes]
    rfl

theorem beginWork_engine (k j : Seg) (h : j ≠ k) (x : Work) : (s.beginWork k x).engine j = s.engine j := by
  cases x <;> simp only [State.beginWork]
  · split <;> simp [engine_modEngine, h]
  · simp
  · simp [engine_modEngine, h]

@[simp] theorem offerDiscovery_frame (k : Seg) (low : LowLines) :
    (s.offerDiscovery k low).up = s.up ∧ (s.offerDiscovery k low).dir = s.dir ∧
    (s.offerDiscovery k low).pool = s.pool ∧ (s.offerDiscovery k low).au = s.au ∧
    (s.offerDiscovery k low).hm = s.hm ∧ (s.offerDiscovery k low).mp = s.mp ∧
    (s.offerDiscovery k low).pu = s.pu ∧ (s.offerDiscovery k low).stallLimit = s.stallLimit ∧
    (s.offerDiscovery k low).inReset = s.inReset ∧ (s.offerDiscovery k low).pending = s.pending := by
  unfold State.offerDiscovery
  split
  · simp
  · dsimp only
    split
    · simp
    · split <;> simp

@[simp] theorem opList_offerDiscovery (k : Seg) (low : LowLines) : (s.offerDiscovery k low).opList = s.opList := by
  unfold State.offerDiscovery
  split
  · rfl
  · dsimp only
    split
    · rw [opList_endDiscovery]; rfl
    · split <;> (apply opList_of_dc; simp)

theorem endDiscovery_engine_other {k j : Seg} (h : j ≠ k) (c : ResultCode) :
    (s.endDiscovery k c).engine j = s.engine j := by
  unfold State.endDiscovery
  split
  · rfl
  · rw [engine_settleOps, engine_modEngine_other _ h]

theorem offerDiscovery_engine {k j : Seg} (h : j ≠ k) (low : LowLines) :
    (s.offerDiscovery k low).engine j = s.engine j := by
  unfold State.offerDiscovery
  split
  · rfl
  · dsimp only
    split
    · rw [endDiscovery_engine_other _ h, engine_modEngine_other _ h]
    · split
      · simp only [State.enterRecovering]
        rw [engine_modEngine_other _ h, engine_modEngine_other _ h]
      · simp only [State.putOnBus]
        rw [engine_modEngine_other _ h, engine_modEngine_other _ h]

/-! ### A choice, and the choices of all engines -/

/-- The parts of the state no arbiter changes. -/
@[simp] theorem arbitrate_frame (low : LowLines) (k : Seg) :
    (s.arbitrate low k).pool = s.pool ∧ (s.arbitrate low k).au = s.au ∧ (s.arbitrate low k).hm = s.hm ∧
    (s.arbitrate low k).mp = s.mp ∧ (s.arbitrate low k).pu = s.pu ∧
    (s.arbitrate low k).stallLimit = s.stallLimit ∧ (s.arbitrate low k).inReset = s.inReset ∧
    (s.arbitrate low k).pending = s.pending ∧ (s.arbitrate low k).dir.aliasIndex = s.dir.aliasIndex := by
  unfold State.arbitrate
  split
  · split
    · split <;> simp
    · simp
  · simp

/-- A choice of one engine changes only what its arbiter may. -/
theorem arbitrate_onlyArbiters (low : LowLines) (k : Seg) : OnlyArbiters s (s.arbitrate low k) := by
  by_cases hi : (s.engine k).state = .idle
  case neg =>
    have : s.arbitrate low k = s := by simp [State.arbitrate, hi]
    rw [this]
    exact ⟨fun _ => rfl, rfl, rfl, rfl, rfl, rfl, fun _ _ => rfl, rfl, rfl, rfl, rfl, rfl, rfl, rfl, rfl, rfl⟩
  obtain ⟨h1, h2, h3, h4, h5, h6, h7, h8, h9⟩ := arbitrate_frame s low k
  refine ⟨?_, h9, ?_, ?_, ?_, ?_, ?_, ?_, h6, h1, h3, h4, h5, h2, h7, h8⟩
  · intro i
    simp only [State.arbitrate, hi, if_true]
    split
    · split
      · simp [recAt_of_dir (s := s)]
      · rename_i x _ _
        rw [recAt_of_dir (s := s.beginWork k x) (by simp), beginWork_unmarked]
    · simp [recAt_of_dir (s := s)]
  · simp only [State.arbitrate, hi, if_true]
    split
    · split
      · simp
      · rename_i x _ _
        simp only [putOnBus_frame]
        rcases beginWork_up s k x with h | h <;> rw [h]
    · simp
  · simp only [State.arbitrate, hi, if_true]
    split
    · split
      · simp
      · rename_i x _ _
        simp only [putOnBus_frame]
        rcases beginWork_up s k x with h | h <;> rw [h]
    · simp
  · simp only [State.arbitrate, hi, if_true]
    split
    · split
      · simp
      · rename_i x _ _
        simp only [putOnBus_frame]
        rcases beginWork_up s k x with h | h <;> rw [h]
    · simp
  · simp only [State.arbitrate, hi, if_true]
    split
    · split
      · simp
      · rename_i x _ _
        simp only [putOnBus_frame]
        rcases beginWork_up s k x with h | h <;> rw [h]
    · simp
  · intro j hj
    have hjk : j ≠ k := fun e => hj (e ▸ hi)
    simp only [State.arbitrate, hi, if_true]
    split
    · split
      · simp only [State.enterRecovering]; rw [engine_modEngine_other _ hjk]
      · simp only [State.putOnBus]; rw [engine_modEngine_other _ hjk, beginWork_engine _ _ _ hjk]
    · rw [offerDiscovery_engine _ hjk]
  · change State.opList _ = State.opList _
    simp only [State.arbitrate, hi, if_true]
    split
    · split
      · exact opList_of_dc (by simp)
      · rename_i x _ _
        rw [opList_of_dc (s := s.beginWork k x) (by simp), opList_beginWork]
    · simp

theorem OnlyArbiters.refl : OnlyArbiters s s :=
  ⟨fun _ => rfl, rfl, rfl, rfl, rfl, rfl, fun _ _ => rfl, rfl, rfl, rfl, rfl, rfl, rfl, rfl, rfl, rfl⟩

/-- An engine that is not IDLE is left alone by a choice, whichever engine chooses. -/
theorem arbitrate_engine_state (low : LowLines) (k j : Seg) (h : (s.engine j).state ≠ .idle) :
    (s.arbitrate low k).engine j = s.engine j :=
  (arbitrate_onlyArbiters s low k).2.2.2.2.2.2.1 j h

theorem OnlyArbiters.trans {a b c : State} (h : OnlyArbiters a b) (g : OnlyArbiters b c) : OnlyArbiters a c := by
  obtain ⟨h1, h2, h3, h4, h5, h6, h7, h8, h9, h10, h11, h12, h13, h14, h15, h16⟩ := h
  obtain ⟨g1, g2, g3, g4, g5, g6, g7, g8, g9, g10, g11, g12, g13, g14, g15, g16⟩ := g
  refine ⟨fun i => (g1 i).trans (h1 i), g2.trans h2, g3.trans h3, g4.trans h4, g5.trans h5, g6.trans h6, ?_,
    g8.trans h8, g9.trans h9, g10.trans h10, g11.trans h11, g12.trans h12, g13.trans h13, g14.trans h14,
    g15.trans h15, g16.trans h16⟩
  intro k hk
  have e := h7 k hk
  rw [g7 k (by rw [e]; exact hk), e]

/-- The choices of all engines change only what arbiters may. -/
theorem arbitrateAll_onlyArbiters (low : LowLines) : OnlyArbiters s (s.arbitrateAll low) :=
  (((arbitrate_onlyArbiters s low 0).trans (arbitrate_onlyArbiters _ low 1)).trans
    (arbitrate_onlyArbiters _ low 2)).trans (arbitrate_onlyArbiters _ low 3)

@[simp] theorem arbitrateAll_frame (low : LowLines) :
    (s.arbitrateAll low).pool = s.pool ∧ (s.arbitrateAll low).au = s.au ∧ (s.arbitrateAll low).hm = s.hm ∧
    (s.arbitrateAll low).mp = s.mp ∧ (s.arbitrateAll low).pu = s.pu ∧
    (s.arbitrateAll low).stallLimit = s.stallLimit ∧ (s.arbitrateAll low).inReset = s.inReset ∧
    (s.arbitrateAll low).pending = s.pending ∧ (s.arbitrateAll low).dir.aliasIndex = s.dir.aliasIndex := by
  simp [State.arbitrateAll]

/-- An engine other than `k` is not touched by `k`'s choice. -/
theorem arbitrate_engine_other (low : LowLines) {k j : Seg} (h : j ≠ k) :
    (s.arbitrate low k).engine j = s.engine j := by
  unfold State.arbitrate
  split
  · split
    · split
      · simp only [State.enterRecovering]; rw [engine_modEngine_other _ h]
      · simp only [State.putOnBus]; rw [engine_modEngine_other _ h, beginWork_engine _ _ _ h]
    · rw [offerDiscovery_engine _ h]
  · rfl

/-- With nothing for an IDLE engine to do, its choice changes nothing. -/
theorem arbitrate_quiet (low : LowLines) (k : Seg)
    (h : (s.engine k).state = .idle → s.chooseWork k = none ∧ (s.engine k).discovery = none) :
    s.arbitrate low k = s := by
  unfold State.arbitrate
  split
  · rename_i hi
    obtain ⟨hw, hd⟩ := h hi
    simp [hw, State.offerDiscovery, hd]
  · rfl

/-! ### The end of an event -/

/-- The alert lines and ATTN stand at their levels after the end of an event (R178, R180). -/
theorem evaluate_lines : s.evaluate.LinesLaw := ⟨rfl, rfl⟩

theorem conclude_lines : s.conclude.LinesLaw := evaluate_lines _

theorem settle_lines (low : LowLines) : (s.settle low).LinesLaw := evaluate_lines _

@[simp] theorem conclude_frame :
    s.conclude.up = s.up ∧ s.conclude.dir = s.dir ∧ s.conclude.eng = s.eng ∧ s.conclude.pool = s.pool ∧
    s.conclude.hm = s.hm ∧ s.conclude.pu = s.pu ∧ s.conclude.stallLimit = s.stallLimit ∧
    s.conclude.inReset = s.inReset ∧ s.conclude.pending = s.pending := by
  simp [State.conclude]

@[simp] theorem concludeWith_frame (r : Response) :
    (s.concludeWith r).up = s.up ∧ (s.concludeWith r).dir = s.dir ∧ (s.concludeWith r).eng = s.eng ∧
    (s.concludeWith r).pool = s.pool ∧ (s.concludeWith r).hm = s.hm ∧ (s.concludeWith r).pu = s.pu ∧
    (s.concludeWith r).stallLimit = s.stallLimit ∧ (s.concludeWith r).inReset = s.inReset ∧
    (s.concludeWith r).pending = s.pending := by
  simp [State.concludeWith]

@[simp] theorem settle_frame (low : LowLines) :
    (s.settle low).pool = s.pool ∧ (s.settle low).hm = s.hm ∧ (s.settle low).pu = s.pu ∧
    (s.settle low).stallLimit = s.stallLimit ∧ (s.settle low).inReset = s.inReset ∧
    (s.settle low).pending = s.pending ∧ (s.settle low).dir.aliasIndex = s.dir.aliasIndex := by
  simp [State.settle]

@[simp] theorem settleWith_frame (low : LowLines) (r : Response) :
    (s.settleWith low r).pool = s.pool ∧ (s.settleWith low r).hm = s.hm ∧ (s.settleWith low r).pu = s.pu ∧
    (s.settleWith low r).stallLimit = s.stallLimit ∧ (s.settleWith low r).inReset = s.inReset ∧
    (s.settleWith low r).pending = s.pending ∧ (s.settleWith low r).dir.aliasIndex = s.dir.aliasIndex := by
  simp [State.settleWith]

/-- The answers of the event leave DC's set and join the response queue in the order of taking (R132). -/
theorem deliver_dc : s.deliver.dc.ops = s.dc.ops.filter fun o => o.answer.isNone := rfl

theorem deliver_mp : s.deliver.mp = { s.mp with responses := s.mp.responses ++ s.dc.ops.filterMap fun o => o.answer } := rfl

/-- After the end of an event no operation holds an answer. -/
theorem conclude_noAnswer : s.conclude.NoAnswerHeld := by
  intro o ho
  have : o ∈ s.dc.ops.filter fun o => o.answer.isNone := ho
  simpa using (List.mem_filter.mp this).2

end Sys2Proof.Machine
end

