-- ==== Sys2Proof/Laws/Operands.lean ====
section
/-! SUPPORT. Laws/Operands.lean: what the selection pairs of an EDIT decode to (R185): one fact of one pair, and from
it, by induction on the pairs, which lists are refused and which field each pair selects. -/

namespace Sys2Proof.Machine

/-- The selection pairs as the bytes of a command. -/
def pairBytes (pairs : List (Byte × Byte)) : List Byte := pairs.flatMap fun p => [p.1, p.2]

/-- The field a pair names, by the first of its codes; 0x00 for an unused pair. -/
def pairField (p : Byte × Byte) : Byte := if p.1 = 0x06 then 0x05 else if p.1 = 0x09 then 0x08 else p.1

/-- A pair with a field code or a value out of range. -/
def pairBad (p : Byte × Byte) : Prop :=
  0x0B ≤ p.1.toNat ∨ (p.1 ∈ [(0x01 : Byte), 0x02, 0x04, 0x07] ∧ 2 ≤ p.2.toNat) ∨ (p.1 = 0x0A ∧ p.2 = 0x00)

/-- The field is selected already. -/
def Selection.has (sel : Selection) (f : Byte) : Bool :=
  match f.toNat with
  | 0x01 => sel.cls.isSome
  | 0x02 => sel.policy.isSome
  | 0x03 => sel.fill.isSome
  | 0x04 => sel.posting.isSome
  | 0x05 => sel.probeReg.isSome
  | 0x07 => sel.frozen.isSome
  | 0x08 => sel.identity.isSome
  | 0x0A => sel.threshold.isSome
  | _ => false

/-- The selection agrees with these pairs, added to the selection `old`, field by field. -/
structure Selection.From (old : Selection) (pairs : List (Byte × Byte)) (sel : Selection) : Prop where
  cls : ∀ v, sel.cls = some v ↔ old.cls = some v ∨ (0x01, if v = RecClass.held then 0x01 else 0x00) ∈ pairs
  policy : ∀ v, sel.policy = some v ↔ old.policy = some v ∨ (0x02, if v = Policy.fill then 0x01 else 0x00) ∈ pairs
  fill : ∀ v, sel.fill = some v ↔ old.fill = some v ∨ (0x03, v) ∈ pairs
  posting : ∀ v, sel.posting = some v ↔ old.posting = some v ∨ (0x04, if v then 0x01 else 0x00) ∈ pairs
  probeSet : ∀ v, sel.probeReg = some (some v) ↔ old.probeReg = some (some v) ∨ (0x05, v) ∈ pairs
  probeCleared : sel.probeReg = some none ↔ old.probeReg = some none ∨ ∃ v, (0x06, v) ∈ pairs
  frozen : ∀ v, sel.frozen = some v ↔ old.frozen = some v ∨ (0x07, if v then 0x01 else 0x00) ∈ pairs
  identitySet : ∀ v, sel.identity = some (some v) ↔ old.identity = some (some v) ∨ (0x08, v) ∈ pairs
  identityCleared : sel.identity = some none ↔ old.identity = some none ∨ ∃ v, (0x09, v) ∈ pairs
  threshold : ∀ n, sel.threshold = some n ↔ old.threshold = some n ∨ ∃ v, (0x0A, v) ∈ pairs ∧ v.toNat = n

theorem switchOf_none (b : Byte) : switchOf b = none ↔ 2 ≤ b.toNat := by revert b; decide

theorem switchOf_some (b : Byte) (v : Bool) : switchOf b = some v ↔ b = if v then 0x01 else 0x00 := by
  revert b; cases v <;> decide

theorem positiveOf_none (b : Byte) : positiveOf b = none ↔ b = 0x00 := by revert b; decide

theorem positiveOf_some (b : Byte) (n : Nat) : positiveOf b = some n ↔ b ≠ 0x00 ∧ b.toNat = n := by
  unfold positiveOf
  by_cases h : b = 0 <;> simp [h]

theorem once_none {α : Type} (a v : Option α) : once a v = none ↔ a.isSome = true ∨ v = none := by
  cases a <;> cases v <;> simp [once]

theorem once_some {α : Type} (a v w : Option α) : once a v = some w ↔ a = none ∧ v = w ∧ v.isSome = true := by
  cases a <;> cases v <;> simp [once]

theorem code_eq {c : Byte} {n : Nat} (h : c.toNat = n) : c = BitVec.ofNat 8 n := by
  subst h; simp

/-- A pair is refused exactly when it is out of range or names a field selected already. -/
theorem Selection.add_none (sel : Selection) (c v : Byte) :
    sel.add c v = none ↔ pairBad (c, v) ∨ sel.has (pairField (c, v)) = true := by
  unfold Selection.add
  split <;> rename_i h
  case h_12 =>
    have h1 := c.isLt
    simp only [true_iff]
    left; left
    show 11 ≤ c.toNat
    by_contra hlt
    have : c.toNat < 11 := by omega
    interval_cases hc : c.toNat <;> simp_all
  all_goals
    have hc := code_eq h
    subst hc
    simp [once_none, pairBad, pairField, Selection.has, switchOf_none, positiveOf_none]
  all_goals tauto

/-- A pair that is taken selects its field, as R185's table says, and no other. -/
theorem Selection.add_some (sel : Selection) (c v : Byte) (sel' : Selection) (h : sel.add c v = some sel') :
    Selection.From sel [(c, v)] sel' := by
  unfold Selection.add at h
  split at h <;> rename_i hc
  case h_12 => simp at h
  all_goals
    have hc := code_eq hc
    subst hc
    simp [once_some] at h
  case h_1 => subst h; constructor <;> simp
  all_goals
    obtain ⟨w, hw, rfl⟩ := h
    constructor <;> simp_all
  case h_2.cls => intro u; cases u <;> simp [switchOf_some] <;> exact eq_comm
  case h_3.policy => intro u; cases u <;> simp [switchOf_some] <;> exact eq_comm
  case h_5.posting => simp only [switchOf_some]; exact ⟨eq_comm, eq_comm⟩
  case h_8.frozen => simp only [switchOf_some]; exact ⟨eq_comm, eq_comm⟩
  case h_11.threshold =>
    intro n
    rw [positiveOf_some]
    refine ⟨fun g => g.2, fun g => ⟨fun z => ?_, g⟩⟩
    have : positiveOf v = none := (positiveOf_none v).2 z
    simp [this] at w
  all_goals exact fun u => eq_comm

/-- After a pair is taken its field is selected, and so is each that was. -/
theorem Selection.add_has (sel : Selection) (c v : Byte) (sel' : Selection) (h : sel.add c v = some sel') (f : Byte) :
    sel'.has f = true ↔ sel.has f = true ∨ (f ≠ 0x00 ∧ f = pairField (c, v)) := by
  unfold Selection.add at h
  split at h <;> rename_i hc
  case h_12 => simp at h
  all_goals
    have hc := code_eq hc
    subst hc
    simp [once_some] at h
  case h_1 => subst h; simp [pairField]
  all_goals
    obtain ⟨w, hw, rfl⟩ := h
    simp only [pairField]
    unfold Selection.has
    dsimp only
    split <;> rename_i hf <;> simp_all [← BitVec.toNat_inj]

/-- The fields that the used pairs name. -/
def pairFields (pairs : List (Byte × Byte)) : List Byte := (pairs.map pairField).filter fun f => f != 0x00

theorem decodePairs_cons (sel : Selection) (p : Byte × Byte) (rest : List (Byte × Byte)) :
    decodePairs sel (pairBytes (p :: rest)) = (sel.add p.1 p.2).bind fun sel' => decodePairs sel' (pairBytes rest) := by
  simp only [pairBytes, List.flatMap_cons, List.cons_append, List.nil_append]
  rw [decodePairs]
  cases sel.add p.1 p.2 <;> rfl

/-- The pairs are refused exactly when one is out of range or two name one field. -/
theorem decodePairs_none (sel : Selection) (pairs : List (Byte × Byte)) :
    decodePairs sel (pairBytes pairs) = none ↔
      (∃ p ∈ pairs, pairBad p) ∨ ¬((pairFields pairs).Nodup ∧ ∀ f ∈ pairFields pairs, sel.has f = false) := by
  induction pairs generalizing sel with
  | nil => simp [pairBytes, decodePairs, pairFields]
  | cons p rest ih =>
    rw [decodePairs_cons]
    have hz : sel.has 0x00 = false := rfl
    cases hadd : sel.add p.1 p.2 with
    | none =>
      rcases (sel.add_none p.1 p.2).1 hadd with hb | hh
      · simp; left; left; exact hb
      · simp only [Option.bind_none, true_iff]
        right
        rintro ⟨-, hall⟩
        have hne : pairField p ≠ 0x00 := by intro e; rw [show (p.1, p.2) = p from rfl, e, hz] at hh; simp at hh
        have hm : pairField p ∈ pairFields (p :: rest) := by simp [pairFields]; exact hne
        rw [show (p.1, p.2) = p from rfl] at hh
        rw [hall _ hm] at hh
        simp at hh
    | some sel' =>
      have hnot : ¬(pairBad p ∨ sel.has (pairField p) = true) := by
        intro g
        rw [(sel.add_none p.1 p.2).2 g] at hadd
        simp at hadd
      have hhas := sel.add_has p.1 p.2 sel' hadd
      rw [show (p.1, p.2) = p from rfl] at hhas
      simp only [Option.bind_some]
      rw [ih sel']
      have hb : ¬pairBad p := fun g => hnot (.inl g)
      have hf : sel.has (pairField p) = false := by
        cases h : sel.has (pairField p) with
        | false => rfl
        | true => exact absurd (.inr h) hnot
      have key : (pairFields rest).Nodup ∧ (∀ f ∈ pairFields rest, sel'.has f = false) ↔
          (pairFields (p :: rest)).Nodup ∧ ∀ f ∈ pairFields (p :: rest), sel.has f = false := by
        have hsel : ∀ f, sel'.has f = false ↔ sel.has f = false ∧ ¬(f ≠ 0x00 ∧ f = pairField p) := by
          intro f
          have h1 := hhas f
          cases h2 : sel'.has f <;> cases h3 : sel.has f <;> simp_all
        by_cases hp : pairField p = 0x00
        · have e : pairFields (p :: rest) = pairFields rest := by simp [pairFields, hp]
          rw [e]
          constructor
          · rintro ⟨a, b⟩
            exact ⟨a, fun f hfm => ((hsel f).1 (b f hfm)).1⟩
          · rintro ⟨a, b⟩
            exact ⟨a, fun f hfm => (hsel f).2 ⟨b f hfm, fun g => g.1 (g.2.trans hp)⟩⟩
        · have e : pairFields (p :: rest) = pairField p :: pairFields rest := by
            simp only [pairFields, List.map_cons]
            exact List.filter_cons_of_pos (by simpa using hp)
          rw [e, List.nodup_cons]
          constructor
          · rintro ⟨a, b⟩
            refine ⟨⟨fun hm => ?_, a⟩, ?_⟩
            · exact ((hsel _).1 (b _ hm)).2 ⟨hp, rfl⟩
            · intro f hfm
              rcases List.mem_cons.1 hfm with rfl | hfm
              · exact hf
              · exact ((hsel f).1 (b f hfm)).1
          · rintro ⟨⟨n, a⟩, b⟩
            refine ⟨a, fun f hfm => (hsel f).2 ⟨b f (List.mem_cons_of_mem _ hfm), ?_⟩⟩
            rintro ⟨-, rfl⟩
            exact n hfm
      rw [key]
      simp [hb]

theorem Selection.From.trans {old mid sel : Selection} {ps qs : List (Byte × Byte)} (h : Selection.From old ps mid)
    (g : Selection.From mid qs sel) : Selection.From old (ps ++ qs) sel := by
  constructor
  · intro v; rw [g.cls, h.cls, List.mem_append, or_assoc]
  · intro v; rw [g.policy, h.policy, List.mem_append, or_assoc]
  · intro v; rw [g.fill, h.fill, List.mem_append, or_assoc]
  · intro v; rw [g.posting, h.posting, List.mem_append, or_assoc]
  · intro v; rw [g.probeSet, h.probeSet, List.mem_append, or_assoc]
  · rw [g.probeCleared, h.probeCleared, or_assoc]; simp only [List.mem_append, exists_or]
  · intro v; rw [g.frozen, h.frozen, List.mem_append, or_assoc]
  · intro v; rw [g.identitySet, h.identitySet, List.mem_append, or_assoc]
  · rw [g.identityCleared, h.identityCleared, or_assoc]; simp only [List.mem_append, exists_or]
  · intro n; rw [g.threshold, h.threshold, or_assoc]; simp only [List.mem_append, or_and_right, exists_or]

/-- Pairs that are taken select exactly the fields they name, with their values. -/
theorem decodePairs_some (old : Selection) (pairs : List (Byte × Byte)) (sel : Selection)
    (h : decodePairs old (pairBytes pairs) = some sel) : Selection.From old pairs sel := by
  induction pairs generalizing old with
  | nil =>
    simp [pairBytes, decodePairs] at h
    subst h
    constructor <;> simp
  | cons p rest ih =>
    rw [decodePairs_cons] at h
    cases hadd : old.add p.1 p.2 with
    | none => simp [hadd] at h
    | some mid =>
      simp only [hadd, Option.bind_some] at h
      exact (old.add_some p.1 p.2 mid hadd).trans (ih mid h)

/-- The frames of Decode.lean are those the ill-formed rows are judged by: a code names no frame exactly when it is
unknown (R173, R181). -/
theorem frameOf_none (code : Byte) : frameOf code = none ↔ unknownCode code = true := by
  revert code
  decide +kernel

end Sys2Proof.Machine
end

