-- ==== Sys2Proof/Laws/Records.lean ====
section
/-! SUPPORT. Laws/Records.lean: what the claims on records do to the slots: undelivered claims and purges (R19, R87),
a slot becoming FREE (R12), changes of state (R10, R11), charges (R18), markers (R8) and absence expiry (R26). -/

namespace Sys2Proof.Machine

variable (s : State)

/-! ### Undelivered claims -/

/-- A record without its undelivered count. -/
def Record.uncounted (r : Record) : Record := { r with undelivered := 0 }

/-- One undelivered claim: the count of slot `i` rises, saturating at 255 (R7). -/
theorem undeliveredClaim_recAt (i j : Slot) :
    (s.undeliveredClaim i).recAt j =
      if i = j then (s.recAt i).map fun r =>
        { r with undelivered := if r.undelivered < Config.maxUndelivered then r.undelivered + 1 else r.undelivered }
      else s.recAt j := by
  unfold State.undeliveredClaim
  by_cases e : i = j
  · subst e
    cases h : s.recAt i with
    | none => simp [h]
    | some r =>
      simp only [if_true, Option.map_some]
      split
      · simp
      · simp [h]
  · simp only [if_neg e]
    split
    · split
      · simp [recAt_putRec, e]
      · rfl
    · rfl

theorem undeliveredClaim_uncounted (i j : Slot) :
    ((s.undeliveredClaim i).recAt j).map Record.uncounted = (s.recAt j).map Record.uncounted := by
  rw [undeliveredClaim_recAt]
  split
  · rename_i e
    subst e
    cases s.recAt i <;> rfl
  · rfl

@[simp] theorem undeliveredClaim_aliasIndex (i : Slot) :
    (s.undeliveredClaim i).dir.aliasIndex = s.dir.aliasIndex := by
  unfold State.undeliveredClaim
  split
  · split <;> simp
  · rfl

/-- Claims change undelivered counts alone. -/
theorem undeliveredClaims_uncounted (es : List Entry) (j : Slot) :
    ((s.undeliveredClaims es).recAt j).map Record.uncounted = (s.recAt j).map Record.uncounted := by
  induction es generalizing s with
  | nil => rfl
  | cons e rest ih => simp only [State.undeliveredClaims]; rw [ih, undeliveredClaim_uncounted]

@[simp] theorem undeliveredClaims_aliasIndex (es : List Entry) :
    (s.undeliveredClaims es).dir.aliasIndex = s.dir.aliasIndex := by
  induction es generalizing s with
  | nil => rfl
  | cons e rest ih => simp [State.undeliveredClaims, ih]

/-- A slot no entry names is not touched by the entries' claims. -/
theorem undeliveredClaims_recAt_other (es : List Entry) (j : Slot) (h : ∀ e ∈ es, e.slot ≠ j) :
    (s.undeliveredClaims es).recAt j = s.recAt j := by
  induction es generalizing s with
  | nil => rfl
  | cons e rest ih =>
    simp only [State.undeliveredClaims]
    rw [ih _ fun x hx => h x (List.mem_cons_of_mem _ hx), undeliveredClaim_recAt,
      if_neg (h e List.mem_cons_self)]

/-- No claim more leaves the count, and one more is one step of R7. -/
theorem moreLost_zero (u : Nat) : moreLost u 0 = u := by
  by_cases h : u < 255 <;> simp only [moreLost, h, if_true, if_false] <;> omega

theorem moreLost_succ (u n : Nat) : moreLost u (n + 1) = moreLost (if u < 255 then u + 1 else u) n := by
  by_cases h : u < 255
  · by_cases g : u + 1 < 255 <;> simp only [moreLost, h, g, if_true, if_false] <;> omega
  · simp only [moreLost, h, if_false]

/-- Claims raise each record's undelivered count by the number of its entries, saturating at 255 (R7, R19). -/
theorem undeliveredClaims_recAt (es : List Entry) (i : Slot) :
    (s.undeliveredClaims es).recAt i = (s.recAt i).map fun r =>
      { r with undelivered := moreLost r.undelivered (es.filter fun e => e.slot == i).length } := by
  induction es generalizing s with
  | nil =>
    simp only [State.undeliveredClaims, List.filter_nil, List.length_nil, moreLost_zero]
    cases s.recAt i <;> rfl
  | cons e rest ih =>
    simp only [State.undeliveredClaims]
    rw [ih, undeliveredClaim_recAt]
    by_cases h : e.slot = i
    · rw [if_pos h, h, Option.map_map]
      cases s.recAt i with
      | none => rfl
      | some r =>
        simp only [Option.map_some, Function.comp_apply, List.filter_cons, h, beq_self_eq_true, if_true,
          List.length_cons, moreLost_succ]
        rfl
    · simp [h]

/-! ### Purges -/

/-- A purge changes records in their undelivered counts alone. -/
theorem purge_uncounted (k : Seg) (covers : Entry → Bool) (j : Slot) :
    ((s.purge k covers).recAt j).map Record.uncounted = (s.recAt j).map Record.uncounted := by
  unfold State.purge
  rw [undeliveredClaims_uncounted]
  simp

@[simp] theorem purge_aliasIndex (k : Seg) (covers : Entry → Bool) :
    (s.purge k covers).dir.aliasIndex = s.dir.aliasIndex := by simp [State.purge]

/-- A purge counts one undelivered claim for each entry it removes (R87). -/
theorem purge_recAt (k : Seg) (covers : Entry → Bool) (i : Slot) :
    (s.purge k covers).recAt i = (s.recAt i).map fun r =>
      { r with undelivered := moreLost r.undelivered ((s.purgeable k covers).filter fun e => e.slot == i).length } := by
  unfold State.purge
  rw [undeliveredClaims_recAt, recAt_of_dir (s := s) (by simp)]

/-- A purge of one slot's entries touches no other slot. -/
theorem purge_slot_recAt_other (k : Seg) {i j : Slot} (h : i ≠ j) :
    (s.purge k fun e => e.slot == i).recAt j = s.recAt j := by
  unfold State.purge
  rw [undeliveredClaims_recAt_other]
  · simp
  · intro e he
    have : (e.slot == i) = true := (List.mem_filter.mp he).2
    intro hj
    exact h ((beq_iff_eq.mp this).symm.trans hj)

/-- The segment's queue after a purge: the entry on the bus, and the entries the purge does not cover (R87). -/
theorem purge_queue (k : Seg) (covers : Entry → Bool) :
    ((s.purge k covers).poolSeg k).queue =
      s.busEntries k ++ (s.waitingEntries k).filter fun e => !covers e := by
  unfold State.purge
  rw [poolSeg_of_pool (s := s.modPool k fun p => { p with
      queue := s.busEntries k ++ (s.waitingEntries k).filter fun e => !covers e
      purgeMark := p.purgeMark || (s.busEntries k).any covers }) (by simp)]
  simp

/-- The purge of one slot leaves the queue and the purge mark that R87 says. -/
theorem purge_slot_purgedOf (k : Seg) (i : Slot) : PurgedOf s (s.purge k fun e => e.slot == i) k i := by
  unfold PurgedOf State.purge
  rw [poolSeg_of_pool (undeliveredClaims_frame _ _).2.2.2.2.2.2.2.2.1]
  rw [poolSeg_modPool]
  simp [bne]

/-! ### Answers of long operations (R131, R132) -/

/-- What an operation not answered yet gets from `f`; one answered keeps its answer. -/
theorem settleOps_mem (f : LongOp → Option Response) {op : LongOp} (h : op ∈ s.dc.ops) (ha : op.answer = none) :
    { op with answer := f op } ∈ (s.settleOps f).dc.ops :=
  List.mem_map.mpr ⟨op, h, by rw [ha]⟩

theorem settleOps_answers (f : LongOp → Option Response) (work : LongWork → Prop) (answer : LongOp → Response)
    (h : ∀ op, work op.work → f op = some (answer op)) : Answered s (s.settleOps f) work answer :=
  fun op ho hw ha => h op hw ▸ settleOps_mem s f ho ha

theorem Answered.settleOps {s m : State} {work : LongWork → Prop} {answer : LongOp → Response}
    (h : Answered s m work answer) (f : LongOp → Option Response) : Answered s (m.settleOps f) work answer :=
  fun op ho hw ha => List.mem_map.mpr ⟨_, h op ho hw ha, rfl⟩

/-- Operations of these works that `f` does not answer are there for the next answer. -/
theorem Answered.after_settleOps {s m : State} {work : LongWork → Prop} {answer : LongOp → Response}
    (f : LongOp → Option Response) (h : ∀ op, work op.work → f op = none) (ha : Answered (s.settleOps f) m work answer) :
    Answered s m work answer := by
  intro op ho hw hn
  have := settleOps_mem s f ho hn
  rw [h op hw, ← hn] at this
  exact ha op this hw hn

theorem Answered.of_dc {s u m : State} {work : LongWork → Prop} {answer : LongOp → Response} (h : u.dc = s.dc)
    (ha : Answered u m work answer) : Answered s m work answer :=
  fun op ho => ha op (h ▸ ho)

@[simp] theorem withdrawSlot_probeQueue (k j : Seg) (i : Slot) (how : Withdrawal) :
    ((s.withdrawSlot k i how).engine j).probeQueue = (s.engine j).probeQueue := by
  have drop : ∀ e : Engine → Engine, (∀ x, (e x).probeQueue = x.probeQueue) →
      ((s.modEngine k e).engine j).probeQueue = (s.engine j).probeQueue := by
    intro e he
    by_cases h : k = j
    · subst h
      simp [State.engine, State.modEngine, he]
    · simp [State.engine, State.modEngine, Quad.get_set_other _ (Ne.symm h)]
  unfold State.withdrawSlot
  split
  · split
    · unfold State.withdraw
      split
      · rfl
      · dsimp only
        split <;>
          (rw [engine_of_eng (s := s.modEngine k fun e => { e with request := none }) (by simp)]
           exact drop _ fun _ => rfl)
    · rfl
  · rfl

/-! ### A slot becoming FREE -/

/-- After the event the slot is FREE and no other record has changed (R12). -/
theorem freeSlot_recAt (i j : Slot) : (s.freeSlot i).recAt j = if i = j then none else s.recAt j := by
  unfold State.freeSlot
  by_cases e : i = j
  · subst e
    rw [if_pos rfl]
    cases h : s.recAt i with
    | none => simp [h]
    | some r =>
      simp [State.recAt, State.answerProbes, State.answerRetires]
  · rw [if_neg e]
    cases h : s.recAt i with
    | none => rfl
    | some r =>
      simp only
      have e' : i.val ≠ j.val := fun hv => e (Fin.ext hv)
      simp [State.recAt, State.answerProbes, State.answerRetires, e']

/-- The alias of the record leaves the index (R12). -/
theorem freeSlot_aliasIndex (i : Slot) (r : Record) (h : s.recAt i = some r) :
    (s.freeSlot i).dir.aliasIndex = s.dir.aliasIndex.set r.aliasAddr.toNat none r.aliasAddr.isLt := by
  unfold State.freeSlot
  rw [h]
  simp [State.answerProbes, State.answerRetires]

/-- A slot that becomes FREE leaves what R12, R24 and R145 give. -/
theorem freeSlot_freedFrom (i : Slot) (r : Record) (h : s.recAt i = some r) : FreedFrom s (s.freeSlot i) i r := by
  refine ⟨by rw [freeSlot_recAt, if_pos rfl], ?_, ?_, ?_, ?_, ?_⟩
  · unfold State.lookupAlias
    rw [freeSlot_aliasIndex s i r h]
    simp
  all_goals
    unfold State.freeSlot
    rw [h]
    dsimp only
  · simp [State.answerProbes, State.answerRetires, State.markChanged]
  · intro k
    simp only [State.answerProbes, State.answerRetires, engine_settleOps, withdrawSlot_probeQueue]
    simp [State.engine, State.markChanged, Engine.forgetSlot]
  · intro n
    refine Answered.settleOps (Answered.of_dc ?_ (settleOps_answers _ _ _ _ ?_)) _
    · simp [State.markChanged]
    · intro op hw
      simp [hw]
  · refine Answered.of_dc ?_ (Answered.after_settleOps _ ?_ (settleOps_answers _ _ _ _ ?_))
    · simp [State.markChanged]
    · intro op hw
      simp [hw]
    · intro op hw
      simp [hw, plainResponse]
/-! ### Changes of state -/

@[simp] theorem leaveBound_aliasIndex (i : Slot) (k : Seg) (b : Bool) :
    (s.leaveBound i k b).dir.aliasIndex = s.dir.aliasIndex := by
  unfold State.leaveBound
  dsimp only
  split <;> simp

theorem leaveBound_uncounted (i : Slot) (k : Seg) (b : Bool) (j : Slot) :
    ((s.leaveBound i k b).recAt j).map Record.uncounted = (s.recAt j).map Record.uncounted := by
  unfold State.leaveBound
  dsimp only
  split
  · rw [purge_uncounted, recAt_of_dir (s := s) (by simp)]
  · rw [recAt_of_dir (s := s) (by simp)]

theorem leaveBound_recAt_other {i j : Slot} (h : i ≠ j) (k : Seg) (b : Bool) :
    (s.leaveBound i k b).recAt j = s.recAt j := by
  unfold State.leaveBound
  dsimp only
  split
  · rw [purge_slot_recAt_other _ _ h, recAt_of_dir (s := s) (by simp)]
  · rw [recAt_of_dir (s := s) (by simp)]

/-- A change of the state of slot `i`'s record touches no other slot. -/
theorem moveRec_recAt_other {i j : Slot} (h : i ≠ j) (f : Record → Record) :
    (s.moveRec i f).recAt j = s.recAt j := by
  unfold State.moveRec
  split
  · rfl
  · dsimp only
    split
    · rw [leaveBound_recAt_other _ h]; simp [recAt_putRec, h]
    · simp [recAt_putRec, h]

/-- The record afterwards is the changed one, but for the undelivered claims its purged entries pass (R11). -/
theorem moveRec_recAt_self (i : Slot) (f : Record → Record) :
    ((s.moveRec i f).recAt i).map Record.uncounted = (s.recAt i).map fun r => (f r).uncounted := by
  unfold State.moveRec
  split
  · rename_i h; simp [h]
  · rename_i r h
    dsimp only
    split
    · rw [leaveBound_uncounted]; simp [h]
    · simp [h]

@[simp] theorem moveRec_aliasIndex (i : Slot) (f : Record → Record) :
    (s.moveRec i f).dir.aliasIndex = s.dir.aliasIndex := by
  unfold State.moveRec
  split
  · rfl
  · dsimp only
    split <;> simp

/-! ### Charges, the used claim and markers -/

/-- A charge reaches a BOUND record alone (R18). -/
theorem charge_not_bound (i : Slot) (h : ∀ r, s.recAt i = some r → r.state ≠ .bound) : s.charge i = s := by
  unfold State.charge
  split
  · rename_i r hr; simp [h r hr]
  · rfl

theorem charge_recAt_other {i j : Slot} (h : i ≠ j) : (s.charge i).recAt j = s.recAt j := by
  unfold State.charge
  split
  · split
    · split
      · rw [moveRec_recAt_other _ h]
      · simp [recAt_putRec, h]
    · rfl
  · rfl

/-- A charge below the threshold raises the count and nothing else (R18). -/
theorem charge_below (i : Slot) (r : Record) (hr : s.recAt i = some r) (hb : r.state = .bound)
    (hc : r.errorCount + 1 < r.threshold) :
    s.charge i = s.putRec i (some { r with errorCount := r.errorCount + 1 }) := by
  have : ¬ r.threshold ≤ r.errorCount + 1 := by omega
  simp [State.charge, hr, hb, this]

/-- A charge that reaches the threshold quarantines the record (R18, R106). -/
theorem charge_at (i : Slot) (r : Record) (hr : s.recAt i = some r) (hb : r.state = .bound)
    (hc : r.threshold ≤ r.errorCount + 1) :
    s.charge i =
      s.moveRec i fun r => { r with errorCount := r.errorCount + 1 }.toQuarantined .errors s.hm.holdOff := by
  simp [State.charge, hr, hb, hc]

theorem usedClaim_recAt (i j : Slot) :
    (s.usedClaim i).recAt j =
      if i = j then (s.recAt i).map fun r => if r.state = .bound then { r with used := true } else r
      else s.recAt j := recAt_modRec s i j _

theorem clearMarker_recAt (i j : Slot) :
    (s.clearMarker i).recAt j = if i = j then (s.recAt i).map fun r => { r with marker := .none } else s.recAt j :=
  recAt_modRec s i j _

/-! ### Retirement's end and absence expiry -/

/-- A retirement's end frees the slot or does nothing (R24). -/
theorem retireCheck_cases (i : Slot) : s.retireCheck i = s.freeSlot i ∨ s.retireCheck i = s := by
  unfold State.retireCheck
  split
  · split
    · exact Or.inl rfl
    · exact Or.inr rfl
  · exact Or.inr rfl

theorem retireCheck_recAt_other {i j : Slot} (h : i ≠ j) : (s.retireCheck i).recAt j = s.recAt j := by
  rcases retireCheck_cases s i with e | e <;> rw [e]
  rw [freeSlot_recAt, if_neg h]

/-- An absence expiry claim touches its own slot alone (R26). -/
theorem absenceExpiry_recAt_other {i j : Slot} (h : i ≠ j) : (s.absenceExpiry i).recAt j = s.recAt j := by
  unfold State.absenceExpiry
  split
  · split
    · split
      · rw [freeSlot_recAt, if_neg h]
      · simp [recAt_putRec, h]
    · rfl
  · rfl

/-- What follows the end of a transaction of slot `i` touches no other slot. -/
theorem afterEnd_recAt_other {i j : Slot} (h : i ≠ j) : (s.afterEnd i).recAt j = s.recAt j := by
  unfold State.afterEnd
  dsimp only
  split
  · split
    · rw [absenceExpiry_recAt_other _ h]
      simp [recAt_putRec, h, retireCheck_recAt_other _ h]
    · rw [retireCheck_recAt_other _ h]
  · rw [retireCheck_recAt_other _ h]

/-- With no retirement to end and no claim held, nothing follows (R24, R26). -/
theorem afterEnd_none (i : Slot) (h : ∀ r, s.recAt i = some r → r.state ≠ .retiring ∧ r.expiryHeld = false) :
    s.afterEnd i = s := by
  have hc : s.retireCheck i = s := by
    unfold State.retireCheck
    split
    · rename_i r hr; simp [(h r hr).1]
    · rfl
  unfold State.afterEnd
  rw [hc]
  dsimp only
  split
  · rename_i r hr; simp [(h r hr).2]
  · rfl

/-! ### Probe requests -/

/-- A probe queue that holds each slot once still does after a request (R56). -/
theorem enqueueProbe_nodup (i : Slot) (e : Engine) (h : e.probeQueue.Nodup) :
    (e.enqueueProbe i).probeQueue.Nodup := by
  unfold Engine.enqueueProbe
  simp only
  split
  · exact h
  · rename_i hi
    exact List.nodup_append.mpr ⟨h, by simp, by intro a ha b hb; simp at hb; subst hb; exact fun e => hi (e ▸ ha)⟩

end Sys2Proof.Machine
end

