-- ==== Sys2Proof/Tests/Slice0.lean ====
section
/-! SUPPORT. Tests/Slice0.lean: the model's own tests. Expected values come from the spec: from chapter 12's worked
sequences (named by their titles) or from the rule cited, by hand. Then, for the statements of
Certificates/Slice0/Obligations.lean that have hypotheses, states and operands that meet them (`witness_…`). -/

namespace Sys2Proof.Tests

open Sys2Proof Sys2Proof.Machine

/-! ### Ill-formed commands are refused -/

theorem test_low_lines_ascend : (Instr.stopCondition [1, 0]).wf = false ∧ (Instr.stopCondition [0, 0]).wf = false ∧
    (Instr.stopCondition [0, 1, 3]).wf = true ∧ (Instr.stall 1 (.expires [2, 1])).wf = false := by decide

theorem test_known_code_is_not_unknown : (Instr.unknownFrame 0xC9).wf = false ∧ (Instr.unknownFrame 0x05).wf = true := by
  decide

theorem test_partial_frame_ends_off_boundary : (Instr.partialFrame 16).wf = false ∧ (Instr.partialFrame 17).wf = true := by
  decide

theorem test_no_row_has_bits (nbits w : Nat) : decodeTableWord nbits w = none := rfl

/-! ### States to start from -/

/-- The state after a command; the same state if it stops, which no command does. -/
def after (c : Instr) (s : State) : State :=
  match exec c s with
  | .next t => t
  | .fault _ => s
  | .refused _ => s

/-- "a fan-tray hot-swap": slot 20, alias 0x2C, segment 1, target 0x2E, DYNAMIC, REFUSE, with posting on. -/
def fan : Record := { discoveredRecord 1 0x2E 0x2C with posting := true }

def hubOf (r : Record) : State := State.reset.createRec 20 r

def hub : State := hubOf fan

/-- "a quarantine and its recovery": alias 0x3E, segment 2, target 0x60, FILL 0xEE, threshold 3. -/
def flaky (count : Nat) : Record :=
  { discoveredRecord 2 0x60 0x3E with policy := .fill, fill := 0xEE, threshold := 3, errorCount := count }

/-- `t` on the bus of segment `k`, with marker `m` set on slot 20's record; a target holds the clock, where the engine
itself does not. -/
def carrying (k : Seg) (t : Tx) (m : Marker) (s : State) : State :=
  (s.modEngine k fun e =>
    { e with state := .active, tx := some t, stall := if t.step.released then some ⟨10, 0⟩ else none }).modRec 20
    fun r => { r with marker := m }

/-- UP in the middle of a forward of slot 20 on segment `k`. -/
def forwarding (k : Seg) (phase : UpPhase) (a : Addr) (d : Dir) (answer : Answer) (s : State) : State :=
  s.setCtx { phase := phase, mode := some .forward, address := some (a, d), slot := some 20, segment := some k,
             answer := some answer, downOpen := some k, lastByteGiven := false, staged := [], hold := some ⟨25, 0⟩ }

/-- A forward of slot 20 to `target` at this step. -/
def forwardTx (target : Addr) (d : Dir) (phase : TxPhase) (step : BusStep) : Tx :=
  { Tx.start .forward (some 20) target d none true with phase := phase, step := step }

/-- The hub with a forwarded transaction of slot 20 under way. -/
def relaying (d : Dir) (up : UpPhase) (phase : TxPhase) (step : BusStep) : State :=
  carrying 1 (forwardTx 0x2E d phase step) .forward (forwarding 1 up 0x2C d ⟨.refuse, 0xFF⟩ hub)

/-- The hub with a POSTED write of slot 20 under way and these bytes staged. -/
def posting (staged : List Byte) : State :=
  { hub with
    up := { hub.up with ctx := { freshContext .write .posted 0x2C .write (some 20) (some 1) (some ⟨.refuse, 0xFF⟩) none
                                   with staged := staged } }
    pool := { hub.pool with reservation := some 1 } }

/-- The hub with a FILL stand-in of slot 20 under way. -/
def standingIn (phase : UpPhase) (d : Dir) : State :=
  hub.setCtx (freshContext phase .standIn 0x2C d (some 20) none (some ⟨.fill, 0xEE⟩) none)

/-- A forwarded read of slot 20 at the bit of the master's own NAK, in which the target holds the clock, and a forwarded
write between two bytes: UP relays both and holds no clock. -/
def lastByteNaked : State :=
  after (.stall 1 .heldLow)
    (after (.masterReadAnswer false) (after (.readByteArrives 1 5) (relaying .read .read .data .fetch)))
def betweenBytes : State := after (.targetByteAnswer 1 true) (relaying .write .write .data (.send 1))

/-- Slot 20's record with a delivery on the bus and one entry more behind it. -/
def delivering (r : Record) (phase : TxPhase) (step : BusStep) (entry : Entry) : State :=
  carrying 1 { Tx.start .delivery (some 20) 0x2E .write none true with phase := phase, step := step } .delivery
    ((hubOf r).modPool 1 fun p => { p with queue := [entry, ⟨20, [], false⟩] })

/-- Slot 20's record with a probe of it on the bus of segment 1, which a PROBE of tag 9 waits on. -/
def probing (r : Record) (kind : TxKind) : State :=
  { carrying 1 (Tx.start kind (some 20) 0x2E .write r.probeReg true) .probe (hubOf r) with
    dc := { ops := [{ work := .probe 20 true, tag := 9, answer := none }] }
    mp := { State.reset.mp with outstanding := 1 } }

/-- A probe of slot 20 that is no longer its record's (R17), with the record gone from the slot, and with it rebound to
segment 2. -/
def disowned : Tx :=
  { Tx.start .quickProbe (some 20) 0x2E .write none true with ownsMarker := false, sameRecord := false }
def abandonedProbe : State :=
  { State.reset with
    eng := State.reset.eng.set 1 { Engine.reset with state := .active, tx := some disowned, stall := some ⟨10, 0⟩ }
    dc := { ops := [{ work := .probe 20 true, tag := 9, answer := none }] } }
def movedProbe : State := (hubOf { fan with segment := 2, state := .pending }).modEngine 1 fun e =>
  { e with state := .active, tx := some disowned, stall := some ⟨10, 0⟩ }

/-- "discovery racing a BIND": a DISCOVER of segment 3, window 0x50 to 0x51, base 0x60, with its probe at `t`. -/
def discovering (t : Addr) (cancelled : Bool) : State :=
  { State.reset with
    eng := State.reset.eng.set 3 { Engine.reset with
      state := .active, tx := some (Tx.start .discoveryProbe none t .write none false), stall := some ⟨10, 0⟩
      discovery := some { Discovery.start 0x50 0x51 0x60 0x72 with
        next := some t, onBus := some t, cancelRequested := cancelled } }
    dc := { ops := [{ work := .discover 3, tag := 0x72, answer := none }] }
    mp := { State.reset.mp with outstanding := 1 } }

/-- Engine 1 in this state, with this many failed attempts. -/
def engineAs (e : EngState) (attempts : Nat) (s : State) : State :=
  s.modEngine 1 fun x => { x with state := e, attemptCount := attempts }

/-- `s` with this operation waiting in DC. -/
def withOp (w : LongWork) (s : State) : State := s.setDc { ops := [{ work := w, tag := 4, answer := none }] }

/-- `s` with a PAUSE pending on engine 1. -/
def pausing (s : State) : State := withOp (.pause 1) (s.modEngine 1 fun e => { e with pausePending := true })

/-- The hub with a discovery of segment 1 from `low` to `high` waiting to go on. -/
def offering (low high : Addr) : State :=
  hub.modEngine 1 fun e => { e with discovery := some { Discovery.start low high 0x60 0x72 with next := some low } }

/-- The record of slot 20 RETIRING on a PAUSED segment, with one entry queued and a RETIRE waiting on it. -/
def draining : State :=
  withOp (.retire 20 3) ((engineAs .paused 0 (hubOf { fan with state := .retiring })).modPool 1 fun p =>
    { p with queue := [⟨20, [7], false⟩] })

/-- `s` with this command at the head of the command queue. -/
def pushed (kind : CmdKind) (tag : Byte) (args : List Byte) (s : State) : State :=
  s.setMp { s.mp with commands := [{ kind := kind, tag := tag, args := args }], outstanding := s.mp.outstanding + 1 }

/-- The last response in the queue. -/
def lastAnswer (s : State) : Option (ResultCode × List Byte) := s.mp.responses.getLast?.map fun r => (r.code, r.results)

def state20 (s : State) : Option RecState := (s.recAt 20).map fun r => r.state

/-- `s` holds `r` in slot 20, of segment 1, and no other record; `x` is engine 1's transaction, which owns `r`'s
marker, and no other engine has one; every request, entry and slot asked for is slot 20's, on segment 1. -/
abbrev OneRecord (s : State) (r : Record) (x : Option Tx) : Prop :=
  (∀ i : Slot, s.recAt i = if i = 20 then some r else none) ∧ r.segment = 1 ∧
  (∀ k : Seg, (s.engine k).tx = (if k = 1 then x else none) ∧
    ((s.engine k).tx.isSome = true ↔ (s.engine k).state = .active)) ∧
  (x = none → r.marker = .none) ∧
  (x.all (fun t => t.slot == some 20 && t.ownsMarker && !t.silent && t.kind.marker == r.marker)) = true ∧
  (x ≠ none → r.marker ≠ .none) ∧
  (∀ k : Seg, ((s.engine k).request.all fun q => q.slot == some 20 && k == 1 && r.state == .bound) = true ∧
    (∀ i ∈ (s.engine k).probeQueue, i = 20 ∧ k = 1) ∧ (s.poolSeg k).purgeMark = false ∧
    (∀ e ∈ (s.poolSeg k).queue, e.slot = 20 ∧ k = 1 ∧ (r.state = .bound ∨ r.state = .retiring)) ∧
    (s.deliveryOnBus k = true → (s.poolSeg k).queue ≠ []))

theorem OneRecord.recAt {s : State} {r : Record} {x : Option Tx} (h : OneRecord s r x) {i : Slot} {q : Record}
    (hq : s.recAt i = some q) : i = 20 ∧ q = r := by
  rw [h.1 i] at hq
  by_cases hi : i = 20
  · rw [if_pos hi] at hq
    exact ⟨hi, (Option.some.inj hq).symm⟩
  · rw [if_neg hi] at hq
    cases hq

theorem OneRecord.at20 {s : State} {r : Record} {x : Option Tx} (h : OneRecord s r x) : s.recAt 20 = some r := by
  rw [h.1, if_pos rfl]

theorem OneRecord.tx {s : State} {r : Record} {x : Option Tx} (h : OneRecord s r x) {k : Seg} {t : Tx}
    (ht : (s.engine k).tx = some t) :
    k = 1 ∧ x = some t ∧ t.slot = some 20 ∧ t.ownsMarker = true ∧ t.silent = false ∧ t.kind.marker = r.marker := by
  obtain ⟨-, -, hx, -, ho, -⟩ := h
  rw [(hx k).1] at ht
  by_cases hk : k = 1
  · rw [if_pos hk] at ht
    subst ht
    simp only [Option.all_some, Bool.and_eq_true, beq_iff_eq, Bool.not_eq_true'] at ho
    exact ⟨hk, rfl, ho.1.1.1, ho.1.1.2, ho.1.2, ho.2⟩
  · rw [if_neg hk] at ht
    cases ht

theorem OneRecord.workLaw {s : State} {r : Record} {x : Option Tx} (h : OneRecord s r x) : s.WorkLaw := by
  have at20 := h.at20
  have recOf := fun {i q} => h.recAt (i := i) (q := q)
  have txOf := fun {k t} => h.tx (k := k) (t := t)
  obtain ⟨-, seg, hx, hno, -, hne, hk⟩ := h
  refine ⟨fun k => (hx k).2, ?_, ⟨?_, ?_, ?_⟩, fun k => ⟨?_, ?_, ?_⟩, ?_, ?_⟩
  · intro k t ht
    obtain ⟨-, hxe, hs, -, -, hmk⟩ := txOf ht
    have hm : r.marker ≠ .none := hne (by rw [hxe]; exact nofun)
    exact ⟨fun h => absurd (hs.symm.trans h) nofun, fun h => by rcases h with h | h <;> (rw [h] at hmk; exact absurd hmk.symm hm)⟩
  · intro i q hq k m hm
    obtain ⟨rfl, rfl⟩ := recOf hq
    constructor
    · rintro ⟨t, ht, -, -, -, rfl⟩
      obtain ⟨rfl, -, -, -, -, hmk⟩ := txOf ht
      exact ⟨seg, hmk.symm⟩
    · rintro ⟨rfl, rfl⟩
      cases hxe : x with
      | none => exact absurd (hno hxe) hm
      | some t =>
        have ht : (s.engine q.segment).tx = some t := by rw [(hx _).1, if_pos seg, hxe]
        obtain ⟨-, -, hs, ho, hsil, hmk⟩ := txOf ht
        exact ⟨t, ht, hs, ho, hsil, hmk⟩
  · intro k t ht _
    exact ⟨20, r, (txOf ht).2.2.1, at20⟩
  · intro k t ht _ _
    exact (txOf ht).2.2.2.1
  · intro e he
    have he' : e ∈ (s.poolSeg k).queue := by
      unfold State.waitingEntries at he
      split at he
      · exact List.mem_of_mem_drop he
      · exact he
    obtain ⟨hs, hk1, hb⟩ := (hk k).2.2.2.1 e he'
    exact ⟨r, hs ▸ at20, seg.trans hk1.symm, hb⟩
  · intro hd
    obtain ⟨-, -, -, hall, hne'⟩ := hk k
    cases hq : (s.poolSeg k).queue with
    | nil => exact absurd hq (hne' hd)
    | cons e rest =>
      obtain ⟨hs, hk1, hb⟩ := hall e (hq ▸ List.mem_cons_self ..)
      have : ∃ t, (s.engine k).tx = some t := by
        unfold State.deliveryOnBus at hd
        cases ht : (s.engine k).tx with
        | none => rw [ht] at hd; cases hd
        | some t => exact ⟨t, rfl⟩
      obtain ⟨t, ht⟩ := this
      exact ⟨t, e, rest, r, ht, rfl, hs ▸ (txOf ht).2.2.1, hs ▸ at20, seg.trans hk1.symm, fun _ => hb⟩
  · intro hp
    rw [(hk k).2.2.1] at hp
    cases hp
  · intro k q i hq hi
    have := (hk k).1
    rw [hq] at this
    simp only [Option.all_some, Bool.and_eq_true, beq_iff_eq] at this
    obtain ⟨⟨hs, hk1⟩, hb⟩ := this
    obtain rfl : i = 20 := Option.some.inj (hi.symm.trans hs)
    exact ⟨r, at20, seg.trans hk1.symm, hb⟩
  · intro k i hi
    obtain ⟨hs, hk1⟩ := (hk k).2.1 i hi
    exact ⟨r, hs ▸ at20, seg.trans hk1.symm⟩

/-- The alias index of a state that holds one record. -/
theorem OneRecord.indexLaw {s : State} {r : Record} {x : Option Tx} (h : OneRecord s r x)
    (hi : ∀ a : Addr, s.lookupAlias a = if a = r.aliasAddr then some 20 else none) : s.IndexLaw := by
  intro a i
  rw [hi a]
  constructor
  · intro h20
    by_cases ha : a = r.aliasAddr
    · rw [if_pos ha] at h20
      cases h20
      exact ⟨r, h.at20, ha.symm⟩
    · rw [if_neg ha] at h20
      cases h20
  · rintro ⟨q, hq, rfl⟩
    obtain ⟨rfl, rfl⟩ := h.recAt hq
    exact if_pos rfl

/-! ### Upstream events -/

/-- R36: the clock is held for the hold limit and the engine takes the forward. -/
theorem test_read_of_bound_alias_is_forwarded :
    let t := after (.addressEvent 0x2C .read []) hub
    t.up.ctx.hold = some ⟨25, 0⟩ ∧ t.up.ctx.downOpen = some 1 ∧ (t.recAt 20).map (fun r => r.marker) = some .forward := by
  decide

/-- R30: addresses 0x00 to 0x07 are reserved. -/
theorem test_reserved_address_is_refused : (after (.addressEvent 0x07 .write []) hub).up.out = ⟨some false, none⟩ := by
  decide

/-- "posted writes across a PAUSE": 8 bytes cost 10. -/
theorem test_repeated_start_commits_posted_bytes :
    queueCost ((after (.repeatedStart false none [1]) (posting [1, 2, 3, 4, 5, 6, 7, 8])).poolSeg 1).queue = 10 := by
  decide

/-- R43: at a repeated start the alias of a record that left BOUND is answered by stand-in, and the forward ends. -/
theorem test_address_of_record_left_bound_ends_forward :
    let t := after (.repeatedStart false (some (0x2C, .read)) [])
      ((relaying .write .write .data .waitUp).modRec 20 fun r => { r with state := .absent })
    (t.engine 1).tx.map (fun x => (x.phase, x.step)) = some (.closing, .stop) ∧ t.up.out = ⟨some false, none⟩ := by decide

/-- R40: a repeated start to the same alias between two bytes continues the forward. -/
theorem test_repeated_start_continues_forward :
    ((after (.repeatedStart false (some (0x2C, .read)) []) (relaying .write .write .data .waitUp)).engine 1).tx.map
      (fun t => (t.dir, t.phase)) = some (.read, .address) := by decide

/-- Log entry 30: the bytes carried go on counting at a repeated start, which continues the same transaction (R52). -/
theorem test_repeated_start_keeps_carried :
    let s := carrying 1 { forwardTx 0x2E .write .data .waitUp with carried := 3 } .forward
      (forwarding 1 .write 0x2C .write ⟨.refuse, 0xFF⟩ hub)
    ((after (.repeatedStart false (some (0x2C, .read)) []) s).engine 1).tx.map (fun t => t.carried) = some 3 := by decide

/-- R49, R54: the entry of a commit is taken by the IDLE engine in the same event. -/
theorem test_stop_commits_and_delivers :
    let t := after (.stopCondition []) (posting [0x11, 0x22])
    (t.engine 1).tx.map (fun x => x.kind) = some .delivery ∧ t.pool.reservation = none ∧ t.up.ctx.staged = [] := by decide

/-- R48: a 17th byte is not acknowledged and not kept. -/
theorem test_seventeenth_byte_is_refused :
    let t := after (.writeEvent 0xAA) (posting (List.replicate 16 0))
    t.up.out.ack = some false ∧ t.up.ctx.staged.length = 16 := by decide

/-- R35: a FILL stand-in returns the fill byte while the master acknowledges. -/
theorem test_stand_in_read_repeats_fill_byte :
    (after (.masterReadAnswer true) (standingIn .read .read)).up.out.data = some 0xEE := by decide

/-- R46: in READ the fill byte answers the hold limit and the engine is to end after its byte. -/
theorem test_hold_limit_in_read_gives_fill :
    let t := after .holdLimitExpiry (relaying .read .read .data .fetch)
    t.up.out.data = some 0xFF ∧ t.up.ctx.mode = some .standIn ∧ (t.engine 1).tx.map (fun x => x.phase) = some .closing := by
  decide

/-- R45: in ADDRESS the address is not acknowledged. -/
theorem test_hold_limit_in_address_naks :
    let t := after .holdLimitExpiry (relaying .read .address .address .address)
    t.up.out.ack = some false ∧ t.up.ctx.phase = .unaddressed := by decide

/-! ### Segment buses -/

/-- R36, R8: an acknowledged address takes the used claim and is given upstream. -/
theorem test_address_ack_is_relayed_and_used :
    let t := after (.targetAddressAnswer 1 true) (relaying .write .address .address .address)
    t.up.out.ack = some true ∧ t.up.ctx.hold = none ∧ (t.recAt 20).map (fun r => r.used) = some true := by decide

/-- R36, R37: a NAK of the address ends the upstream part. -/
theorem test_address_nak_is_relayed :
    (after (.targetAddressAnswer 1 false) (relaying .write .address .address .address)).up.out.ack = some false := by decide

/-- R37: the acknowledge of a written byte is given upstream and counted. -/
theorem test_byte_ack_is_relayed :
    let t := after (.targetByteAnswer 1 true) (relaying .write .write .data (.send 0x55))
    t.up.out.ack = some true ∧ (t.engine 1).tx.map (fun x => x.carried) = some 1 := by decide

/-- R38: the byte read is driven upstream and the clock released. -/
theorem test_read_byte_is_driven :
    let t := after (.readByteArrives 1 0x7E) (relaying .read .read .data .fetch)
    t.up.out.data = some 0x7E ∧ t.up.ctx.hold = none := by decide

/-- "a quarantine and its recovery": the second address NAK of a forward leaves the record BOUND with count 2. -/
theorem test_forward_end_charges_address_nak :
    let s := carrying 2 { forwardTx 0x60 .read .closing .stop with reason := some .addressNak } .forward (hubOf (flaky 1))
    let t := after (.forwardEnd 2 []) s
    (t.recAt 20).map (fun r => (r.state, r.errorCount, r.marker)) = some (.bound, 2, .none) ∧
      (t.engine 2).state = .idle := by decide

/-- "a fan-tray hot-swap", 0.2 s: a delivery that ends ADDRESS_NAK is one charge and one undelivered. -/
theorem test_delivery_address_nak_counts_twice :
    let t := after (.deliveryEnd 1 .addressNak []) (delivering fan .address .address ⟨20, [1, 2], false⟩)
    (t.recAt 20).map (fun r => (r.state, r.errorCount, r.undelivered)) = some (.bound, 1, 1) ∧
      t.au.changed[20] = true := by decide

/-- R83, R82: a delivery that completes leaves the queue with no count. -/
theorem test_delivery_complete_removes_entry :
    let t := after (.deliveryEnd 1 .complete [1]) (delivering fan .data (.send 2) ⟨20, [1, 2], false⟩)
    ((t.poolSeg 1).queue.length, (t.recAt 20).map fun r => (r.undelivered, r.used)) = (1, some (0, true)) := by decide

/-- "the first three bindings": an identity probe that reads 0x21 binds the record and stores the byte. -/
theorem test_identity_probe_binds :
    let r := { fan with state := .pending, probeReg := some 0x19, frozen := true }
    let t := after (.probeEnd 1 (.answered 0x21) []) (probing r .identityProbe)
    (t.recAt 20).map (fun r => (r.state, r.identity)) = some (.bound, some 0x21) ∧
      lastAnswer t = some (.done, [0x00, 0x01, 0x21, 0x02]) := by decide

/-- "the first three bindings": an address not acknowledged makes a PENDING record ABSENT with age 0. -/
theorem test_probe_not_acknowledged_is_absent :
    let t := after (.probeEnd 1 .notAnswered []) (probing { fan with state := .pending } .quickProbe)
    (t.recAt 20).map (fun r => (r.state, r.absenceAge)) = some (.absent, 0) := by decide

/-- "discovery racing a BIND": the probe at 0x50 acknowledged creates the record with alias 0x60. -/
theorem test_discovery_creates_record :
    let t := after (.discoveryProbeEnd 3 true [3]) (discovering 0x50 false)
    (t.recAt 0).map (fun r => (r.aliasAddr, r.state)) = some (0x60, .bound) ∧ t.lookupAlias 0x60 = some 0 := by decide

/-- R121, R125: the last address ends the discovery DONE; found, created, known, collisions, last finished. -/
theorem test_discovery_ends_done :
    lastAnswer (after (.discoveryProbeEnd 3 false []) (discovering 0x51 false)) = some (.done, [0, 0, 0, 0, 0x51]) := by
  decide

/-- "a quarantine and its recovery": the stall of a forward read quarantines at the threshold; the master reads 0xEE. -/
theorem test_stall_quarantines_at_threshold :
    let s := carrying 2 (forwardTx 0x60 .read .data .fetch) .forward
      (forwarding 2 .read 0x3E .read ⟨.fill, 0xEE⟩ (hubOf (flaky 2)))
    let t := after (.stall 2 (.expires [])) s
    (t.recAt 20).map (fun r => (r.state, r.cause, r.errorCount, r.holdOff)) = some (.quarantined, some .errors, 3, 20) ∧
      (t.engine 2).state = .recovering ∧ t.up.out.data = some 0xEE := by decide

/-- R38, R59, R65: a target that holds the clock at the NAK of a read byte stalls: the record is charged, the engine
recovers, and UP, which holds no clock, drives nothing. -/
theorem test_stall_at_the_masters_nak :
    let t := after (.stall 1 (.expires [])) lastByteNaked
    (lastByteNaked.engine 1).tx.map (fun x => x.step) = some .nak ∧
    (lastByteNaked.engine 1).stall = some ⟨10, 0⟩ ∧ (t.recAt 20).map (fun r => r.errorCount) = some 1 ∧
      (t.engine 1).state = .recovering ∧ (t.up.ctx.mode, t.up.out) = (some .standIn, .released) := by decide

/-- R65, R59: the timer starts at a hold found in a clock released, counts it once, and stops at the clock's rise. -/
theorem test_stall_timer_follows_the_clock :
    let s := after (.stall 1 .rises) (relaying .read .read .data .fetch)
    let t := { s with stallLimit := 7 }
    ((relaying .read .read .data .fetch).engine 1).stall = some ⟨10, 0⟩ ∧ (s.engine 1).stall = none ∧
    ((after (.stall 1 .heldLow) t).engine 1).stall = some ⟨7, 0⟩ ∧
    ((after (.stall 1 .heldLow) { relaying .read .read .data .fetch with stallLimit := 7 }).engine 1).stall =
      some ⟨10, 0⟩ ∧
    after (.stall 1 (.expires [])) s = s := by decide +kernel

/-- R65, R59: a hold of the engine's own is not timed: between two steps, and from the rise that ends the NAK's bit. -/
theorem test_own_holds_are_not_timed :
    let s := after (.stall 1 .rises) lastByteNaked
    after (.stall 1 .heldLow) (relaying .write .write .data .waitUp) = relaying .write .write .data .waitUp ∧
    (s.engine 1).tx.map (fun x => x.step) = some .waitUp ∧ (s.engine 1).stall = none ∧
    after (.stall 1 .heldLow) s = s ∧ after (.stall 1 (.expires [])) s = s := by decide +kernel

/-- R119, R122, log entry 36: the count of created records goes on past 48. -/
theorem test_discovery_counts_past_48 (d : Discovery) (i : Slot) (h : d.created = 48) :
    (d.count (.create i)).created = 49 := by simp [Discovery.count, h]

/-- R67: a delivery cut for the first time stays at the head with the retried flag set, with no charge. -/
theorem test_bus_fault_keeps_entry_once :
    let t := after (.busFault 1) (delivering fan .data (.send 1) ⟨20, [1], false⟩)
    (t.poolSeg 1).queue.head?.map (fun e => e.retried) = some true ∧
      (t.recAt 20).map (fun r => (r.errorCount, r.undelivered)) = some (0, 0) ∧ (t.engine 1).state = .recovering := by decide

/-- R67: a delivery cut for the second time is dropped and counts undelivered. -/
theorem test_bus_fault_drops_retried_entry :
    let t := after (.busFault 1) (delivering fan .data (.send 1) ⟨20, [1], true⟩)
    ((t.poolSeg 1).queue.length, (t.recAt 20).map fun r => r.undelivered) = (1, some 1) := by decide

/-- R66: a line found low at the start puts the engine in RECOVERING, with the request still waiting. -/
theorem test_fault_at_start_keeps_request :
    let t := after (.addressEvent 0x2C .read [1]) hub
    (t.engine 1).state = .recovering ∧ (t.engine 1).request = some ⟨some 20, 0x2E, .read⟩ := by decide

/-! ### Recovery and timers -/

/-- "a quarantine and its recovery": the segment joins the segment-fault set with the recovered mark. -/
theorem test_recovery_success_marks_segment :
    let t := after (.recoveryAttemptSucceeds 1 []) (engineAs .recovering 1 hub)
    ((t.engine 1).state, (t.engine 1).attemptCount, t.au.faults.get 1) = (.idle, 0, ⟨true, false⟩) := by decide

/-- R69: a first failed attempt starts the 10 ms. -/
theorem test_first_failed_attempt_waits :
    ((after (.recoveryAttemptFails 1) (engineAs .recovering 0 hub)).engine 1).attempt = some ⟨10, 0⟩ := by decide

/-- R71: the third failed attempt makes the engine FAILED. -/
theorem test_third_failed_attempt_fails_segment :
    let t := after (.recoveryAttemptFails 1) (engineAs .recovering 2 hub)
    ((t.engine 1).state, (t.engine 1).attemptCount, t.au.faults.get 1) = (.failed, 3, ⟨false, true⟩) := by decide

/-- R69: the next attempt begins when the wait has run. -/
theorem test_attempt_timer_stops :
    ((after (.attemptTimerExpiry 1) (after (.recoveryAttemptFails 1) (engineAs .recovering 0 hub))).engine 1).attempt = none := by
  decide

/-- R76: a closing left by a restart ends in IDLE and reports nothing. -/
theorem test_closing_end_is_silent :
    let s := carrying 1 { forwardTx 0x2E .read .closing .stop with silent := true, ownsMarker := false } .none hub
    let t := after (.closingEnd 1 []) s
    (t.engine 1).state = .idle ∧ t.recAt 20 = some fan := by decide

/-- "a fan-tray hot-swap", 0.7 s: a BOUND record with its used flag clear is probed. -/
theorem test_survey_probes_unused_record :
    ((after (.surveyTimerExpiry []) hub).engine 1).tx.map (fun t => t.kind) = some .quickProbe := by decide

/-- R101: a BOUND record whose used flag is set is not probed, and the flag is cleared. -/
theorem test_survey_skips_used_record :
    let t := after (.surveyTimerExpiry []) (hubOf { fan with used := true })
    (t.engine 1).tx = none ∧ (t.recAt 20).map (fun r => r.used) = some false := by decide

/-- R103: the cadence falls to RELAXED. -/
theorem test_idle_timer_relaxes : (after .idleTimerExpiry hub).hm.cadence = .relaxed := by decide

/-- R107: the step that takes the hold-off to 0 asks for the reprobe. -/
theorem test_last_hold_off_step_reprobes :
    let t := after (.stepTimerExpiry []) (hubOf { fan with state := .quarantined, cause := some .errors, holdOff := 1 })
    (t.recAt 20).map (fun r => r.holdOff) = some 0 ∧ (t.engine 1).tx.map (fun t => t.kind) = some .quickProbe := by decide +kernel

/-- "a fan-tray hot-swap": the first counted second at 60 frees the slot; at 59 the age only rises. -/
theorem test_absence_expires_at_lifetime :
    let s := fun age => { hubOf { fan with state := .absent, absenceAge := age } with mp := { Port.reset with notice := false } }
    state20 (after .secondTimerExpiry (s 59)) = none ∧
      ((after .secondTimerExpiry (s 58)).recAt 20).map (fun r => r.absenceAge) = some 59 := by decide +kernel

/-- "a level 1 restart": the age is held while the notice is set. -/
theorem test_age_held_while_notice_set :
    ((after .secondTimerExpiry (hubOf { fan with state := .absent })).recAt 20).map (fun r => r.absenceAge) = some 0 := by
  decide +kernel

/-! ### Commands -/

/-- R136, R187: a LOOKUP by alias answers the slot and the image of 36 bytes. -/
theorem test_lookup_by_alias :
    (lastAnswer (after .lookup (pushed .lookup 1 [0x01, 0x2C, 0x00] hub))).map (fun a => (a.1, a.2.take 3, a.2.length)) =
      some (.done, [20, 0x21, 0x02], 37) := by decide

/-- R136: an alias that no record has is NOT_FOUND. -/
theorem test_lookup_unknown_alias :
    lastAnswer (after .lookup (pushed .lookup 1 [0x01, 0x2D, 0x00] hub)) = some (.notFound, []) := by decide

/-- "the first three bindings": slot 0, alias 0x10, segment 0, target 0x2F, HELD, FILL, fill 0xFF. -/
theorem test_bind_first_record :
    let t := after (.bind []) (pushed .bind 1 [0, 0x10, 0, 0x2F, 0x43, 0xFF, 0, 0, 8] State.reset)
    (t.recAt 0).map (fun r => (r.state, r.cls, r.policy, r.fill)) = some (.pending, .held, .fill, 0xFF) ∧
      lastAnswer t = some (.done, [0]) ∧ (t.engine 0).tx.map (fun x => x.kind) = some .quickProbe := by decide

/-- R15: an alias in use is refused before a pair in use. -/
theorem test_bind_alias_in_use :
    lastAnswer (after (.bind []) (pushed .bind 1 [0xFF, 0x2C, 1, 0x2E, 0, 0, 0, 0, 8] hub)) = some (.aliasInUse, []) := by decide

/-- R139: a threshold at the count quarantines a BOUND record. -/
theorem test_edit_threshold_quarantines :
    let t := after .edit (pushed .edit 1 ([20, 0x0A, 3] ++ List.replicate 14 0) (hubOf { fan with errorCount := 3 }))
    (t.recAt 20).map (fun r => (r.state, r.errorCount, r.threshold)) = some (.quarantined, 3, 3) ∧
      lastAnswer t = some (.done, [0x03]) := by decide

/-- R20: a REBIND makes the record PENDING at the new pair, and it is probed there. -/
theorem test_rebind_moves_record :
    let t := after (.rebind []) (pushed .rebind 1 [20, 2, 0x30] hub)
    (t.recAt 20).map (fun r => (r.state, r.segment, r.target)) = some (.pending, 2, 0x30) ∧
      (t.engine 2).tx.map (fun x => x.target) = some 0x30 := by decide

/-- R17, R20: a record moved away and back while its probe is on the bus is not the one probed: the outcome is
discarded, and the record, PENDING, waits for the new probe. -/
theorem test_rebind_away_and_back_discards_outcome :
    let away := after (.rebind []) (pushed .rebind 1 [20, 2, 0x30] (probing fan .quickProbe))
    let back := after (.rebind []) (pushed .rebind 2 [20, 1, 0x2E] away)
    let t := after (.probeEnd 1 .notAnswered [1]) back
    (t.recAt 20).map (fun r => (r.state, r.segment, r.target)) = some (.pending, 1, 0x2E) ∧
      (t.engine 1).probeQueue = [20] := by decide +kernel

/-- R56, R96: a REBIND within the segment joins the request that waits and the slot keeps its place. -/
theorem test_rebind_within_segment_keeps_place :
    let s := (hubOf fan).modEngine 1 fun e => { e with state := .paused, probeQueue := [20, 21] }
    ((after (.rebind []) (pushed .rebind 1 [20, 1, 0x30] s)).engine 1).probeQueue = [20, 21] ∧
      ((after (.rebind []) (pushed .rebind 1 [20, 2, 0x30] s)).engine 1).probeQueue = [21] := by decide +kernel

/-- R21: a RETIRE of a record that owes nothing frees the slot at once. -/
theorem test_retire_frees_slot :
    let t := after .retire (pushed .retire 1 [20, 0] hub)
    t.recAt 20 = none ∧ t.lookupAlias 0x2C = none ∧ lastAnswer t = some (.done, [0, 0]) := by decide

/-- "a quarantine and its recovery": CLEAR_COUNTS clears the counts and leaves the record QUARANTINED. -/
theorem test_clear_counts_leaves_quarantine :
    let r := { fan with state := .quarantined, cause := some .errors, errorCount := 3, reprobeFailures := 2, holdOff := 7 }
    let t := after .clearCounts (pushed .clearCounts 1 [0xFF] (hubOf r))
    (t.recAt 20).map (fun r => (r.state, r.errorCount, r.reprobeFailures, r.holdOff)) = some (.quarantined, 0, 0, 7) ∧
      lastAnswer t = some (.done, [1]) := by decide

/-- R143: a PROBE waits while its probe is on the bus. -/
theorem test_probe_waits :
    let t := after (.probe []) (pushed .probe 9 [20] hub)
    t.dc.ops = [{ work := .probe 20 true, tag := 9, answer := none }] ∧ t.mp.responses = [] := by decide

/-- R143: a PROBE on a FAILED segment is refused. -/
theorem test_probe_on_failed_segment :
    lastAnswer (after (.probe []) (pushed .probe 9 [20] (engineAs .failed 3 hub))) = some (.segmentFault, []) := by decide

/-- "discovery racing a BIND": the DISCOVER of segment 3 puts its first address on the bus. -/
theorem test_discover_starts_at_window_low :
    ((after (.discover []) (pushed .discover 0x72 [3, 0x50, 0x51, 0x60] hub)).engine 3).tx.map (fun t => t.target) =
      some 0x50 := by decide

/-- R119: an alias window that leaves 0x08 to 0x77 is BAD_FIELD. -/
theorem test_discover_alias_window_checked :
    lastAnswer (after (.discover []) (pushed .discover 1 [3, 0x50, 0x51, 0x77] hub)) = some (.badField, []) := by decide

/-- R124, R132: with no probe on the bus the DISCOVER ends CANCELLED, answered before the CANCEL. -/
theorem test_cancel_answers_the_discover_first :
    (after .cancel (pushed .cancel 1 [0x72] (withOp (.discover 1) (offering 0x50 0x51)))).mp.responses.map
      (fun r => (r.tag, r.code, r.results)) = [(4, .cancelled, [0, 0, 0, 0, 0xFF]), (1, .done, [1])] := by decide

/-- R124: a CANCEL marks the discovery whose probe is on the bus. -/
theorem test_cancel_marks_running_discovery :
    let t := after .cancel (pushed .cancel 1 [0x72] (discovering 0x50 false))
    (t.engine 3).discovery.map (fun d => d.cancelRequested) = some true ∧ lastAnswer t = some (.done, [1]) := by decide

/-- R73: a PAUSE of an IDLE engine is DONE at once. -/
theorem test_pause_idle_engine :
    let t := after .pause (pushed .pause 1 [1] hub)
    (t.engine 1).state = .paused ∧ lastAnswer t = some (.done, []) := by decide

/-- R74: a RESUME of a FAILED engine starts a recovery and waits. -/
theorem test_resume_failed_engine :
    let t := after (.resume []) (pushed .resume 1 [1] (engineAs .failed 3 hub))
    ((t.engine 1).state, (t.engine 1).attemptCount, (t.engine 1).resumeWaiting, t.dc.ops.length) = (.recovering, 0, true, 1) := by
  decide

/-- R24, R90: a FLUSH of a RETIRING record's last entries frees the slot, and the RETIRE is answered first. -/
theorem test_flush_ends_a_retirement :
    let t := after (.flush []) (pushed .flush 1 [1] draining)
    t.recAt 20 = none ∧ t.mp.responses.map (fun r => (r.tag, r.code, r.results)) =
      [(4, .done, [0, 3]), (1, .done, [0, 1])] := by decide

/-- "posted writes across a PAUSE": the FLUSH removes 3 entries and each counts undelivered. -/
theorem test_flush_counts_entries :
    let e : Entry := ⟨20, [1], false⟩
    let s := (engineAs .paused 0 hub).modPool 1 fun p => { p with queue := [e, e, e] }
    let t := after (.flush []) (pushed .flush 1 [1] s)
    lastAnswer t = some (.done, [0, 3]) ∧ (t.recAt 20).map (fun r => r.undelivered) = some 3 := by decide

/-- R78: 24 is no share. -/
theorem test_partition_checks_shares :
    lastAnswer (after .partition (pushed .partition 1 [0, 24, 0, 128, 0, 128, 0, 128] hub)) = some (.badPartition, []) := by decide

/-- R78, R148: shares of 512 bytes together are taken. -/
theorem test_partition_replaces_shares :
    let t := after .partition (pushed .partition 1 [2, 0, 0, 0, 0, 0, 0, 0] hub)
    ((t.poolSeg 0).share, (t.poolSeg 1).share, lastAnswer t) = (512, 0, some (.done, [])) := by decide

/-- R149, R186: every value is given; the rates are two bits each, segment 0 lowest. -/
theorem test_set_timing_sets_rates :
    let t := after .setTiming (pushed .setTiming 1 [25, 10, 10, 8, 30, 20, 60, 0xFF, 0x24] hub)
    ((t.engine 0).rate, (t.engine 1).rate, (t.engine 2).rate) = (.khz100, .khz400, .khz1000) := by decide

/-- R157: SET_PROTECT is LOCKED while the lock is on and PROT is low. -/
theorem test_set_protect_locked :
    lastAnswer (after .setProtect (pushed .setProtect 1 [0, 0] (hub.setPu { hub.pu with lock := true }))) =
      some (.locked, []) := by decide

/-- R153: code 1 protects 4 slots. -/
theorem test_set_protect_code_one :
    let t := after .setProtect (pushed .setProtect 1 [1, 0] hub)
    (t.isProtected 3, t.isProtected 4) = (true, false) := by decide

/-- R159: a second FIX_PROTECT is FIXED. -/
theorem test_fix_protect_twice :
    lastAnswer (after .fixProtect (pushed .fixProtect 1 [] (hub.setPu { hub.pu with fixed := true }))) =
      some (.fixed, []) := by decide

/-- "a fan-tray hot-swap": ALERT0 on slots 20 to 23 for NOT_BOUND, open-drain, is low while slot 20 is ABSENT. -/
theorem test_alert_line_follows_record :
    let t := after .setAlert (pushed .setAlert 1 [0, 3, 0, 0, 0, 0, 0, 0, 0xF0, 0, 0] (hubOf { fan with state := .absent }))
    t.au.alert.get 0 = .low ∧ t.au.alert.get 1 = .released := by decide

/-- R177, R187: CHANGES lists slot 20 and empties the set. -/
theorem test_changes_lists_and_empties :
    let t := after .changes (pushed .changes 1 [] hub)
    lastAnswer t = some (.done, [1, 20, 0, 0, 0, 0]) ∧ t.au.changed[20] = false := by decide

/-! ### Frames, resets and pins -/

/-- "bringing up a hub", step 1: the status word reads 0x8000. -/
theorem test_status_after_reset : (after (.status ⟨16, false⟩) State.reset).mp.mdo = .status [0x8000] 16 := by decide

/-- R164: PROT goes high within the second repetition of a STATUS frame with protect-lock on; that repetition ends from its
own capture, 0x9000, and the third shows 0x8000. -/
theorem test_status_captures_each_repetition_afresh :
    let s := { State.reset with pu := { Protection.reset with lock := true } }
    let t := after (.status ⟨24, true⟩) (after (.protChange true) (after (.status ⟨24, false⟩) s))
    [0, 1, 2, 3, 4, 5, 6].map (fun j => t.mdoByte (.after j)) =
      [some 0x90, some 0x00, some 0x90, some 0x00, some 0x80, some 0x00, none] ∧
    statusRows [24, 24] = [.status ⟨24, false⟩, .status ⟨24, true⟩] := by decide

/-- "bringing up a hub", step 2: after ACK_RESTART it reads 0x0000. -/
theorem test_status_after_ack : (after .ackRestart State.reset).statusWord = 0x0000 := by decide

/-- R181: the latch is bit 14. -/
theorem test_write_enable_sets_latch_bit : (after .writeEnable State.reset).statusWord = 0xC000 := by decide

theorem test_write_disable_clears_latch : (after .writeDisable (after .writeEnable State.reset)).mp.latch = false := by decide

/-- R166, R160: a modifying PUSH without the latch is NOT_ENABLED, result code 6. -/
theorem test_push_needs_latch : (after (.push [0x05, 1, 20, 0]) State.reset).statusWord = 0x8600 := by decide

/-- R166: a LOOKUP needs no latch. -/
theorem test_push_lookup : (after (.push [0x01, 1, 0, 5, 0]) State.reset).mp.commands = [⟨.lookup, 1, [0, 5, 0]⟩] := by decide

/-- R168, R187: a POP of a response without results is 4 bytes: length 3, kind, tag, outcome. -/
theorem test_pop_shifts_response :
    let s := State.reset.setMp { Port.reset with responses := [⟨.pause, 7, .busy, []⟩], outstanding := 1 }
    (after (.pop 40 false) s).mp.mdo = .bytes [0x03, 0x0A, 0x07, 0x09, 0x00] ∧
      (after (.pop 40 false) s).mp.outstanding = 0 := by decide

theorem test_restart_enable_sets_bit : (after .restartEnable State.reset).statusWord = 0xA000 := by decide

/-- "a level 1 restart": a QUARANTINED record keeps its failures and gets the hold-off of 20 again; "STATUS reads
0x8000". -/
theorem test_restart_level_one_keeps_quarantine :
    let r := { fan with state := .quarantined, cause := some .errors, reprobeFailures := 1, holdOff := 7 }
    let s := (hubOf r).setMp { Port.reset with restartEnable := true }
    let t := after (.restart [0x01] []) s
    (t.recAt 20).map (fun r => (r.reprobeFailures, r.holdOff)) = some (1, 20) ∧ t.statusWord = 0x8000 := by decide

/-- R93: a restart counts the entries of a record that outlasts it. -/
theorem test_restart_counts_posted_entries :
    ((after (.restart [0x01] []) ((hub.setMp { Port.reset with restartEnable := true }).modPool 1 fun p =>
      { p with queue := [⟨20, [7], false⟩, ⟨20, [], false⟩] })).recAt 20).map (fun r => r.undelivered) = some 2 := by decide

/-- R28: a level 2 restart frees an unprotected slot. -/
theorem test_restart_level_two_frees_unprotected :
    let s := hub.setMp { Port.reset with restartEnable := true }
    (after (.restart [0x02] []) s).recAt 20 = none := by decide

theorem test_unknown_frame : (after (.unknownFrame 0x00) State.reset).mp.lastResult = .unknown := by decide

/-- R161, R173: MDO shifts 0x00 for as long as the host clocks, in every frame but STATUS and POP. -/
theorem test_other_frames_shift_zeros : (after (.unknownFrame 0x00) State.reset).mp.mdo = .zeros ∧
    (after (.push [0x01, 1, 0, 5, 0]) (after (.status ⟨16, false⟩) State.reset)).mdoByte (.after 4) = some 0x00 := by decide

/-- R161, R171: 0x00 under the code of a STATUS too; MDO is released outside MCS, and while a full reset is held. -/
theorem test_mdo_under_the_code_and_released :
    [MdoPoint.code, .after 0, .outside].map (after (.status ⟨16, false⟩) State.reset).mdoByte = [some 0x00, some 0x80, none] ∧
    [MdoPoint.code, .after 0, .outside].map (after .fullReset State.reset).mdoByte = [none, none, none] := by decide

/-- R181, R163: the first byte names the frame; a frame that ends off a byte boundary is partial, but for STATUS. -/
theorem test_frames_by_code : decodeFrame [0xB1, 0x12, 7] 0 false [] = .push [0x12, 7] ∧
    decodeFrame [0xA0, 0, 0] 3 false [] = .status ⟨19, false⟩ ∧ decodeFrame [0xCA, 1] 0 false [2] = .restart [1] [2] ∧
    decodeFrame [0x12] 0 false [] = .unknownFrame 0x12 ∧ decodeFrame [0xA3] 7 false [] = .partialFrame 15 := by decide

theorem test_partial_frame : (after (.partialFrame 7) State.reset).mp.lastResult = .partialEnd := by decide

theorem test_empty_frame : after .emptyFrame State.reset = State.reset := rfl

/-- R174: ATTN is released while a full reset is held, and asserted when it has ended. -/
theorem test_full_reset_and_end :
    (after .fullReset hub).au.attn = false ∧ (after (.fullResetEnd false) (after .fullReset hub)).au.attn = true := by decide

theorem test_prot_change : (after (.protChange true) State.reset).pu.prot = true := by decide

/-! ### Witnesses: steps, resets and frames -/

/-- The hub while a full reset is held. -/
def heldReset : State := after .fullReset hub

theorem witness_IdleStepPassesOneMs : (hub.pending = [] ∧ hub.inReset = false) ∧
    heldReset.pending = [] ∧ heldReset.inReset = true := by decide

theorem witness_FullResetAndItsEnd : heldReset.inReset = true ∧
    (isFrameRow (.unknownFrame 0x05) = true ∧ (Instr.unknownFrame 0x05).wf = true) ∧
    (isFrameRow (.partialFrame 15) = true ∧ (Instr.partialFrame 15).wf = true) ∧
    isFrameRow (.restart [0x01] [0, 3]) = true ∧ (Instr.restart [0x01] [0, 3]).wf = true := by decide

theorem witness_StatusFrameShiftsTheWord : State.reset.framesTaken ∧ (State.reset.mp.responses.length ≤ 8 ∧
    State.reset.mp.outstanding ≤ 8) ∧ (State.reset.setMp { Port.reset with outstanding := 8 }).mp.outstanding ≤ 8 ∧
    (after (.status ⟨24, false⟩) State.reset).framesTaken ∧
    (after (.status ⟨24, false⟩) State.reset).mp.mdo = .status [0x8000, 0x8000] 24 ∧
    (after .writeEnable State.reset).framesTaken ∧ (after .writeEnable State.reset).mp.mdo = .zeros ∧
    (2 < 24 / 8 ∧ [(0x8000 : BitVec 16), 0x8000][2 / 2]? = some 0x8000) ∧ 24 / 8 ≤ 3 := by
  simp only [State.framesTaken]
  decide

theorem witness_FramesWithoutACommand : State.reset.framesTaken ∧ 1 % 8 ≠ 0 ∧ 15 % 8 ≠ 0 := by
  simp only [State.framesTaken]
  decide

theorem witness_CommandsDecode : (∃ f, decodeBind [47, 0x77, 3, 0x08, 0x7F, 1, 2, 3, 0xFF] = some f) ∧
    (decodeRebind [47, 3, 0x77] = some (47, 3, 0x77) ∧ decodeRebind [47, 3, 0x07] = none) ∧
    (decodeRetire [47, 1] = some (47, true) ∧ decodeRetire [0, 2] = none) ∧
    ([(0x01, 1), (0x02, 0), (0x03, 0xFF), (0x04, 1), (0x06, 0), (0x07, 0), (0x09, 7), (0x0A, 0xFF)] :
      List (Byte × Byte)).length = 8 ∧
    (∃ sel, decodeEdit [47, 0x01, 1, 0x02, 0, 0x03, 0xFF, 0x04, 1, 0x06, 0, 0x07, 0, 0x09, 7, 0x0A, 0xFF] = some (47, sel) ∧
      sel.cls = some .held ∧ sel.probeReg = some none ∧ sel.threshold = some 255) ∧
    decodeEdit ([47, 0x05, 1, 0x06, 2] ++ List.replicate 12 0) = none ∧
    decodeAlert [3, 4, 1, 0, 0, 0x80, 0, 0, 0, 0, 1] =
      some (.line 3 { condition := .undelivered, slots := 0x800000000001, drive := .pushPull }) ∧
    decodeAlert [4, 2, 0, 0, 0, 0, 0, 0, 0, 0, 0] = some (.attn false true) := by
  refine ⟨⟨_, rfl⟩, ?_, ?_, ?_, ⟨_, rfl, rfl, rfl, rfl⟩, ?_, ?_, ?_⟩ <;> decide

/-- The port with the outstanding count at its limit, and with the latch set. -/
def fullPort : State := State.reset.setMp { Port.reset with outstanding := 8 }
def latched : State := State.reset.setMp { Port.reset with latch := true, outstanding := 7 }

theorem witness_PushIsCheckedInOrder :
    State.reset.framesTaken ∧ fullPort.framesTaken ∧ latched.framesTaken ∧ kindOf 0x13 = none ∧ kindOf 0x00 = none ∧
    kindOf 0x01 = some .lookup ∧ kindOf 0x12 = some .changes ∧ [(0x01 : Byte), 1, 0, 5].length ≠ commandLength .lookup ∧
    [(0x12 : Byte), 1].length = commandLength .changes ∧ 8 ≤ fullPort.mp.outstanding ∧ latched.mp.outstanding < 8 ∧
    kindOf 0x10 = some .fixProtect ∧ [(0x10 : Byte), 1].length = commandLength .fixProtect ∧
    modifying .fixProtect = true ∧ State.reset.mp.latch = false ∧ latched.mp.latch = true := by
  simp only [State.framesTaken]
  decide

theorem witness_ModifyingCommandsNeedTheLatch : (∃ t, exec (.push [0x10, 1]) latched = .next t ∧
    t.mp.commands = [{ kind := .fixProtect, tag := 1, args := [] }] ∧ modifying .fixProtect = true ∧
    latched.mp.latch = true ∧ t.mp.latch = false) ∧
    (after (.restart [0x01] []) ((pushed .changes 1 [] State.reset).setMp
      { Port.reset with commands := [⟨.changes, 1, []⟩], restartEnable := true })).mp.commands = [] :=
  ⟨⟨_, rfl, by decide, rfl, rfl, rfl⟩, by decide⟩

/-- The port with one response of 36 result bytes, 40 bytes on MDO. -/
def answered : State :=
  State.reset.setMp { Port.reset with responses := [⟨.lookup, 7, .done, List.replicate 36 0⟩], outstanding := 1 }

theorem witness_PopRemovesAWholeResponse : answered.framesTaken ∧
    answered.mp.responses = ⟨.lookup, 7, .done, List.replicate 36 0⟩ :: [] ∧
    (320 % 8 = 0 ∧ (List.replicate 36 (0 : Byte)).length + 4 ≤ 320 / 8) ∧
    (321 % 8 ≠ 0 ∧ 312 / 8 < (List.replicate 36 (0 : Byte)).length + 4) ∧ State.reset.mp.responses = [] := by
  simp only [State.framesTaken]
  decide

theorem witness_UnknownCodesAreIgnored : State.reset.framesTaken ∧
    (0xA1 : Byte) ∉ [(0xA0 : Byte), 0xA3, 0xA4, 0xB1, 0xB2, 0xC9, 0xCA, 0xCB] ∧ (0xA1 : Byte) ≠ 0xA0 ∧
    (0xA1 : Byte) ≠ 0xB2 ∧ 7 ≠ 0 := by
  simp only [State.framesTaken]
  decide

/-- The hub with restart-enable set, one protected range and a RETIRING record in slot 21. -/
def enabled : State :=
  { (hub.createRec 21 { discoveredRecord 0 0x41 0x41 with state := .retiring }).setMp
      { Port.reset with restartEnable := true } with
    pu := { Protection.reset with code := 4 } }

theorem witness_RestartIsTakenOrIgnored : enabled.framesTaken ∧ enabled.mp.restartEnable = true ∧
    State.reset.framesTaken ∧ State.reset.mp.restartEnable = false ∧
    ([(0x03 : Byte)] ≠ [0x01] ∧ [(0x03 : Byte)] ≠ [0x02]) ∧
    (∃ t, exec (.restart [0x01] [1]) enabled = .next t) ∧ (∃ t, exec (.restart [0x02] []) enabled = .next t) := by
  refine ⟨?_, ?_, ?_, ?_, ?_, ⟨_, rfl⟩, ⟨_, rfl⟩⟩
  · simp only [State.framesTaken]
    decide
  · decide
  · simp only [State.framesTaken]
    decide
  · decide
  · decide

theorem witness_RestartKeepsRecords : enabled.framesTaken ∧ enabled.mp.restartEnable = true ∧
    (∃ t, exec (.restart [0x01] []) enabled = .next t) ∧ (∃ t, exec (.restart [0x02] []) enabled = .next t) ∧
    enabled.recAt 20 = some fan ∧ fan.state ≠ .retiring ∧ enabled.isProtected 20 = true ∧
    (enabled.recAt 21).map (fun r => r.state) = some .retiring ∧ hub.isProtected 20 = false ∧
    ((enabled.modPool 1 fun p => { p with queue := [⟨20, [], false⟩, ⟨21, [], false⟩] }).posted 20).length = 1 := by
  refine ⟨?_, ?_, ⟨_, rfl⟩, ⟨_, rfl⟩, ?_⟩
  · simp only [State.framesTaken]
    decide
  · decide
  · decide

/-! ### Witnesses: protection -/

def protecting (pu : Protection) (s : State) : State := s.setPu pu

theorem witness_SetProtectReplacesCodeAndLock :
    decodeProtect [8, 0] = none ∧ decodeProtect [7, 2] = none ∧ decodeProtect [7, 1] = some (7, true) ∧
    (pushed .setProtect 1 [7, 1] hub).queues .setProtect 1 [7, 1] [] ∧
    (protecting { Protection.reset with fixed := true } hub).pu.fixed = true ∧
    ((protecting { Protection.reset with lock := true } hub).pu.fixed = false ∧
      (protecting { Protection.reset with lock := true } hub).pu.lock = true ∧
      (protecting { Protection.reset with lock := true } hub).pu.prot = false) ∧
    (protecting { Protection.reset with lock := true, prot := true } hub).pu.prot = true ∧
    (21 < protectedCount 4 ∧ (enabled.recAt 21).map (fun r => r.state) = some .retiring) ∧
    hub.pu.fixed = false ∧ hub.pu.lock = false ∧
    (∀ i : Slot, i.val < protectedCount 7 → (hub.recAt i).map (fun r => r.state) ≠ some .retiring) := by
  simp only [State.queues]
  decide

theorem witness_FixProtectHoldsUntilFullReset :
    (pushed .fixProtect 1 [] hub).queues .fixProtect 1 [] [] ∧ hub.pu.fixed = false ∧
    (∃ t, exec .writeEnable (protecting { Protection.reset with fixed := true } hub) = .next t) ∧
    (protecting { Protection.reset with fixed := true } hub).pu.fixed = true ∧
    (pushed .setProtect 1 [0, 0] hub).queues .setProtect 1 [0, 0] [] ∧ decodeProtect [0, 0] ≠ none := by
  refine ⟨?_, ?_, ⟨_, rfl⟩, ?_⟩
  · simp only [State.queues]
    decide
  · decide
  · simp only [State.queues]
    decide

theorem hub_one : OneRecord hub fan none := by decide +kernel

theorem hub_recAt (i : Slot) (r : Record) (h : hub.recAt i = some r) : i = 20 ∧ r = fan := hub_one.recAt h

theorem witness_ProtectedSlotsStay :
    (protecting { Protection.reset with code := 7 } hub).NoRetiringProtected ∧
    ∃ t, exec .writeEnable (protecting { Protection.reset with code := 7 } hub) = .next t := by
  refine ⟨fun i r _ h => ?_, _, rfl⟩
  obtain ⟨-, rfl⟩ := hub_recAt i r h
  decide

theorem witness_NoRetiringProtectedKept :
    (protecting { Protection.reset with code := 7 } hub).NoRetiringProtected ∧
    ∃ t, step (protecting { Protection.reset with code := 7 } hub) = .next t := by
  refine ⟨fun i r _ h => ?_, _, rfl⟩
  obtain ⟨-, rfl⟩ := hub_recAt i r h
  decide

/-! ### Witnesses: commands -/

theorem hub_unique : hub.Unique := by
  intro i j r q hi hj hne
  exact absurd ((hub_recAt i r hi).1.trans (hub_recAt j q hj).1.symm) hne

theorem witness_LookupFindsARecord :
    (pushed .lookup 1 [2, 1, 0x2E] hub).queues .lookup 1 [2, 1, 0x2E] [] ∧ hub.recAt 20 = some fan ∧
    hub.lookupAlias 0x2C = some 20 ∧ (1 : Byte).toNat = fan.segment.val ∧ (0x2E : Byte).toNat = fan.target.toNat ∧
    hub.Unique ∧ hub.recAt 47 = none ∧ hub.lookupAlias 0x7F = none ∧ 48 ≤ (48 : Byte).toNat ∧ 128 ≤ (0x80 : Byte).toNat ∧
    4 ≤ (4 : Byte).toNat ∧ 2 < (3 : Byte).toNat := by
  refine ⟨rfl, ?_, ?_, ?_, ?_, hub_unique, ?_⟩ <;> decide

/-- A BIND of this slot byte, alias and pair, and what it decodes to. -/
def bindArgs (slot a k t : Byte) : List Byte := [slot, a, k, t, 0, 0, 0, 0, 8]

/-- The hub with every slot but those below 20 holding a record that no BIND below names. -/
def crowded : State :=
  { hub with dir := { hub.dir with slots := Vector.ofFn fun _ : Slot => some { discoveredRecord 0 0x70 0x70 with state := .absent } } }

theorem witness_BindCreatesAPendingRecord :
    (pushed .bind 1 (bindArgs 5 0x10 1 0x40) hub).queues .bind 1 (bindArgs 5 0x10 1 0x40) [] ∧
    (∃ f, decodeBind (bindArgs 5 0x10 1 0x40) = some f ∧ f.slot = some 5) ∧
    (∃ f, decodeBind (bindArgs 0xFF 0x10 1 0x40) = some f ∧ f.slot = none) ∧
    decodeBind (bindArgs 48 0x10 1 0x40) = none ∧
    (protecting { Protection.reset with code := 2 } hub).isProtected 5 = true ∧
    (hub.recAt 20 = some fan ∧ fan.aliasAddr = 0x2C ∧ fan.segment = 1 ∧ fan.target = 0x2E ∧ hub.recAt 20 ≠ none) ∧
    (∀ i : Slot, crowded.recAt i ≠ none) ∧
    ((hub.engine 1).state ≠ .failed ∧ ((engineAs .failed 3 hub).engine 1).state = .failed) ∧
    (hub.recAt 5 = none ∧ hub.isProtected 5 = false) ∧ (hub.recAt 0 = none ∧ ∀ j : Slot, ¬j < 0) ∧
    (withOp (.probe 5 false) (engineAs .failed 3 hub)).dc.ops = [⟨.probe 5 false, 4, none⟩] := by
  refine ⟨rfl, ⟨_, rfl, rfl⟩, ⟨_, rfl, rfl⟩, ?_, ?_, ?_, ?_, ?_, ?_, ?_, ?_⟩ <;> decide

/-- The hub with a forward request of slot 20 waiting, its engine RECOVERING from a line found low. -/
def requested : State := after (.addressEvent 0x2C .read [1]) hub

theorem witness_EditChangesSelectedFields :
    (pushed .edit 1 ([20, 0x0A, 3] ++ List.replicate 14 0) hub).queues .edit 1 ([20, 0x0A, 3] ++ List.replicate 14 0) [] ∧
    decodeEdit ([20, 0x0B, 3] ++ List.replicate 14 0) = none ∧
    (∃ sel, decodeEdit ([20, 0x0A, 3] ++ List.replicate 14 0) = some (20, sel) ∧ sel.threshold = some 3) ∧
    State.reset.recAt 20 = none ∧ hub.recAt 20 = some fan ∧ enabled.isProtected 20 = true ∧ hub.isProtected 20 = false ∧
    fan.frozen = false ∧ { fan with frozen := true }.probeReg = none ∧
    (fan.state = .bound ∧ 3 ≤ { fan with errorCount := 3 }.errorCount ∧ ¬3 ≤ fan.errorCount) ∧
    (requested.engine 1).request = some ⟨some 20, 0x2E, .read⟩ := by
  refine ⟨rfl, ?_, ⟨_, rfl, rfl⟩, ?_, ?_, ?_, ?_, ?_, ?_, ?_, ?_⟩ <;> decide

theorem witness_RebindMovesARecord :
    (pushed .rebind 1 [20, 2, 0x30] hub).queues .rebind 1 [20, 2, 0x30] [] ∧ decodeRebind [48, 2, 0x30] = none ∧
    decodeRebind [20, 2, 0x30] = some (20, 2, 0x30) ∧ State.reset.recAt 20 = none ∧ hub.recAt 20 = some fan ∧
    enabled.isProtected 20 = true ∧ hub.isProtected 20 = false ∧ { fan with marker := .forward }.marker = .forward ∧
    (fan.state ≠ .retiring ∧ fan.marker = .none) ∧
    ((21 : Slot) ≠ 20 ∧ (enabled.recAt 21).map (fun r => (r.segment, r.target)) = some (0, 0x41)) ∧
    (∀ j : Slot, j ≠ 20 → hub.recAt j = none) ∧
    (((engineAs .failed 3 hub).engine 1).state = .failed ∧ (hub.engine 2).state ≠ .failed) ∧
    ((withOp (.probe 20 true) hub).dc.ops = [⟨.probe 20 true, 4, none⟩] ∧
      (engineAs .recovering 0 hub).engine 2 = hub.engine 2 ∧ ((engineAs .recovering 0 hub).engine 1).state ≠ .idle) ∧
    ((probing fan .quickProbe).engine 1).tx.map (fun x => x.slot) = some (some 20) := by
  refine ⟨rfl, ?_, ?_, ?_, ?_, ?_, ?_, ?_, ?_, ?_, ?_, ?_, ?_, ?_⟩ <;> decide

theorem witness_RetireFreesOrWaits :
    (pushed .retire 1 [20, 1] hub).queues .retire 1 [20, 1] [] ∧ decodeRetire [20, 2] = none ∧
    decodeRetire [20, 1] = some (20, true) ∧ State.reset.recAt 20 = none ∧ hub.recAt 20 = some fan ∧
    enabled.isProtected 20 = true ∧ hub.isProtected 20 = false ∧ fan.marker = .none ∧
    hub.busEntries 1 = [] ∧ (hub.poolSeg 1).queue = [] ∧
    ((delivering fan .address .address ⟨20, [], false⟩).recAt 20).map (fun r => r.marker) = some .delivery ∧
    ((withOp (.probe 20 false) hub).dc.ops = [⟨.probe 20 false, 4, none⟩] ∧
      (withOp (.retire 20 3) hub).dc.ops = [⟨.retire 20 3, 4, none⟩]) ∧
    ({ fan with state := .retiring }.state = .retiring ∧ fan.state ≠ .retiring) := by
  refine ⟨rfl, ?_, ?_, ?_, ?_, ?_, ?_, ?_, ?_, ?_, ?_, ?_, ?_⟩ <;> decide

theorem witness_ClearCountsClearsThree :
    (pushed .clearCounts 1 [20] hub).queues .clearCounts 1 [20] [] ∧ hub.recAt 20 = some fan ∧ hub.recAt 47 = none ∧
    (20 : Byte).toNat = (20 : Slot).val ∧ 48 ≤ (48 : Byte).toNat ∧ (48 : Byte) ≠ 0xFF := by
  refine ⟨rfl, ?_, ?_, ?_, ?_, ?_⟩ <;> decide

theorem witness_ProbeQueuesARequest :
    (pushed .probe 1 [20] hub).queues .probe 1 [20] [] ∧ 48 ≤ (48 : Byte).toNat ∧ hub.recAt 47 = none ∧
    hub.recAt 20 = some fan ∧ fan.state ≠ .retiring ∧ { fan with state := .retiring }.state = .retiring ∧
    ((engineAs .failed 3 hub).engine fan.segment).state = .failed ∧ (hub.engine fan.segment).state ≠ .failed := by
  refine ⟨rfl, ?_, ?_, ?_, ?_, ?_, ?_, ?_⟩ <;> decide

theorem witness_DiscoverCreatesAContext :
    (pushed .discover 1 [3, 0x08, 0x77, 0x08] hub).queues .discover 1 [3, 0x08, 0x77, 0x08] [] ∧
    ¬((3 : Byte).toNat < 4 ∧ 0x08 ≤ (0x07 : Byte).toNat) ∧
    ((3 : Byte).toNat = (3 : Seg).val ∧ 0x08 ≤ (0x08 : Byte).toNat ∧ (0x08 : Byte).toNat ≤ (0x77 : Byte).toNat ∧
      (0x77 : Byte).toNat ≤ 0x77 ∧ (0x08 : Byte).toNat + ((0x77 : Byte).toNat - (0x08 : Byte).toNat) ≤ 0x77) ∧
    ((discovering 0x50 false).engine 3).discovery ≠ none ∧ (hub.engine 3).discovery = none ∧
    (hub.engine 3).state ≠ .failed ∧ ((engineAs .failed 3 hub).engine 1).state = .failed := by
  refine ⟨rfl, ?_, ?_, ?_, ?_, ?_, ?_⟩ <;> decide

theorem witness_CancelReachesItsDiscoveries :
    (pushed .cancel 1 [0x72] (discovering 0x50 false)).queues .cancel 1 [0x72] [] ∧
    (∀ k, (hub.engine k).discovery = none) ∧
    ((discovering 0x50 false).engine 3).discovery.map (fun d => d.tag) = some 0x72 ∧
    (∀ o ∈ (withOp (.discover 1) (offering 0x50 0x51)).dc.ops, o.answer = none) ∧
    ((withOp (.discover 1) (offering 0x50 0x51)).engine 1).discovery.map (fun d => (d.tag, d.onBus)) = some (0x72, none) := by
  refine ⟨rfl, ?_, ?_, ?_, ?_⟩ <;> decide

theorem witness_PauseByEngineState :
    (pushed .pause 1 [1] hub).queues .pause 1 [1] [] ∧ 4 ≤ (4 : Byte).toNat ∧ (1 : Byte).toNat = (1 : Seg).val ∧
    (withOp (.pause 1) hub).waitsPause 1 = true ∧ (withOp (.resume 1) hub).waitsResume 1 = true ∧
    hub.waitsPause 1 = false ∧ hub.waitsResume 1 = false ∧
    (∀ e ∈ [EngState.failed, .paused, .active, .recovering, .idle], ((engineAs e 0 hub).engine 1).state = e) := by
  refine ⟨rfl, ?_, ?_, ?_, ?_, ?_, ?_, ?_⟩ <;> decide

theorem witness_ResumeByEngineState :
    (pushed .resume 1 [1] hub).queues .resume 1 [1] [] ∧ 4 ≤ (4 : Byte).toNat ∧ (1 : Byte).toNat = (1 : Seg).val ∧
    (withOp (.resume 1) hub).waitsResume 1 = true ∧ hub.waitsResume 1 = false ∧
    (∀ e ∈ [EngState.failed, .paused, .active, .recovering, .idle], ((engineAs e 0 hub).engine 1).state = e) ∧
    (∀ o ∈ (withOp (.pause 1) hub).dc.ops, o.answer = none) := by
  refine ⟨rfl, ?_, ?_, ?_, ?_, ?_, ?_⟩ <;> decide

theorem witness_FlushEmptiesAQueue :
    (pushed .flush 1 [1] hub).queues .flush 1 [1] [] ∧ 4 ≤ (0xFF : Byte).toNat ∧ (1 : Byte).toNat = (1 : Seg).val ∧
    hub.recAt 20 = some fan ∧ hub.recAt 47 = none ∧
    ((draining.recAt 20).map (fun r => (r.state, r.marker, r.segment)) = some (.retiring, .none, 1) ∧
      draining.purged 1 20 ≠ [] ∧ draining.dc.ops = [⟨.retire 20 3, 4, none⟩]) := by
  refine ⟨rfl, ?_, ?_, ?_, ?_, ?_⟩ <;> decide

theorem witness_PartitionReplacesShares :
    (pushed .partition 1 [2, 0, 0, 0, 0, 0, 0, 0] hub).queues .partition 1 [2, 0, 0, 0, 0, 0, 0, 0] [] ∧
    ((∀ k, (hub.poolSeg k).queue = []) ∧ hub.pool.reservation = none) ∧ (posting []).pool.reservation ≠ none ∧
    (32 ≤ 512 ∧ 512 ≤ 512 ∧ 512 % 8 = 0 ∧ ¬(32 ≤ 24)) := by
  refine ⟨rfl, ?_, ?_, ?_⟩ <;> decide

theorem witness_SetTimingChangesSettings :
    (pushed .setTiming 1 [1, 255, 1, 1, 0, 1, 0, 0xFF, 0xAA] hub).queues .setTiming 1 [1, 255, 1, 1, 0, 1, 0, 0xFF, 0xAA] [] ∧
    (∀ n, n < 4 → (0xAA : Byte).toNat / 4 ^ n % 4 ≠ 3) ∧ ¬((0 : Byte) ≠ 0) := by
  refine ⟨rfl, ?_, ?_⟩ <;> decide

theorem witness_SetAlertAndChanges :
    (pushed .setAlert 1 [4, 3, 0] hub).queues .setAlert 1 [4, 3, 0] [] ∧ decodeAlert [5] = none ∧
    decodeAlert [4, 4, 0] = none ∧ decodeAlert [4, 3, 0] = some (.attn true true) ∧
    decodeAlert [3, 4, 1, 0, 0, 0x80, 0, 0, 0, 0, 1] =
      some (.line 3 { condition := .undelivered, slots := 0x800000000001, drive := .pushPull }) ∧
    (pushed .changes 1 [] hub).queues .changes 1 [] [] := by
  refine ⟨rfl, ?_, ?_, ?_, ?_, rfl⟩ <;> decide

/-! ### Witnesses: the upstream port -/

def catching (s : State) : State := s.setUp { s.up with catchAll := some 3 }

theorem witness_AddressIsResolvedByRecord :
    (hub.inReset = false ∧ hub.up.ctx.phase = .unaddressed ∧ hub.up.ctx.downOpen = none) ∧
    ((0x07 : Addr).toNat < 0x08 ∧ 0x77 < (0x78 : Addr).toNat) ∧
    (hub.lookupAlias 0x08 = none ∧ hub.lookupAlias 0x77 = none ∧ hub.up.catchAll = none) ∧
    ((catching hub).up.catchAll = some 3 ∧ ((catching hub).engine 3).state = .idle) ∧
    ((catching (hub.modEngine 3 fun e => { e with state := .failed })).engine 3).state = .failed ∧
    (hub.lookupAlias 0x2C = some 20 ∧ hub.recAt 20 = some fan) ∧
    (fan.state = .bound ∧ fan.posting = true ∧ (hub.engine 1).state ≠ .failed ∧
      18 + queueCost (hub.poolSeg 1).queue ≤ (hub.poolSeg 1).share ∧ hub.pool.reservation = none) ∧
    ((engineAs .paused 0 hub).engine 1).state = .paused ∧ fan.policy = .refuse ∧
    { fan with policy := .fill, state := .absent }.policy = .fill ∧
    (relaying .write .write .data .waitUp).up.ctx.phase ≠ .unaddressed := by decide

/-- Between a repeated start and its address: UP UNADDRESSED with a forward, or a catch-all transaction, open. -/
def betweenAddresses (s : State) : State := s.setCtx (.unaddressed (some 1))

def openForward : State := betweenAddresses (relaying .write .write .data .waitUp)

def openCatchAll : State :=
  (betweenAddresses (carrying 1 { Tx.start .catchAll none 0x33 .write none false with phase := .data, step := .waitUp }
    .none State.reset)).setUp { (betweenAddresses State.reset).up with catchAll := some 1 }

/-- The same, its record ABSENT by a probe outcome meanwhile. -/
def leftBound : State := openForward.modRec 20 fun r => { r with state := .absent }

theorem leftBound_one :
    OneRecord leftBound { fan with state := .absent, marker := .forward } (some (forwardTx 0x2E .write .data .waitUp)) := by
  decide +kernel

/-- A catch-all write under way on segment 1. -/
def relayedCatchAll : State :=
  (carrying 1 { Tx.start .catchAll none 0x33 .write none false with phase := .data, step := .waitUp } .none State.reset).setCtx
    { freshContext .write .catchAll 0x33 .write none (some 1) none none with downOpen := some 1 }

theorem openForward_one : OneRecord openForward { fan with marker := .forward } (some (forwardTx 0x2E .write .data .waitUp)) := by
  decide +kernel

/-- An address that finds no record, and the alias of a record that has left BOUND (R43), continue no open forward. -/
theorem witness_AddressIsResolvedByRecord_elsewhere : openForward.up.ctx.phase = .unaddressed ∧ openForward.IndexLaw ∧
    (∀ k x, openForward.onBus k x → x.slot ≠ openForward.lookupAlias 0x33 ∧ x.slot ≠ none) ∧
    (leftBound.up.ctx.phase = .unaddressed ∧ leftBound.IndexLaw ∧
      ∀ i r, leftBound.recAt i = some r → r.state ≠ .bound ∧ leftBound.lookupAlias r.aliasAddr ≠ none) := by
  refine ⟨rfl, openForward_one.indexLaw (by decide), fun k x h => ?_, rfl, leftBound_one.indexLaw (by decide), fun i r h => ?_⟩
  · rw [(openForward_one.tx h.1).2.2.1]
    decide
  · obtain ⟨-, rfl⟩ := leftBound_one.recAt h
    decide

theorem witness_AddressIsResolvedByRecord_abandoned : hub.up.ctx.downOpen = none ∧
    (openForward.up.ctx.downOpen = some 1 ∧ openForward.onBus 1 (forwardTx 0x2E .write .data .waitUp) ∧
      (forwardTx 0x2E .write .data .waitUp).isForward = true ∧ (forwardTx 0x2E .write .data .waitUp).phase ≠ .closing) ∧
    ((betweenAddresses (relaying .write .write .closing .stop)).onBus 1 (forwardTx 0x2E .write .closing .stop) ∧
      (forwardTx 0x2E .write .closing .stop).phase = .closing) := by
  simp only [State.onBus]
  decide

theorem witness_AddressIsResolvedByRecord_continued :
    (openForward.up.ctx.downOpen = some 1 ∧ openForward.onBus 1 (forwardTx 0x2E .write .data .waitUp) ∧
      (forwardTx 0x2E .write .data .waitUp).isForward = true ∧ (forwardTx 0x2E .write .data .waitUp).phase ≠ .closing ∧
      openForward.lookupAlias 0x2C = some 20 ∧ (openForward.recAt 20).map (fun r => (r.state, r.segment)) = some (.bound, 1)) ∧
    (openCatchAll.up.ctx.downOpen = some 1 ∧ openCatchAll.up.catchAll = some 1 ∧ openCatchAll.lookupAlias 0x33 = none ∧
      (openCatchAll.engine 1).tx.map (fun x => (x.slot, x.target, x.silent)) = some (none, 0x33, false)) := by
  simp only [State.onBus]
  decide

theorem witness_RepeatedStartClosesTheMode :
    (posting []).inReset = false ∧ (posting []).up.ctx.mode = some .posted ∧
    ((standingIn .write .write).up.ctx.mode = some .standIn ∧ (standingIn .write .write).up.ctx.downOpen = none) ∧
    ((relaying .write .write .data .waitUp).up.ctx.mode = some .forward ∧
      (relaying .write .write .data .waitUp).up.ctx.downOpen = some 1 ∧
      ((relaying .write .write .data .waitUp).engine 1).tx = some (forwardTx 0x2E .write .data .waitUp) ∧
      (forwardTx 0x2E .write .data .waitUp).step = .waitUp) ∧
    ((relaying .write .write .data (.send 1)).engine 1).tx = some (forwardTx 0x2E .write .data (.send 1)) := by decide

/-- A repeated start while UP is UNADDRESSED, with nothing open, and with a forward open. -/
theorem witness_RepeatedStartClosesTheMode_unaddressed :
    (hub.up.ctx.mode = none ∧ hub.up.ctx.downOpen = none) ∧
    (openForward.inReset = false ∧ openForward.up.ctx.mode = none ∧ openForward.up.ctx.downOpen = some 1 ∧
      openForward.onBus 1 (forwardTx 0x2E .write .data .waitUp) ∧ (forwardTx 0x2E .write .data .waitUp).phase ≠ .closing) ∧
    (betweenAddresses (relaying .write .write .closing .stop)).onBus 1 (forwardTx 0x2E .write .closing .stop) := by
  simp only [State.onBus]
  decide

/-- The slot of a POSTED write's record RETIRING, its undelivered count at this value. -/
def postingTo (r : Record) : State := (posting [1]).putRec 20 (some r)

theorem witness_StopCommitsOrEndsDownstream :
    ((posting [1]).up.ctx.slot = some 20 ∧ (posting [1]).up.ctx.address = some (0x2C, .write) ∧
      (posting [1]).pool.reservation = some 1 ∧ (posting [1]).recAt 20 = some fan ∧ fan.aliasAddr = 0x2C ∧
      ((posting [1]).engine 1).state ≠ .failed) ∧
    ((postingTo { fan with state := .absent, undelivered := 254 }).recAt 20 =
      some { fan with state := .absent, undelivered := 254 }) ∧
    ((postingTo { fan with state := .absent, undelivered := 255 }).recAt 20 =
      some { fan with state := .absent, undelivered := 255 }) ∧
    ((postingTo { fan with aliasAddr := 0x2D }).recAt 20 = some { fan with aliasAddr := 0x2D }) ∧
    ((relaying .write .write .data .waitUp).onBus 1 (forwardTx 0x2E .write .data .waitUp) ∧
      (relaying .write .write .closing .stop).onBus 1 (forwardTx 0x2E .write .closing .stop)) ∧
    ((after (.addressEvent 0x2C .read [1]) hub).up.ctx.segment = some 1 ∧
      (after (.addressEvent 0x2C .read [1]) hub).up.ctx.downOpen = none) ∧
    ((standingIn .write .write).up.ctx.segment = none ∧ (standingIn .write .write).up.ctx.downOpen = none) := by
  simp only [State.onBus]
  decide

theorem witness_UpstreamBytesByMode :
    ((posting (List.replicate 15 0)).up.ctx.staged.length < 16 ∧ (posting []).up.ctx.phase = .write ∧
      (posting []).up.ctx.mode = some .posted ∧ 16 ≤ (posting (List.replicate 16 0)).up.ctx.staged.length) ∧
    ((standingIn .write .write).up.ctx.phase = .write ∧ (standingIn .write .write).up.ctx.mode = some .standIn) ∧
    (relaying .write .write .data .waitUp).onBus 1 (forwardTx 0x2E .write .data .waitUp) ∧
    ((standingIn .read .read).up.ctx.lastByteGiven = false ∧ (standingIn .read .read).up.ctx.answer = some ⟨.fill, 0xEE⟩) ∧
    ((relaying .read .read .data (.hold 5)).up.ctx.phase = .read ∧
      ((relaying .read .read .data (.hold 5)).engine 1).tx = some (forwardTx 0x2E .read .data (.hold 5))) := by
  simp only [State.onBus]
  decide

theorem witness_HoldLimitAnswersUpstream :
    let waits := after (.addressEvent 0x2C .read [1]) hub
    (waits.up.ctx.hold = some ⟨25, 0⟩ ∧ waits.up.ctx.downOpen = none ∧ waits.up.ctx.segment = some 1 ∧
      waits.up.ctx.phase = .address) ∧
    ((relaying .write .write .data (.send 1)).up.ctx.hold = some ⟨25, 0⟩ ∧
      (relaying .write .write .data (.send 1)).onBus 1 (forwardTx 0x2E .write .data (.send 1)) ∧
      (relaying .write .write .data (.send 1)).up.ctx.phase = .write) ∧
    ((relaying .read .read .data .fetch).onBus 1 (forwardTx 0x2E .read .data .fetch) ∧
      (relaying .read .read .data .fetch).up.ctx.answer = some ⟨.refuse, 0xFF⟩) := by
  simp only [State.onBus]
  decide

/-! ### Witnesses: the segment buses -/

theorem witness_TargetAddressAnswerIsRelayed :
    ((relaying .read .address .address .address).onBus 1 (forwardTx 0x2E .read .address .address) ∧
      (forwardTx 0x2E .read .address .address).step = .address ∧ Relays (relaying .read .address .address .address) 1 ∧
      (relaying .read .address .address .address).recAt 20 = some { fan with marker := .forward }) ∧
    (¬Relays (carrying 1 (forwardTx 0x2E .read .closing .address) .forward hub) 1 ∧
      (forwardTx 0x2E .read .closing .address).phase = .closing) ∧
    ((delivering fan .address .address ⟨20, [7], false⟩).poolSeg 1).queue = [⟨20, [7], false⟩, ⟨20, [], false⟩] ∧
    ((delivering fan .address .address ⟨20, [7], false⟩).engine 1).tx.map (fun x => (x.kind, x.silent)) =
      some (.delivery, false) := by
  simp only [State.onBus, Relays]
  decide

theorem witness_TargetBytesAreRelayed :
    ((relaying .write .write .data (.send 7)).onBus 1 (forwardTx 0x2E .write .data (.send 7)) ∧
      Relays (relaying .write .write .data (.send 7)) 1) ∧
    ¬Relays (carrying 1 (forwardTx 0x2E .write .closing (.send 7)) .forward hub) 1 ∧
    (([7] : List Byte).length ≤ 0 + 1 ∧ ([7, 8] : List Byte)[0 + 1]? = some 8) ∧
    ((delivering fan .data (.send 7) ⟨20, [7, 8], false⟩).poolSeg 1).queue = [⟨20, [7, 8], false⟩, ⟨20, [], false⟩] ∧
    (relaying .read .read .data .fetch).onBus 1 (forwardTx 0x2E .read .data .fetch) := by
  simp only [State.onBus, Relays]
  decide

/-- `s` with a forward request of slot 20 waiting behind the transaction of engine 1. -/
def queuedBehind (s : State) : State := s.modEngine 1 fun e => { e with request := some ⟨some 20, 0x2E, .read⟩ }

theorem witness_ForwardEnds_laws :
    (relaying .read .read .closing .stop).WorkLaw ∧ (queuedBehind (relaying .read .read .closing .stop)).WorkLaw ∧
    ((queuedBehind hub).engine 1).request = some ⟨some 20, 0x2E, .read⟩ ∧
    ({ fan with errorCount := 7 }.charged 20).state = .quarantined ∧ (fan.charged 20).state = fan.state := by
  refine ⟨OneRecord.workLaw (r := { fan with marker := .forward }) (x := some (forwardTx 0x2E .read .closing .stop)) ?_,
    OneRecord.workLaw (r := { fan with marker := .forward }) (x := some (forwardTx 0x2E .read .closing .stop)) ?_, ?_⟩ <;>
    decide +kernel

theorem witness_ForwardEnds :
    (relaying .read .read .closing .stop).inReset = false ∧
    (relaying .read .read .closing .stop).onBus 1 (forwardTx 0x2E .read .closing .stop) ∧
    (forwardTx 0x2E .read .closing .stop).isForward = true ∧
    ((relaying .read .read .closing .stop).engine 1).request = none ∧
    (relaying .read .read .closing .stop).recAt 20 = some { fan with marker := .forward } ∧ fan.segment = 1 ∧
    (openCatchAll.engine 1).tx.map (fun x => x.slot) = some none := by
  simp only [State.onBus]
  decide

theorem witness_DeliveryEnds :
    let s := delivering fan .data (.send 7) ⟨20, [7], false⟩
    let x : Tx := { Tx.start .delivery (some 20) 0x2E .write none true with phase := .data, step := .send 7 }
    s.inReset = false ∧ s.onBus 1 x ∧ (s.poolSeg 1).queue = ⟨20, [7], false⟩ :: [⟨20, [], false⟩] ∧
    s.recAt 20 = some { fan with marker := .delivery } ∧ deliveryFits x ⟨20, [7], false⟩ .complete = true ∧
    deliveryFits x ⟨20, [7], false⟩ .dataNak = true ∧
    deliveryFits { x with phase := .address } ⟨20, [], false⟩ .addressNak = true := by
  simp only [State.onBus]
  decide

theorem witness_DeliveryEnds_laws :
    (queuedBehind (delivering fan .data (.send 7) ⟨20, [7], false⟩)).WorkLaw ∧
    ({ fan with errorCount := 7 }.oneLost.charged 20).state = .quarantined ∧ fan.undelivered < 255 := by
  refine ⟨OneRecord.workLaw (r := { fan with marker := .delivery })
    (x := some { Tx.start .delivery (some 20) 0x2E .write none true with phase := .data, step := .send 7 }) ?_, ?_⟩ <;>
    decide +kernel

theorem witness_ProbeEnds_laws :
    (probing { fan with state := .pending } .quickProbe).WorkLaw ∧ (queuedBehind (probing fan .quickProbe)).WorkLaw ∧
    (probing fan .quickProbe).dc.ops = [⟨.probe 20 true, 9, none⟩] ∧
    (fan.probed 20 .notPresent none).state = .absent ∧ (fan.probed 20 .present none).state = .bound := by
  refine ⟨OneRecord.workLaw (r := { fan with state := .pending, marker := .probe })
      (x := some (Tx.start .quickProbe (some 20) 0x2E .write none true)) ?_,
    OneRecord.workLaw (r := { fan with marker := .probe }) (x := some (Tx.start .quickProbe (some 20) 0x2E .write none true)) ?_,
    ?_⟩ <;> decide +kernel

theorem witness_ProbeEnds :
    let r := { fan with state := .pending, probeReg := some 0x19, frozen := true, identity := some 0x20 }
    let x := Tx.start .identityProbe (some 20) 0x2E .write (some 0x19) true
    (probing r .identityProbe).inReset = false ∧ (probing r .identityProbe).onBus 1 x ∧ x.isProbe = true ∧
    (probing r .identityProbe).recAt 20 = some { r with marker := .probe } ∧
    ProbeApplies x 1 r ∧ ¬ProbeApplies x 1 { r with state := .retiring } ∧
    (r.identity = some 0x20 ∧ (0x21 : Byte) ≠ 0x20) ∧
    (abandonedProbe.inReset = false ∧ abandonedProbe.onBus 1 disowned ∧ abandonedProbe.recAt 20 = none) := by
  simp only [State.onBus, ProbeApplies]
  decide

/-- A probe whose record was rebound away, which frees a RETIRING slot with it, and one whose slot is FREE, for each of
which a PROBE waits; and a pending PAUSE that waits. -/
theorem witness_probes_that_no_longer_apply :
    (¬ProbeApplies disowned 1 fan ∧ (movedProbe.recAt 20).map (fun r => r.segment) = some 2 ∧
      movedProbe.onBus 1 disowned ∧ (movedProbe.engine 1).stall ≠ none) ∧
    ((probing { fan with state := .retiring } .quickProbe).dc.ops = [⟨.probe 20 true, 9, none⟩] ∧
      (probing { fan with state := .retiring } .quickProbe).recAt 20 =
        some { fan with state := .retiring, marker := .probe }) ∧
    ((abandonedProbe.engine 1).stall ≠ none ∧ abandonedProbe.dc.ops = [⟨.probe 20 true, 9, none⟩]) ∧
    ((pausing (probing fan .quickProbe)).engine 1).pausePending = true ∧
      (pausing (probing fan .quickProbe)).dc.ops = [⟨.pause 1, 4, none⟩] := by
  simp only [State.onBus, ProbeApplies]
  decide

/-- R65, R97, R144, R145: a stalled probe answers its PROBE DONE, NOT_PRESENT and ABSENT; of a RETIRING record, RETIRED. -/
theorem test_stalled_probe_answers :
    lastAnswer (after (.stall 1 (.expires [])) (probing fan .quickProbe)) = some (.done, [0x02, 0x00, 0x00, 0x04]) ∧
    lastAnswer (after (.stall 1 (.expires [])) (probing { fan with state := .retiring } .quickProbe)) = some (.retired, []) ∧
    (after (.stall 1 (.expires [])) (probing { fan with state := .retiring } .quickProbe)).recAt 20 = none := by decide

/-- R124, R125: a discovery with a cancel noted ends CANCELLED at a cut, its address not finished, and at a stall, its
address finished; at the last address a stall ends it DONE. -/
theorem test_cut_and_stalled_discovery_answer :
    lastAnswer (after (.busFault 3) (discovering 0x50 true)) = some (.cancelled, [0, 0, 0, 0, 0xFF]) ∧
    lastAnswer (after (.stall 3 (.expires [])) (discovering 0x50 true)) = some (.cancelled, [0, 0, 0, 0, 0x50]) ∧
    lastAnswer (after (.stall 3 (.expires [])) (discovering 0x51 false)) = some (.done, [0, 0, 0, 0, 0x51]) := by decide

/-- R68, R143: a cut probe goes back with its note, and is not put back when its record was rebound away. -/
theorem test_cut_probe_goes_back :
    let t := after (.busFault 1) (probing fan .quickProbe)
    ((t.engine 1).probeQueue = [20] ∧ t.dc.ops = [⟨.probe 20 false, 9, none⟩]) ∧
    ((after (.busFault 1) movedProbe).engine 1).probeQueue = [] := by decide

theorem witness_DiscoveryProbeEnds :
    let s := discovering 0x50 false
    s.inReset = false ∧ s.onBus 3 (Tx.start .discoveryProbe none 0x50 .write none false) ∧
    (s.engine 3).discovery.map (fun d => (d.low, d.high, d.base)) = some (0x50, 0x51, 0x60) ∧
    (s.recAt 0 = none ∧ s.isProtected 0 = false ∧ ∀ j : Slot, ¬j < 0) ∧ (∀ j : Slot, crowded.recAt j ≠ none) ∧
    (hub.recAt 20).map (fun r => (r.segment, r.target, r.aliasAddr)) = some (1, 0x2E, 0x2C) := by
  simp only [State.onBus]
  decide

/-- The laws that the statements of STALL and BUS_FAULT ask for, while UP reads, while UP writes, and while nothing is
relayed and a request waits behind. -/
theorem witness_WorkLawWhileRelaying :
    ((relaying .read .read .data .fetch).WorkLaw ∧ (relaying .read .read .data .fetch).up.ctx.phase = .read) ∧
    ((relaying .write .write .data (.send 1)).WorkLaw ∧ (relaying .write .write .data (.send 1)).up.ctx.phase ≠ .read ∧
      (relaying .write .write .data (.send 1)).up.ctx.hold ≠ none) ∧
    (queuedBehind (relaying .read .read .closing .stop)).WorkLaw := by
  refine ⟨⟨OneRecord.workLaw (r := { fan with marker := .forward }) (x := some (forwardTx 0x2E .read .data .fetch)) ?_, ?_⟩,
    ⟨OneRecord.workLaw (r := { fan with marker := .forward }) (x := some (forwardTx 0x2E .write .data (.send 1))) ?_, ?_⟩,
    witness_ForwardEnds_laws.2.1⟩ <;> decide +kernel

/-- The two states in which UP relays and holds no clock keep the laws. -/
theorem witness_WorkLawWhileNoClockIsHeld :
    (lastByteNaked.WorkLaw ∧ lastByteNaked.up.ctx.hold = none ∧ lastByteNaked.up.ctx.phase = .read) ∧
    (betweenBytes.WorkLaw ∧ betweenBytes.up.ctx.hold = none ∧ betweenBytes.up.ctx.phase = .write ∧
      Relays betweenBytes 1 ∧ (betweenBytes.engine 1).tx.map (fun x => (x.kind, x.phase, x.silent)) =
        some (.forward, .data, false)) := by
  refine ⟨⟨OneRecord.workLaw (r := { fan with marker := .forward })
      (x := some { forwardTx 0x2E .read .data .nak with carried := 1 }) ?_, ?_⟩,
    OneRecord.workLaw (r := { fan with marker := .forward })
      (x := some { forwardTx 0x2E .write .data .waitUp with carried := 1 }) ?_, ?_⟩
  all_goals first | decide +kernel | (simp only [Relays]; decide +kernel)

/-- A closing that a restart left on segment 1, whose target holds the clock. -/
def silentClosing : State := carrying 1 { forwardTx 0x2E .read .closing .stop with silent := true } .none hub

theorem witness_StallEndsTheTransaction :
    let s := relaying .read .read .data .fetch
    s.inReset = false ∧ s.onBus 1 (forwardTx 0x2E .read .data .fetch) ∧ (s.engine 1).stall ≠ none ∧ Relays s 1 ∧
    (s.engine 1).request = none ∧ s.up.ctx.hold ≠ none ∧ s.up.ctx.answer = some ⟨.refuse, 0xFF⟩ ∧
    s.recAt 20 = some { fan with marker := .forward } ∧
    (Relays lastByteNaked 1 ∧ (lastByteNaked.engine 1).stall ≠ none ∧ (lastByteNaked.engine 1).request = none ∧
      lastByteNaked.onBus 1 { forwardTx 0x2E .read .data .nak with carried := 1 }) ∧
    ((delivering fan .data (.send 7) ⟨20, [7], false⟩).engine 1).stall ≠ none ∧
    ((probing fan .quickProbe).engine 1).stall ≠ none ∧ ((discovering 0x50 false).engine 3).stall ≠ none ∧
    (((discovering 0x51 false).engine 3).discovery.map (fun d => d.high) = some 0x51 ∧
      ((discovering 0x50 true).engine 3).discovery.map (fun d => d.cancelRequested) = some true) ∧
    ((openCatchAll.engine 1).tx.map (fun x => (x.kind, x.slot)) = some (.catchAll, none)) ∧
    (silentClosing.engine 1).tx.map (fun x => (x.silent, x.step)) = some (true, .stop) ∧
    (silentClosing.engine 1).stall ≠ none := by
  simp only [State.onBus, Relays]
  decide

/-- What STALL meets besides: a clock released with the timer stopped; an engine's own hold, of which the timer does not
run; the bit of a NAK; and a segment with no transaction. -/
theorem witness_StallEndsTheTransaction_timer :
    (((after (.stall 1 .rises) (relaying .read .read .data .fetch)).engine 1).stall = none ∧
      ((after (.stall 1 .rises) (relaying .read .read .data .fetch)).engine 1).tx.map (fun x => x.step) = some .fetch) ∧
    (betweenBytes.engine 1).stall = none ∧
      (betweenBytes.engine 1).tx.map (fun x => x.step) = some .waitUp ∧
    (lastByteNaked.engine 1).tx.map (fun x => x.step) = some .nak ∧ (hub.engine 1).tx = none := by decide

/-- A catch-all transaction relayed keeps the laws too: it names no slot. -/
theorem witness_WorkLawWhileRelaying_catchAll : relayedCatchAll.WorkLaw ∧ Relays relayedCatchAll 1 := by
  have free : ∀ i, relayedCatchAll.recAt i = none := by decide
  have quiet : ∀ k : Seg, (relayedCatchAll.engine k).request = none ∧ (relayedCatchAll.engine k).probeQueue = [] ∧
      relayedCatchAll.waitingEntries k = [] ∧ relayedCatchAll.deliveryOnBus k = false ∧
      (relayedCatchAll.poolSeg k).purgeMark = false ∧
      ((relayedCatchAll.engine k).tx.isSome = true ↔ (relayedCatchAll.engine k).state = .active) := by decide
  have txOf : ∀ {k : Seg} {t : Tx}, (relayedCatchAll.engine k).tx = some t →
      t.kind = .catchAll ∧ t.slot = none ∧ t.ownsMarker = false := by
    intro k t ht
    have : ∀ k : Seg, (relayedCatchAll.engine k).tx.all
        (fun t => t.kind == .catchAll && t.slot == none && !t.ownsMarker) = true := by decide
    have := this k
    rw [ht] at this
    simp only [Option.all_some, Bool.and_eq_true, beq_iff_eq, Bool.not_eq_true'] at this
    exact ⟨this.1.1, this.1.2, this.2⟩
  refine ⟨⟨fun k => (quiet k).2.2.2.2.2, fun k t ht => ⟨fun _ => .inl (txOf ht).1, fun _ => (txOf ht).2.1⟩,
    ⟨fun i r h => ?_, fun k t ht ho => ?_, fun k t ht _ hk => ?_⟩, fun k => ⟨fun e he => ?_, fun h => ?_, fun h => ?_⟩,
    fun k q i hq => ?_, fun k i hi => ?_⟩, by simp only [Relays]; decide⟩
  · rw [free] at h; cases h
  · rw [(txOf ht).2.2] at ho; cases ho
  · rw [(txOf ht).1] at hk; rcases hk with h | h <;> cases h
  · rw [(quiet k).2.2.1] at he; cases he
  · rw [(quiet k).2.2.2.1] at h; cases h
  · rw [(quiet k).2.2.2.2.1] at h; cases h
  · rw [(quiet k).1] at hq; cases hq
  · rw [(quiet k).2.1] at hi; cases hi

theorem witness_BusFaultCutsTheTransaction :
    let s := relaying .write .write .data (.send 1)
    s.inReset = false ∧ (s.engine 1).tx = some (forwardTx 0x2E .write .data (.send 1)) ∧ Relays s 1 ∧
    s.up.ctx.hold ≠ none ∧ s.recAt 20 = some { fan with marker := .forward } ∧
    ((delivering fan .data (.send 7) ⟨20, [7], true⟩).poolSeg 1).queue.head? = some ⟨20, [7], true⟩ ∧
    ((delivering fan .data (.send 7) ⟨20, [7], false⟩).poolSeg 1).purgeMark = false ∧
    ((openCatchAll.engine 1).tx.map (fun x => (x.kind, x.slot)) = some (.catchAll, none)) ∧
    ((probing fan .quickProbe).engine 1).tx = some (Tx.start .quickProbe (some 20) 0x2E .write none true) ∧
    ((discovering 0x50 false).engine 3).discovery.map (fun d => d.cancelRequested) = some false := by
  simp only [Relays]
  decide

theorem witness_ArbiterOrder :
    (hub.engine 1).state = .idle ∧
    (((queuedBehind hub).engine 1).request = some ⟨some 20, 0x2E, .read⟩ ∧
      ∀ j : Seg, j ≠ 1 → ((queuedBehind hub).engine j).request = none) ∧
    ((hub.modPool 1 fun p => { p with queue := [⟨20, [], false⟩] }).poolSeg 1).queue = [⟨20, [], false⟩] ∧
    ((enabled.modEngine 1 fun e => { e with probeQueue := [21, 20] }).engine 1).probeQueue = [21] ++ 20 :: [] ∧
    ((20 : Slot) ∉ [(21 : Slot)] ∧ (enabled.recAt 21).map (fun r => r.state) = some .retiring) ∧
    hub.recAt 20 = some fan ∧ fan.probeReg = none ∧
    (withOp (.probe 20 false) hub).dc.ops = [⟨.probe 20 false, 4, none⟩] := by decide

theorem witness_ArbiterOrder_laws :
    (queuedBehind hub).WorkLaw ∧ (hub.modPool 1 fun p => { p with queue := [⟨20, [], false⟩] }).WorkLaw ∧
    (hub.modEngine 1 fun e => { e with probeQueue := [20] }).WorkLaw := by
  refine ⟨OneRecord.workLaw (r := fan) (x := none) ?_, OneRecord.workLaw (r := fan) (x := none) ?_,
    OneRecord.workLaw (r := fan) (x := none) ?_⟩ <;> decide +kernel

/-- A window whose first address is KNOWN, one whose first is not, and one all KNOWN. -/
theorem witness_ArbiterOrder_discovery :
    ((offering 0x2E 0x30).engine 1).discovery.map (fun d => (d.next, d.high)) = some (some 0x2E, 0x30) ∧
    (∃ j r, (offering 0x2E 0x30).recAt j = some r ∧ r.segment = 1 ∧ r.target.toNat = 0x2E) ∧
    (∀ j : Slot, ((offering 0x2E 0x30).recAt j).map (fun r => (r.segment, r.target)) ≠ some (1, 0x2F)) ∧
    ((offering 0x2E 0x2E).engine 1).discovery.map (fun d => (d.next, d.high)) = some (some 0x2E, 0x2E) ∧
    (withOp (.discover 1) hub).dc.ops = [⟨.discover 1, 4, none⟩] := by
  refine ⟨?_, ⟨20, fan, ?_, ?_, ?_⟩, ?_, ?_, ?_⟩ <;> decide

theorem witness_ForwardsFollowTheQueue : ∃ t, exec (.addressEvent 0x2C .read []) hub = .next t ∧
    t.onBus 1 (Tx.start .forward (some 20) 0x2E .read none true) ∧ (hub.engine 1).tx = none :=
  ⟨_, rfl, by simp only [State.onBus]; decide, by decide⟩

/-! ### Witnesses: recovery and timers -/

theorem witness_RecoveryAttemptsEnd :
    let s := fun n => engineAs .recovering n hub
    (((s 0).engine 1).state = .recovering ∧ ((s 0).engine 1).attempt = none ∧ ((s 0).engine 1).pausePending = false ∧
      ((s 0).engine 1).resumeWaiting = false) ∧
    ((s 1).engine 1).attemptCount < 2 ∧ (2 ≤ ((s 2).engine 1).attemptCount ∧ ((s 2).engine 1).tx = none) ∧
    (((s 0).modEngine 1 fun e => { e with pausePending := true }).engine 1).pausePending = true ∧
    (((s 0).modEngine 1 fun e => { e with resumeWaiting := true }).engine 1).resumeWaiting = true ∧
    ((after (.recoveryAttemptFails 1) (s 0)).engine 1).attempt ≠ none ∧
    ((carrying 1 { forwardTx 0x2E .read .closing .stop with silent := true } .none hub).engine 1).tx.map
      (fun x => x.silent) = some true := by decide

theorem witness_RecoveryAttemptsEnd_laws :
    let s := queuedBehind (engineAs .recovering 2 hub)
    s.WorkLaw ∧ (s.engine 1).tx = none ∧ 2 ≤ (s.engine 1).attemptCount ∧
    (withOp (.pause 1) s).dc.ops = [⟨.pause 1, 4, none⟩] ∧
    (20 : Slot) ∈ ((s.modEngine 1 fun e => { e with probeQueue := [20] }).engine 1).probeQueue ∧
    (((offering 0x50 0x51).modEngine 1 fun e => { e with state := .recovering, attemptCount := 2 }).engine 1).discovery ≠ none ∧
    ({ fan with state := .quarantined }.state = .quarantined ∧ fan.state ≠ .retiring) ∧
    ((engineAs .recovering 2 draining).purged 1 20 ≠ [] ∧ draining.dc.ops = [⟨.retire 20 3, 4, none⟩]) := by
  refine ⟨OneRecord.workLaw (r := fan) (x := none) ?_, ?_⟩ <;> decide +kernel

theorem witness_HealthTimersExpire :
    hub.inReset = false ∧ hub.recAt 20 = some fan ∧ hub.recAt 0 = none ∧ ({ Port.reset with notice := false }).notice = false ∧
    ({ fan with state := .absent, absenceAge := 59 }).state = .absent ∧ hub.hm.lifetime ≠ 0 ∧ hub.hm.lifetime ≤ 59 + 1 ∧
    fan.cls = .dynamic ∧ hub.isProtected 20 = false ∧ { fan with marker := .probe }.marker ≠ .none ∧
    { fan with state := .quarantined, holdOff := 1 }.holdOff = 1 ∧
    (withOp (.probe 20 false) hub).dc.ops = [⟨.probe 20 false, 4, none⟩] := by decide

theorem witness_IdleTimerRelaxesCadence : State.reset.inReset = false ∧ State.reset.hm.idleLeft ≠ none := by decide

/-! ### Witnesses: the laws every step keeps -/

theorem witness_RecordsLawfulKept : hub.RecordsLawful ∧ ∃ t, step hub = .next t := by
  refine ⟨fun i r h => ?_, _, rfl⟩
  obtain ⟨-, rfl⟩ := hub_recAt i r h
  unfold Record.Lawful Record.CountLaw Record.QuarantineLaw Record.FieldLaw
  decide

theorem witness_DirectoryLawsKept : hub.Unique ∧ hub.IndexLaw ∧ ∃ t, step hub = .next t :=
  ⟨hub_unique, hub_one.indexLaw (by decide), _, rfl⟩

theorem witness_PoolLawKept : (posting (List.replicate 16 0)).PoolLaw ∧ ∃ t, step (posting []) = .next t := by
  refine ⟨?_, _, rfl⟩
  unfold State.PoolLaw
  decide

theorem witness_CommandLawsKept :
    (probing fan .quickProbe).NoAnswerHeld ∧ (probing fan .quickProbe).OutstandingLaw ∧
    (probing fan .quickProbe).FlagsLaw ∧ (probing fan .quickProbe).TxLaw ∧
    ((probing fan .quickProbe).StallLaw ∧ ((probing fan .quickProbe).engine 1).stall ≠ none) ∧
    ∃ t, step (probing fan .quickProbe) = .next t := by
  have timed : ∀ k, ((probing fan .quickProbe).engine k).stall ≠ none →
      ((probing fan .quickProbe).engine k).tx = some (Tx.start .quickProbe (some 20) 0x2E .write none true) := by decide
  refine ⟨?_, ?_, ?_, ?_, ⟨fun k h => ⟨_, timed k h, by decide, fun b => by simp [Tx.start]⟩, by decide⟩, _, rfl⟩
  · unfold State.NoAnswerHeld
    decide
  · unfold State.OutstandingLaw
    decide
  · unfold State.FlagsLaw
    decide
  · unfold State.TxLaw
    decide

theorem witness_LinesLawKept : (after .ackRestart State.reset).LinesLaw ∧ ∃ t, step State.reset = .next t := by
  refine ⟨?_, _, rfl⟩
  unfold State.LinesLaw
  decide

theorem hub_engine (k : Seg) : hub.engine k = Engine.reset := by
  revert k
  decide

theorem hub_pool (k : Seg) : hub.poolSeg k = PoolSeg.reset := by
  revert k
  decide

theorem witness_WorkLawsKept : hub.WorkLaw ∧ hub.RestLaw ∧ hub.ProbeQueuesLaw ∧ ∃ t, step hub = .next t := by
  refine ⟨hub_one.workLaw, fun k _ => ?_, fun k => ?_, _, rfl⟩
  · rw [hub_engine, hub_pool]
    exact ⟨rfl, rfl, rfl, fun i h => by cases h⟩
  · rw [hub_engine]
    exact List.nodup_nil

end Sys2Proof.Tests
end

section
namespace Sys2Proof.Machine

/-! ### The state after a full reset (R27, R76, R93) -/

@[simp] theorem reset_recAt (i : Slot) : State.reset.recAt i = none := by
  simp [State.recAt, State.reset, Directory.reset]

@[simp] theorem reset_lookupAlias (a : Addr) : State.reset.lookupAlias a = none := by
  simp [State.lookupAlias, State.reset, Directory.reset]

@[simp] theorem reset_engine (k : Seg) : State.reset.engine k = Engine.reset := Quad.get_fill _ k

@[simp] theorem reset_poolSeg (k : Seg) : State.reset.poolSeg k = PoolSeg.reset := Quad.get_fill _ k

@[simp] theorem reset_deliveryOnBus (k : Seg) : State.reset.deliveryOnBus k = false := by
  simp [State.deliveryOnBus, Engine.reset]

@[simp] theorem reset_waitingEntries (k : Seg) : State.reset.waitingEntries k = [] := by
  simp [State.waitingEntries, PoolSeg.reset]

/-- With no record, no transaction and no entry there is nothing to tie together. -/
theorem reset_workLaw : State.reset.WorkLaw := by
  refine ⟨fun k => ?_, fun k t ht => ?_, ⟨fun i r hr => ?_, fun k t ht => ?_, fun k t ht => ?_⟩,
    fun k => ⟨fun e he => ?_, fun hd => ?_, fun hp => ?_⟩, fun k q i hq => ?_, fun k i hi => ?_⟩
  · rw [reset_engine]; decide
  · rw [reset_engine] at ht; cases ht
  · rw [reset_recAt] at hr; cases hr
  · rw [reset_engine] at ht; cases ht
  · rw [reset_engine] at ht; cases ht
  · rw [reset_waitingEntries] at he; cases he
  · rw [reset_deliveryOnBus] at hd; cases hd
  · rw [reset_poolSeg] at hp; cases hp
  · rw [reset_engine] at hq; cases hq
  · rw [reset_engine] at hi; cases hi

theorem reset_restLaw : State.reset.RestLaw := by
  intro k _
  rw [reset_engine, reset_poolSeg]
  exact ⟨rfl, rfl, rfl, fun i hi => by cases hi⟩

theorem reset_flagsLaw : State.reset.FlagsLaw := by
  intro k
  rw [reset_engine]
  exact ⟨rfl, rfl, fun h => (nomatch h), fun h => (nomatch h), rfl⟩

theorem reset_poolLaw : State.reset.PoolLaw := by
  refine ⟨fun k => ?_, by decide, by decide⟩
  revert k; decide

/-- Settles O4: the slots and the `aliasIndex` are empty at every number, and the rest is one closed state to evaluate. -/
theorem resetStateAsStated : Obligations.ResetStateAsStated := by
  unfold Obligations.ResetStateAsStated
  exact ⟨reset_recAt, reset_lookupAlias, by decide⟩

/-- Settles O5, law by law: no slot holds a record, and every engine, queue and block is at its reset value. -/
theorem resetKeepsLaws : Obligations.ResetKeepsLaws := by
  unfold Obligations.ResetKeepsLaws
  refine ⟨fun i r hr => ?records, fun i j r q hr => ?unique, fun a i => ?index, fun k => ?queues, reset_workLaw,
    reset_restLaw, reset_flagsLaw, reset_poolLaw, ⟨rfl, by decide⟩, fun o ho => ?answers, ⟨by decide, by decide⟩,
    fun i r _ hr => ?protection, fun k hk => ?stall⟩
  case records => rw [reset_recAt] at hr; cases hr
  case unique => rw [reset_recAt] at hr; cases hr
  case index => simp
  case queues => rw [reset_engine]; exact List.nodup_nil
  case answers => cases ho
  case protection => rw [reset_recAt] at hr; cases hr
  case stall => rw [reset_engine] at hk; exact absurd rfl hk

/-! ### Frames of the management port and resets (R161, R171) -/

/-- While a full reset is held a frame is abandoned (R171). -/
theorem frame_held (s : State) (f : State → State) (h : s.inReset = true) : s.frame f = s := by
  simp [State.frame, h]

/-- The end of an assertion of MCS that was there at a full reset's end is no frame (R171). -/
theorem frame_waits (s : State) (f : State → State) (h : s.inReset = false) (hw : s.mp.waitRelease = true) :
    s.frame f = s.setMp { s.mp with waitRelease := false } := by
  simp [State.frame, h, hw]

/-- A frame row is a frame, or has operands the table does not allow and no effect. -/
theorem exec_frameRow (f : Instr) (hf : isFrameRow f = true) :
    (∃ g : State → State, ∀ s, exec f s = .next (s.frame g)) ∨ (f.wf = false ∧ ∀ s, exec f s = .next s) := by
  cases f with
  | status c => exact .inl ⟨_, fun s => rfl⟩
  | writeEnable => exact .inl ⟨_, fun s => rfl⟩
  | writeDisable => exact .inl ⟨_, fun s => rfl⟩
  | push b => exact .inl ⟨_, fun s => rfl⟩
  | pop n e => exact .inl ⟨_, fun s => rfl⟩
  | restartEnable => exact .inl ⟨_, fun s => rfl⟩
  | restart b low => exact .inl ⟨_, fun s => rfl⟩
  | ackRestart => exact .inl ⟨_, fun s => rfl⟩
  | unknownFrame code =>
    by_cases hc : frameOf code = none
    · exact .inl ⟨_, fun s => by simp only [exec, execUnknownFrame, if_pos hc]; rfl⟩
    · refine .inr ⟨?_, fun s => by simp only [exec, execUnknownFrame, if_neg hc]⟩
      exact Bool.eq_false_iff.mpr fun hu => hc ((frameOf_none code).mpr hu)
  | partialFrame n =>
    by_cases hn : offBoundary n = true
    · exact .inl ⟨_, fun s => by simp only [exec, execPartialFrame, if_pos hn]; rfl⟩
    · exact .inr ⟨Bool.eq_false_iff.mpr hn, fun s => by simp [exec, execPartialFrame, hn]⟩
  | emptyFrame => exact .inl ⟨_, fun s => rfl⟩
  | _ => cases hf

/-- While a full reset is held no frame has an effect (R171). -/
theorem exec_frameRow_held (f : Instr) (s : State) (hf : isFrameRow f = true) (hs : s.inReset = true) :
    exec f s = .next s := by
  obtain ⟨g, hg⟩ | ⟨-, hn⟩ := exec_frameRow f hf
  · rw [hg, frame_held s g hs]
  · exact hn s

/-- A line of no condition is released on its open drain (R178). -/
theorem alertLevel_reset (s : State) : s.alertLevel AlertConfig.reset = .released := by
  have quiet : s.lineActive AlertConfig.reset = false := by
    simp [State.lineActive, AlertConfig.reset]
  unfold State.alertLevel
  rw [quiet]
  split <;> rfl

/-- A held reset ends with MP waiting for MCS to be released where it is asserted, and with the lines driven. -/
theorem exec_fullResetEnd (s : State) (mcs : Bool) (hs : s.inReset = true) :
    exec (.fullResetEnd mcs) s = .next (State.evaluate { s with
      inReset := false, mp := { s.mp with waitRelease := mcs }, hm := { s.hm with stepRun := 0, secondRun := 0 } }) := by
  simp only [exec, execFullResetEnd, if_pos hs]

/-- The end of a held reset gives State.reset but for what it does not set: MP's wait for MCS, the PROT level (R153) and
the commands that wait to be sent. -/
theorem exec_fullResetEnd_heldReset (s : State) (mcs : Bool) :
    exec (.fullResetEnd mcs) s.heldReset = .next { State.reset with
      pu := { Protection.reset with prot := s.pu.prot }, pending := s.pending,
      mp := { Port.reset with waitRelease := mcs } } := by
  rw [exec_fullResetEnd _ _ rfl]
  congr 1
  have lines : ∀ u : State, (Quad.fill AlertConfig.reset).map u.alertLevel = Quad.fill .released := fun u =>
    Quad.ext_get fun k => by simp [alertLevel_reset]
  unfold State.evaluate
  simp only [State.heldReset, Alerts.reset, lines]
  rfl

/-- Settles O6: a frame row acts through `State.frame`, which a held reset abandons and MP's wait for MCS swallows. -/
theorem fullResetAndItsEnd : Obligations.FullResetAndItsEnd := by
  unfold Obligations.FullResetAndItsEnd
  refine ⟨fun s => ?_, exec_frameRow_held, fun mcs s hs => ?_⟩
  · refine ⟨s.heldReset, rfl, rfl, rfl, rfl, rfl, fun k => ?_, fun f hf => exec_frameRow_held f _ hf rfl,
      exec_fullResetEnd_heldReset s false, _, exec_fullResetEnd_heldReset s true, rfl, rfl, fun f hf hw => ?_⟩
    · rw [show s.heldReset.engine k = Engine.reset from reset_engine k]
      exact ⟨Quad.get_fill _ k, rfl, rfl⟩
    · obtain ⟨g, hg⟩ | ⟨hw', -⟩ := exec_frameRow f hf
      · rw [hg, frame_waits _ g rfl rfl]
        rfl
      · exact absurd (hw.symm.trans hw') (by decide)
  · exact ⟨_, exec_fullResetEnd s mcs hs, evaluate_lines _, rfl⟩

end Sys2Proof.Machine
end

section
namespace Sys2Proof.Machine

variable (s : State)

/-! ### Withdrawals, purges and changes of state, field by field (R11, R42, R87) -/

/-- A withdrawal takes the request of its engine and leaves every engine else as it is (R42). -/
theorem withdraw_engine (k j : Seg) (how : Withdrawal) :
    (s.withdraw k how).engine j = if j = k then { s.engine k with request := none } else s.engine j := by
  unfold State.withdraw
  split
  · rename_i h
    split
    · rename_i e; rw [e, ← h]
    · rfl
  · have taken : ∀ u : State, u.eng = (s.modEngine k fun e => { e with request := none }).eng →
        u.engine j = if j = k then { s.engine k with request := none } else s.engine j := fun u hu => by
      rw [engine_of_eng hu, engine_modEngine]
    dsimp only
    split <;> exact taken _ (by simp)

/-- A withdrawal for slot `i` takes the request only where it is for that slot. -/
theorem withdrawSlot_engine (k j : Seg) (i : Slot) (how : Withdrawal) :
    (s.withdrawSlot k i how).engine j =
      if j = k then { s.engine k with request := (s.engine k).request.filter fun q => q.slot != some i }
      else s.engine j := by
  have stays : (∀ q, (s.engine k).request = some q → q.slot ≠ some i) → s.engine j =
      if j = k then { s.engine k with request := (s.engine k).request.filter fun q => q.slot != some i }
      else s.engine j := fun h => by
    split
    · rename_i e
      subst e
      cases hq : (s.engine j).request with
      | none => rw [Option.filter_none, ← hq]
      | some q => rw [Option.filter_some, if_pos (by simpa using h q hq), ← hq]
    · rfl
  unfold State.withdrawSlot
  split
  · rename_i x hx
    split
    · rename_i e
      rw [withdraw_engine, hx]
      simp [e, Option.filter_some]
    · rename_i ne
      exact stays fun q hq => by rw [hx] at hq; cases hq; simpa using ne
  · rename_i hn
    exact stays fun q hq hs => by
      obtain ⟨sl, tg, d⟩ := q
      cases hs
      exact hn _ _ _ hq

theorem withdrawSlot_tx (k j : Seg) (i : Slot) (how : Withdrawal) :
    ((s.withdrawSlot k i how).engine j).tx = (s.engine j).tx := by
  rw [withdrawSlot_engine]
  split
  · rename_i e; rw [e]
  · rfl

theorem deliveryOnBus_of_tx {s t : State} {k : Seg} (h : (t.engine k).tx = (s.engine k).tx) :
    t.deliveryOnBus k = s.deliveryOnBus k := by
  simp only [State.deliveryOnBus, h]

/-- The entries of a queue that wait and the one on the bus, read through the parts of the state they depend on. -/
theorem waitingEntries_of {s t : State} {k : Seg} (h : (t.engine k).tx = (s.engine k).tx)
    (hq : (t.poolSeg k).queue = (s.poolSeg k).queue) : t.waitingEntries k = s.waitingEntries k := by
  simp only [State.waitingEntries, deliveryOnBus_of_tx h, hq]

theorem busEntries_of {s t : State} {k : Seg} (h : (t.engine k).tx = (s.engine k).tx)
    (hq : (t.poolSeg k).queue = (s.poolSeg k).queue) : t.busEntries k = s.busEntries k := by
  simp only [State.busEntries, deliveryOnBus_of_tx h, hq]

theorem purged_of {s t : State} {k : Seg} (h : (t.engine k).tx = (s.engine k).tx)
    (hq : (t.poolSeg k).queue = (s.poolSeg k).queue) (i : Slot) : t.purged k i = s.purged k i := by
  simp only [State.purged, waitingEntries_of h hq]

/-- Each segment's queue after a purge of segment `k` (R87). -/
theorem purge_poolSeg (k j : Seg) (covers : Entry → Bool) :
    (s.purge k covers).poolSeg j =
      if j = k then { s.poolSeg k with
        queue := s.busEntries k ++ (s.waitingEntries k).filter fun e => !covers e
        purgeMark := (s.poolSeg k).purgeMark || (s.busEntries k).any covers }
      else s.poolSeg j := by
  unfold State.purge
  rw [poolSeg_of_pool (undeliveredClaims_frame _ _).2.2.2.2.2.2.2.2.1, poolSeg_modPool]

/-- A purge of slot `i`'s entries counts each of them on its record (R19, R87). -/
theorem purge_slot_recAt_self (k : Seg) (i : Slot) :
    (s.purge k fun e => e.slot == i).recAt i = (s.recAt i).map fun r =>
      { r with undelivered := moreLost r.undelivered (s.purged k i).length } := by
  rw [purge_recAt]
  simp only [State.purgeable, State.purged, List.filter_filter, Bool.and_self]

/-- What a record's leaving BOUND does to that record: an undelivered claim for each entry purged (R11). -/
theorem leaveBound_recAt_self (i : Slot) (k : Seg) (purges : Bool) :
    (s.leaveBound i k purges).recAt i = (s.recAt i).map fun r =>
      { r with undelivered := if purges then moreLost r.undelivered (s.purged k i).length else r.undelivered } := by
  unfold State.leaveBound
  dsimp only
  have base : (s.withdrawSlot k i .standIn).recAt i = s.recAt i := recAt_of_dir (by simp) i
  split
  · rw [purge_slot_recAt_self, base, purged_of (withdrawSlot_tx s k k i .standIn) (congrArg PoolSeg.queue (poolSeg_of_pool (by simp) k))]
  · rw [base]
    cases s.recAt i <;> rfl

/-- A change of state with R11's effects: the record purges its entries when it leaves BOUND for any state but
RETIRING. -/
theorem moveRec_recAt (i : Slot) (f : Record → Record) (r : Record) (hr : s.recAt i = some r) :
    (s.moveRec i f).recAt i = some { f r with
      undelivered := if r.state = .bound ∧ (f r).state ≠ .bound ∧ (f r).state ≠ .retiring
        then moreLost (f r).undelivered (s.purged r.segment i).length else (f r).undelivered } := by
  unfold State.moveRec
  rw [hr]
  dsimp only
  split
  · rename_i h
    rw [leaveBound_recAt_self]
    simp only [recAt_markChanged, recAt_putRec_self, Option.map_some, decide_eq_true_eq, h, ne_eq, not_false_eq_true,
      true_and]
    rw [purged_of rfl rfl]
    rfl
  · rename_i h
    have : ¬(r.state = .bound ∧ (f r).state ≠ .bound ∧ (f r).state ≠ .retiring) := fun g => h ⟨g.1, g.2.1⟩
    simp [this]

end Sys2Proof.Machine
end

section
namespace Sys2Proof.Machine

variable (s : State)

/-! ### Records that stay at their place (R4 to R8, R13, R17) -/

/-- `q` is the record `r` at the same `aliasAddr`, segment and target, and the laws of one record still hold of it. -/
def Record.Became (r q : Record) : Prop :=
  q.aliasAddr = r.aliasAddr ∧ q.segment = r.segment ∧ q.target = r.target ∧ (r.Lawful → q.Lawful)

theorem Record.Became.refl (r : Record) : r.Became r := ⟨rfl, rfl, rfl, id⟩

theorem Record.Became.trans {r q p : Record} (h : r.Became q) (g : q.Became p) : r.Became p := by
  obtain ⟨ha, hs, ht, hl⟩ := h
  obtain ⟨ga, gs, gt, gl⟩ := g
  exact ⟨ga.trans ha, gs.trans hs, gt.trans ht, gl ∘ hl⟩

/-- The laws of R4 to R8 written out, for the arithmetic of a changed record. -/
theorem Record.lawful_iff (r : Record) : r.Lawful ↔
    (r.errorCount ≤ r.threshold ∧ (r.state = .bound → r.errorCount < r.threshold) ∧ 1 ≤ r.threshold ∧
      r.threshold ≤ 255) ∧
    (r.reprobeFailures ≤ 3 ∧ (r.state = .quarantined → r.reprobeFailures < 3) ∧
      (r.cause.isSome = true ↔ r.state = .quarantined) ∧ (r.state ≠ .quarantined → r.holdOff = 0)) ∧
    (r.absenceAge ≤ 65535 ∧ (r.state ≠ .absent → r.state ≠ .retiring → r.absenceAge = 0) ∧ r.undelivered ≤ 255 ∧
      (r.used = true → r.state = .bound) ∧ (r.frozen = true → r.probeReg.isSome = true)) := Iff.rfl

theorem Record.became_toBound (r : Record) : r.Became r.toBound :=
  ⟨rfl, rfl, rfl, fun h => by
    rw [Record.lawful_iff] at h ⊢
    simp only [Record.toBound]
    grind⟩

theorem Record.became_toQuarantined (c : Cause) (n : Nat) (r : Record) : r.Became (r.toQuarantined c n) :=
  ⟨rfl, rfl, rfl, fun h => by
    rw [Record.lawful_iff] at h ⊢
    simp only [Record.toQuarantined]
    grind⟩

theorem Record.became_toAbsent (r : Record) : r.Became r.toAbsent :=
  ⟨rfl, rfl, rfl, fun h => by
    rw [Record.lawful_iff] at h ⊢
    simp only [Record.toAbsent]
    grind⟩

theorem Record.became_toRetiring (r : Record) : r.Became r.toRetiring :=
  ⟨rfl, rfl, rfl, fun h => by
    rw [Record.lawful_iff] at h ⊢
    simp only [Record.toRetiring]
    grind⟩

/-- A REBIND moves the record and keeps R4 to R8 (R10, R20). -/
theorem Record.toRebound_lawful (k : Seg) (a : Addr) (r : Record) (h : r.Lawful) : (r.toRebound k a).Lawful := by
  rw [Record.lawful_iff] at h ⊢
  simp only [Record.toRebound]
  grind

/-- A third failed reprobe is ABSENT; one before it stays QUARANTINED (R17). -/
theorem Record.became_failedReprobe (n : Nat) (o : ProbeOutcome) (r : Record) (hq : r.state = .quarantined) :
    r.Became (r.failedReprobe n o) := by
  unfold Record.failedReprobe
  dsimp only
  split
  · refine ⟨rfl, rfl, rfl, fun h => ?_⟩
    rw [Record.lawful_iff] at h ⊢
    simp only [Record.toAbsent]
    grind
  · rename_i hf
    refine ⟨rfl, rfl, rfl, fun h => ?_⟩
    rw [Record.lawful_iff] at h ⊢
    simp only [Config.maxReprobeFailures] at hf ⊢
    grind

/-- Below the threshold a charge of a BOUND record is within R5. -/
theorem Record.became_counted (r : Record) (h : r.errorCount + 1 < r.threshold) :
    r.Became { r with errorCount := r.errorCount + 1 } :=
  ⟨rfl, rfl, rfl, fun hl => by
    rw [Record.lawful_iff] at hl ⊢
    grind⟩

/-- At the threshold a charge of a BOUND record quarantines it (R18, R106). -/
theorem Record.became_charged (n : Nat) (r : Record) (hb : r.state = .bound) :
    r.Became ({ r with errorCount := r.errorCount + 1 }.toQuarantined .errors n) :=
  ⟨rfl, rfl, rfl, fun h => by
    rw [Record.lawful_iff] at h ⊢
    simp only [Record.toQuarantined]
    grind⟩

theorem Record.became_usedClaim (r : Record) :
    r.Became (if r.state = .bound then { r with used := true } else r) := by
  split
  · refine ⟨rfl, rfl, rfl, fun h => ?_⟩
    rw [Record.lawful_iff] at h ⊢
    grind
  · exact .refl r

theorem Record.became_marker (m : Marker) (r : Record) : r.Became { r with marker := m } := ⟨rfl, rfl, rfl, id⟩

theorem Record.became_expiryHeld (b : Bool) (r : Record) : r.Became { r with expiryHeld := b } := ⟨rfl, rfl, rfl, id⟩

theorem Record.became_identity (v : Option Byte) (r : Record) : r.Became { r with identity := v } := ⟨rfl, rfl, rfl, id⟩

theorem Record.became_undelivered (n : Nat) (r : Record) (hn : r.undelivered ≤ 255 → n ≤ 255) :
    r.Became { r with undelivered := n } :=
  ⟨rfl, rfl, rfl, fun h => by
    rw [Record.lawful_iff] at h ⊢
    grind⟩

theorem moreLost_le (u n : Nat) (h : u ≤ 255) : moreLost u n ≤ 255 := by
  unfold moreLost
  split <;> omega

theorem Record.became_moreLost (n : Nat) (r : Record) : r.Became { r with undelivered := moreLost r.undelivered n } :=
  r.became_undelivered _ (moreLost_le _ n)

/-- A hold-off remaining may take any value while QUARANTINED (R6). -/
theorem Record.became_holdOff (n : Nat) (r : Record) (h : r.state = .quarantined) :
    r.Became { r with holdOff := n } :=
  ⟨rfl, rfl, rfl, fun hl => by
    rw [Record.lawful_iff] at hl ⊢
    grind⟩

theorem Record.became_unused (r : Record) : r.Became { r with used := false } :=
  ⟨rfl, rfl, rfl, fun h => by
    rw [Record.lawful_iff] at h ⊢
    grind⟩

/-- One second of absence keeps the age within R7. -/
theorem Record.became_older (r : Record) (h : r.state = .absent) :
    r.Became { r with absenceAge := nextAge r.absenceAge } :=
  ⟨rfl, rfl, rfl, fun hl => by
    rw [Record.lawful_iff] at hl ⊢
    have : nextAge r.absenceAge ≤ 65535 := Nat.min_le_right _ _
    grind⟩

theorem Record.became_clearCounts (r : Record) : r.Became r.clearCounts :=
  ⟨rfl, rfl, rfl, fun h => by
    rw [Record.lawful_iff] at h ⊢
    simp only [Record.clearCounts]
    grind⟩

theorem Record.became_capHoldOff (n : Nat) (r : Record) : r.Became (r.capHoldOff n) := by
  unfold Record.capHoldOff
  split
  · rename_i h
    exact r.became_holdOff _ h
  · exact .refl r

theorem Record.became_restart (n : Nat) (r : Record) : r.Became (r.restart n) :=
  ⟨rfl, rfl, rfl, fun hl => by
    rw [Record.lawful_iff] at hl ⊢
    simp only [Record.restart]
    grind⟩

end Sys2Proof.Machine
end

section
namespace Sys2Proof.Machine

variable (s : State)

/-! ### What keeps the directory's laws (R4 to R8, R13, R17) -/

/-- From `s` to `t` the laws of the records and of the directory go on. -/
structure KeepsDir (s t : State) : Prop where
  lawful : s.RecordsLawful → t.RecordsLawful
  unique : s.Unique → t.Unique
  index : s.IndexLaw → t.IndexLaw

theorem KeepsDir.trans {a b c : State} (h : KeepsDir a b) (g : KeepsDir b c) : KeepsDir a c :=
  ⟨g.lawful ∘ h.lawful, g.unique ∘ h.unique, g.index ∘ h.index⟩

theorem lookupAlias_of_index {s t : State} (h : t.dir.aliasIndex = s.dir.aliasIndex) (a : Addr) :
    t.lookupAlias a = s.lookupAlias a := by
  simp only [State.lookupAlias, h]

theorem KeepsDir.of_dir {s t : State} (h : t.dir = s.dir) : KeepsDir s t := by
  refine ⟨fun hl i r hr => hl i r ?_, fun hu i j r q hr hq => hu i j r q ?_ ?_, fun hi a i => ?_⟩
  · rwa [recAt_of_dir h] at hr
  · rwa [recAt_of_dir h] at hr
  · rwa [recAt_of_dir h] at hq
  · rw [lookupAlias_of_index (congrArg Directory.aliasIndex h), recAt_of_dir h]
    exact hi a i

theorem KeepsDir.refl : KeepsDir s s := .of_dir rfl

/-- A state without a record and with an empty `aliasIndex` keeps the laws, whatever was before. -/
theorem KeepsDir.of_empty {t : State} (h : ∀ i, t.recAt i = none) (hi : ∀ a, t.lookupAlias a = none) :
    KeepsDir s t := by
  refine ⟨fun _ i r hr => ?_, fun _ i j r q hr => ?_, fun _ a i => ?_⟩
  · rw [h] at hr; cases hr
  · rw [h] at hr; cases hr
  · simp [h, hi]

/-- Every slot keeps its record, or none, at the same `aliasAddr`, segment and target. -/
theorem KeepsDir.of_became {s t : State} (hi : t.dir.aliasIndex = s.dir.aliasIndex)
    (h : ∀ i, (s.recAt i = none ∧ t.recAt i = none) ∨
      ∃ r q, s.recAt i = some r ∧ t.recAt i = some q ∧ r.Became q) : KeepsDir s t := by
  have back : ∀ i q, t.recAt i = some q → ∃ r, s.recAt i = some r ∧ r.Became q := by
    intro i q hq
    obtain ⟨-, hn⟩ | ⟨r, q', hr, hq', hb⟩ := h i
    · rw [hn] at hq; cases hq
    · rw [hq'] at hq; cases hq; exact ⟨r, hr, hb⟩
  refine ⟨fun hl i q hq => ?_, fun hu i j q p hq hp hij => ?_, fun hx a i => ?_⟩
  · obtain ⟨r, hr, -, -, -, hb⟩ := back i q hq
    exact hb (hl i r hr)
  · obtain ⟨r, hr, ha, hs, ht, -⟩ := back i q hq
    obtain ⟨r', hr', ha', hs', ht', -⟩ := back j p hp
    rw [ha, ha', hs, hs', ht, ht']
    exact hu i j r r' hr hr' hij
  · rw [lookupAlias_of_index hi, hx]
    constructor
    · rintro ⟨r, hr, ha⟩
      obtain ⟨hn, -⟩ | ⟨r', q, hr', hq, hb⟩ := h i
      · rw [hn] at hr; cases hr
      · rw [hr'] at hr; cases hr
        exact ⟨q, hq, hb.1.trans ha⟩
    · rintro ⟨q, hq, ha⟩
      obtain ⟨r, hr, hb⟩ := back i q hq
      exact ⟨r, hr, hb.1.symm.trans ha⟩

/-- Every record is changed by `f`, which leaves it at its place. -/
theorem KeepsDir.of_map {s t : State} (hi : t.dir.aliasIndex = s.dir.aliasIndex) (f : Slot → Record → Record)
    (h : ∀ i, t.recAt i = (s.recAt i).map (f i)) (hf : ∀ i r, s.recAt i = some r → r.Became (f i r)) :
    KeepsDir s t := by
  refine .of_became hi fun i => ?_
  have ht := h i
  cases hr : s.recAt i with
  | none => rw [hr] at ht; exact .inl ⟨rfl, ht⟩
  | some r => rw [hr] at ht; exact .inr ⟨r, f i r, rfl, ht, hf i r hr⟩

/-- The record of slot `i` changes, and no other one. The new pair may be another one that no other record holds. -/
theorem KeepsDir.of_slot {s t : State} (i : Slot) {r q : Record} (hr : s.recAt i = some r) (hq : t.recAt i = some q)
    (others : OtherRecords s t i) (hi : t.dir.aliasIndex = s.dir.aliasIndex) (ha : q.aliasAddr = r.aliasAddr)
    (hl : r.Lawful → q.Lawful)
    (pair : s.Unique → ∀ j p, j ≠ i → s.recAt j = some p → ¬(p.segment = q.segment ∧ p.target = q.target)) :
    KeepsDir s t := by
  refine ⟨fun h j p hp => ?_, fun h j l p p' hp hp' hjl => ?_, fun h a j => ?_⟩
  · by_cases e : j = i
    · subst e; rw [hq] at hp; cases hp; exact hl (h j r hr)
    · rw [others j e] at hp; exact h j p hp
  · by_cases e : j = i
    · subst e
      rw [hq] at hp; cases hp
      rw [others l (Ne.symm hjl)] at hp'
      have := pair h l p' (Ne.symm hjl) hp'
      exact ⟨ha ▸ (h j l r p' hr hp' hjl).1, fun g => this ⟨g.1.symm, g.2.symm⟩⟩
    · rw [others j e] at hp
      by_cases e' : l = i
      · subst e'
        rw [hq] at hp'; cases hp'
        exact ⟨ha ▸ (h j l p r hp hr hjl).1, pair h j p e hp⟩
      · rw [others l e'] at hp'
        exact h j l p p' hp hp' hjl
  · rw [lookupAlias_of_index hi, h]
    by_cases e : j = i
    · subst e; rw [hr, hq]; simp [ha]
    · rw [others j e]

/-- The record of slot `i` changes in place. -/
theorem KeepsDir.of_slot_became {s t : State} (i : Slot) {r q : Record} (hr : s.recAt i = some r)
    (hq : t.recAt i = some q) (others : OtherRecords s t i) (hi : t.dir.aliasIndex = s.dir.aliasIndex)
    (hb : r.Became q) : KeepsDir s t := by
  obtain ⟨ha, hs, ht, hl⟩ := hb
  exact .of_slot i hr hq others hi ha hl fun hu j p hj hp => by
    rw [hs, ht]; exact (hu j i p r hp hr hj).2

theorem putRec_keepsDir (i : Slot) {r q : Record} (hr : s.recAt i = some r) (hb : r.Became q) :
    KeepsDir s (s.putRec i (some q)) :=
  .of_slot_became i hr (by simp) (fun j hj => recAt_putRec_other s (Ne.symm hj) _) rfl hb

theorem modRec_keepsDir (i : Slot) (f : Record → Record) (hf : ∀ r, s.recAt i = some r → r.Became (f r)) :
    KeepsDir s (s.modRec i f) := by
  unfold State.modRec
  split
  · rename_i r hr
    exact putRec_keepsDir s i hr (hf r hr)
  · exact .refl s

/-! ### Claims and purges -/

theorem undeliveredClaims_keepsDir (es : List Entry) : KeepsDir s (s.undeliveredClaims es) :=
  .of_map (by simp) _ (fun i => undeliveredClaims_recAt s es i) fun _ r _ => r.became_moreLost _

theorem undeliveredClaim_keepsDir (i : Slot) : KeepsDir s (s.undeliveredClaim i) :=
  undeliveredClaims_keepsDir s [⟨i, [], false⟩]

theorem purge_keepsDir (k : Seg) (covers : Entry → Bool) : KeepsDir s (s.purge k covers) :=
  KeepsDir.trans (.of_dir (by simp)) (undeliveredClaims_keepsDir _ _)

/-! ### A slot becoming FREE -/

theorem freeSlot_lookupAlias (i : Slot) (r : Record) (h : s.recAt i = some r) (a : Addr) :
    (s.freeSlot i).lookupAlias a = if r.aliasAddr = a then none else s.lookupAlias a := by
  unfold State.lookupAlias
  simp only [freeSlot_aliasIndex s i r h, Vector.getElem_set, BitVec.toNat_inj]

/-- A slot that becomes FREE takes its `aliasAddr` out of the index with it (R12, R13). -/
theorem freeSlot_keepsDir (i : Slot) : KeepsDir s (s.freeSlot i) := by
  cases hr : s.recAt i with
  | none =>
    have : s.freeSlot i = s := by simp [State.freeSlot, hr]
    rw [this]
    exact .refl s
  | some r =>
    have kept : ∀ j q, (s.freeSlot i).recAt j = some q → s.recAt j = some q := fun j q hq => by
      rw [freeSlot_recAt] at hq
      split at hq
      · cases hq
      · exact hq
    refine ⟨fun h j q hq => h j q (kept j q hq), fun h j l q p hq hp => h j l q p (kept j q hq) (kept l p hp),
      fun h a j => ?_⟩
    rw [freeSlot_lookupAlias s i r hr, freeSlot_recAt]
    have own : s.lookupAlias r.aliasAddr = some i := (h _ _).mpr ⟨r, hr, rfl⟩
    split
    · rename_i e
      subst e
      split
      · simp
      · rename_i hij
        refine iff_of_false (by simp) fun hj => hij ?_
        exact Option.some.inj (own.symm.trans ((h _ _).mpr hj))
    · rename_i ne
      rw [h]
      split
      · rename_i e
        subst e
        simp [hr, ne]
      · rfl

theorem retireCheck_keepsDir (i : Slot) : KeepsDir s (s.retireCheck i) := by
  rcases retireCheck_cases s i with e | e <;> rw [e]
  · exact freeSlot_keepsDir s i
  · exact .refl s

theorem retireChecks_keepsDir (es : List Entry) : KeepsDir s (s.retireChecks es) := by
  induction es generalizing s with
  | nil => exact .refl s
  | cons e rest ih => exact (retireCheck_keepsDir s e.slot).trans (ih _)

theorem purgeAndRetire_keepsDir (k : Seg) (covers : Entry → Bool) : KeepsDir s (s.purgeAndRetire k covers) :=
  (purge_keepsDir s k covers).trans (retireChecks_keepsDir _ _)

/-! ### Changes of state -/

theorem moveRec_others (i : Slot) (f : Record → Record) : OtherRecords s (s.moveRec i f) i :=
  fun _ hj => moveRec_recAt_other s (Ne.symm hj) f

/-- A change of state leaves a record at its place. -/
theorem moveRec_keepsDir (i : Slot) (f : Record → Record) (hf : ∀ r, s.recAt i = some r → r.Became (f r)) :
    KeepsDir s (s.moveRec i f) := by
  cases hr : s.recAt i with
  | none =>
    have : s.moveRec i f = s := by simp [State.moveRec, hr]
    rw [this]
    exact .refl s
  | some r =>
    refine .of_slot_became i hr (moveRec_recAt s i f r hr) (moveRec_others s i f) (by simp) ((hf r hr).trans ?_)
    refine Record.became_undelivered _ _ fun hu => ?_
    split
    · exact moreLost_le _ _ hu
    · exact hu

theorem charge_keepsDir (i : Slot) : KeepsDir s (s.charge i) := by
  unfold State.charge
  split
  · rename_i r hr
    split
    · rename_i hb
      split
      · exact moveRec_keepsDir s i _ fun q hq => by
          rw [hr] at hq; cases hq; exact r.became_charged _ hb
      · exact putRec_keepsDir s i hr (r.became_counted (by omega))
    · exact .refl s
  · exact .refl s

theorem usedClaim_keepsDir (i : Slot) : KeepsDir s (s.usedClaim i) :=
  modRec_keepsDir s i _ fun r _ => r.became_usedClaim

theorem clearMarker_keepsDir (i : Slot) : KeepsDir s (s.clearMarker i) :=
  modRec_keepsDir s i _ fun r _ => r.became_marker _

/-! ### The ends of transactions -/

theorem absenceExpiry_keepsDir (i : Slot) : KeepsDir s (s.absenceExpiry i) := by
  unfold State.absenceExpiry
  split
  · rename_i r hr
    split
    · split
      · exact freeSlot_keepsDir s i
      · exact putRec_keepsDir s i hr (r.became_expiryHeld _)
    · exact .refl s
  · exact .refl s

theorem afterEnd_keepsDir (i : Slot) : KeepsDir s (s.afterEnd i) := by
  refine (retireCheck_keepsDir s i).trans ?_
  unfold State.afterEnd
  dsimp only
  split
  · rename_i r hr
    split
    · exact (putRec_keepsDir _ i hr (r.became_expiryHeld _)).trans (absenceExpiry_keepsDir _ i)
    · exact .refl _
  · exact .refl _

theorem forwardOver_keepsDir (slot : Option Slot) (charged : Bool) : KeepsDir s (s.forwardOver slot charged) := by
  unfold State.forwardOver
  split
  · rename_i i
    dsimp only
    refine (clearMarker_keepsDir s i).trans (KeepsDir.trans ?_ (afterEnd_keepsDir _ i))
    split
    · exact charge_keepsDir _ _
    · exact .refl _
  · exact .refl s

theorem deliveryOver_keepsDir (k : Seg) (i : Slot) (lost charged : Bool) :
    KeepsDir s (s.deliveryOver k i lost charged) := by
  unfold State.deliveryOver
  dsimp only
  have cleared : KeepsDir s (((s.removeHead k).clearTx k).clearMarker i) :=
    KeepsDir.trans (b := (s.removeHead k).clearTx k) (.of_dir rfl) (clearMarker_keepsDir _ i)
  have claimed : ∀ u : State, KeepsDir u (if lost then u.undeliveredClaim i else u.usedClaim i) := fun u => by
    split
    · exact undeliveredClaim_keepsDir u i
    · exact usedClaim_keepsDir u i
  have counted : ∀ u : State, KeepsDir u (if charged then u.charge i else u) := fun u => by
    split
    · exact charge_keepsDir u i
    · exact .refl u
  exact ((cleared.trans (claimed _)).trans (counted _)).trans (afterEnd_keepsDir _ i)

theorem reprobeFailed_keepsDir (i : Slot) (r : Record) (o : ProbeOutcome) (hr : s.recAt i = some r)
    (hq : r.state = .quarantined) : KeepsDir s (s.reprobeFailed i r o) := by
  have failed : ∀ q, s.recAt i = some q → q.Became (q.failedReprobe s.hm.holdOff o) := fun q h => by
    rw [hr] at h; cases h; exact r.became_failedReprobe _ o hq
  unfold State.reprobeFailed
  split
  · exact moveRec_keepsDir s i _ failed
  · exact modRec_keepsDir s i _ failed

theorem storeIdentity_keepsDir (i : Slot) (byte : Option Byte) : KeepsDir s (s.storeIdentity i byte) := by
  unfold State.storeIdentity
  split
  · rename_i hr
    split
    · exact .refl s
    · exact (putRec_keepsDir s i hr (Record.became_identity _ _)).trans (.of_dir rfl)
  · exact .refl s

/-- Every row of R17's table keeps the record at its place. -/
theorem applyOutcome_keepsDir (i : Slot) (r : Record) (o : ProbeOutcome) (byte : Option Byte)
    (hr : s.recAt i = some r) : KeepsDir s (s.applyOutcome i r o byte) := by
  unfold State.applyOutcome
  split
  · exact storeIdentity_keepsDir s i byte
  · exact .refl s
  · exact (moveRec_keepsDir s i _ fun q _ => q.became_toBound).trans (storeIdentity_keepsDir _ i byte)
  · exact reprobeFailed_keepsDir s i r _ hr (by assumption)
  · exact .refl s
  · exact moveRec_keepsDir s i _ fun q _ => q.became_toQuarantined _ _
  · exact reprobeFailed_keepsDir s i r _ hr (by assumption)
  · exact .refl s
  · exact .refl s
  · exact moveRec_keepsDir s i _ fun q _ => q.became_toAbsent

theorem clearProbeMarker_keepsDir (t : Tx) (i : Slot) : KeepsDir s (s.clearProbeMarker t i) := by
  unfold State.clearProbeMarker
  split
  · exact clearMarker_keepsDir s i
  · exact .refl s

theorem answerBusProbes_dir (i : Slot) (o : ProbeOutcome) (byte : Option Byte) :
    (s.answerBusProbes i o byte).dir = s.dir := by
  unfold State.answerBusProbes
  split <;> rfl

theorem probeOver_keepsDir (k : Seg) (t : Tx) (i : Slot) (answer : ProbeAnswer) :
    KeepsDir s (s.probeOver k t i answer) := by
  refine (clearProbeMarker_keepsDir s t i).trans ?_
  unfold State.probeOver
  dsimp only
  split
  · rename_i r hr
    split
    · exact ((applyOutcome_keepsDir _ i r _ _ hr).trans (.of_dir (answerBusProbes_dir ..))).trans (afterEnd_keepsDir _ i)
    · exact afterEnd_keepsDir _ i
  · exact .refl _

/-! ### Records created (R15, R16) -/

theorem createRec_recAt (i j : Slot) (r : Record) :
    (s.createRec i r).recAt j = if i = j then some r else s.recAt j := by
  simp only [State.createRec, State.recAt, State.markChanged, setAu_dir, setDir_dir, Vector.getElem_set, Fin.ext_iff]

theorem createRec_lookupAlias (i : Slot) (r : Record) (a : Addr) :
    (s.createRec i r).lookupAlias a = if r.aliasAddr = a then some i else s.lookupAlias a := by
  simp only [State.createRec, State.lookupAlias, State.markChanged, setAu_dir, setDir_dir, Vector.getElem_set,
    BitVec.toNat_inj]

theorem mem_allSlots (i : Slot) : i ∈ allSlots := List.mem_finRange i

/-- The check of a new `aliasAddr` is made against all records not FREE (R13). -/
theorem aliasTaken_iff (a : Addr) : s.aliasTaken a = true ↔ ∃ i r, s.recAt i = some r ∧ r.aliasAddr = a := by
  unfold State.aliasTaken
  rw [List.any_eq_true]
  constructor
  · rintro ⟨i, -, h⟩
    split at h
    · rename_i r hr
      exact ⟨i, r, hr, beq_iff_eq.mp h⟩
    · cases h
  · rintro ⟨i, r, hr, ha⟩
    refine ⟨i, mem_allSlots i, ?_⟩
    rw [hr]
    exact beq_iff_eq.mpr ha

theorem lookupPair_isSome_iff (k : Seg) (t : Addr) :
    (s.lookupPair k t).isSome = true ↔ ∃ i r, s.recAt i = some r ∧ r.segment = k ∧ r.target = t := by
  unfold State.lookupPair
  rw [List.find?_isSome]
  constructor
  · rintro ⟨i, -, h⟩
    split at h
    · rename_i r hr
      simp only [Bool.and_eq_true, beq_iff_eq] at h
      exact ⟨i, r, hr, h⟩
    · cases h
  · rintro ⟨i, r, hr, hk, ht⟩
    refine ⟨i, mem_allSlots i, ?_⟩
    rw [hr]
    simp [hk, ht]

/-- A record created in a FREE slot, with an `aliasAddr` and a pair that no record holds, keeps the directory's laws (R13). -/
theorem createRec_keepsDir (i : Slot) (r : Record) (hi : s.recAt i = none) (hl : r.Lawful)
    (ha : s.aliasTaken r.aliasAddr = false) (hp : (s.lookupPair r.segment r.target).isSome = false) :
    KeepsDir s (s.createRec i r) := by
  have noAlias : ∀ j q, s.recAt j = some q → q.aliasAddr ≠ r.aliasAddr := fun j q hq e =>
    Bool.eq_false_iff.mp ha ((aliasTaken_iff s _).mpr ⟨j, q, hq, e⟩)
  have noPair : ∀ j q, s.recAt j = some q → ¬(q.segment = r.segment ∧ q.target = r.target) := fun j q hq e =>
    Bool.eq_false_iff.mp hp ((lookupPair_isSome_iff s _ _).mpr ⟨j, q, hq, e⟩)
  refine ⟨fun h j q hq => ?_, fun h j l q p hq hp hjl => ?_, fun h a j => ?_⟩
  · rw [createRec_recAt] at hq
    split at hq
    · cases hq; exact hl
    · exact h j q hq
  · rw [createRec_recAt] at hq hp
    split at hq
    · cases hq
      rename_i e
      rw [if_neg (e ▸ hjl)] at hp
      exact ⟨(noAlias l p hp).symm, fun g => noPair l p hp ⟨g.1.symm, g.2.symm⟩⟩
    · split at hp
      · cases hp
        exact ⟨noAlias j q hq, noPair j q hq⟩
      · exact h j l q p hq hp hjl
  · rw [createRec_lookupAlias, createRec_recAt]
    by_cases e : r.aliasAddr = a
    · subst e
      rw [if_pos rfl]
      constructor
      · rintro ⟨⟩
        exact ⟨r, if_pos rfl, rfl⟩
      · rintro ⟨q, hq, hqa⟩
        split at hq
        · rename_i hij; rw [hij]
        · exact absurd hqa (noAlias j q hq)
    · rw [if_neg e, h]
      split
      · rename_i hij
        subst hij
        simp [hi, e]
      · rfl

end Sys2Proof.Machine
end

section
namespace Sys2Proof.Machine

variable (s : State)

/-! ### The wrappers of the events (R115, R130, R171) -/

theorem live_cases (f : State → State) : s.live f = s ∨ s.live f = f s := by
  unfold State.live
  split <;> simp

theorem timed_cases (f : State → State) : s.timed f = s ∨ s.timed f = f s := by
  unfold State.timed
  split <;> simp

theorem frame_cases (f : State → State) :
    s.frame f = s ∨ s.frame f = s.setMp { s.mp with waitRelease := false } ∨ s.frame f = f s := by
  unfold State.frame
  split
  · simp
  · split <;> simp

/-- `s` with MP's command queue cut to `rest`: what DC's meanings act on. -/
theorem taking_cases (kind : CmdKind) (f : Command → State → State) :
    s.taking kind f = s ∨ ∃ c rest, s.mp.commands = c :: rest ∧ c.kind = kind ∧ s.taking kind f = f c (s.taken rest) := by
  unfold State.taking
  split
  · rename_i c rest h
    split
    · rename_i hk
      exact .inr ⟨c, rest, h, hk, rfl⟩
    · exact .inl rfl
  · exact .inl rfl

theorem KeepsDir.live {f : State → State} (h : KeepsDir s (f s)) : KeepsDir s (s.live f) := by
  rcases live_cases s f with e | e <;> rw [e]
  · exact .refl s
  · exact h

theorem KeepsDir.timed {f : State → State} (h : KeepsDir s (f s)) : KeepsDir s (s.timed f) := by
  rcases timed_cases s f with e | e <;> rw [e]
  · exact .refl s
  · exact h

theorem KeepsDir.frame {f : State → State} (h : KeepsDir s (f s)) : KeepsDir s (s.frame f) := by
  rcases frame_cases s f with e | e | e <;> rw [e]
  · exact .refl s
  · exact .of_dir rfl
  · exact h

theorem KeepsDir.taking {kind : CmdKind} {f : Command → State → State} (h : ∀ c u, KeepsDir u (f c u)) :
    KeepsDir s (s.taking kind f) := by
  rcases taking_cases s kind f with e | ⟨c, rest, -, -, e⟩ <;> rw [e]
  · exact .refl s
  · exact KeepsDir.trans (b := s.taken rest) (.of_dir rfl) (h c _)

/-! ### The end of an event -/

/-- Two records that agree but for their markers. -/
theorem Record.eq_of_unmarked {r q : Record} (h : q.unmarked = r.unmarked) : q = { r with marker := q.marker } := by
  cases r; cases q
  simpa [Record.unmarked] using h

/-- Arbiters change records in their markers alone (R54). -/
theorem OnlyArbiters.keepsDir {m t : State} (h : OnlyArbiters m t) : KeepsDir m t := by
  obtain ⟨hr, hi, -⟩ := h
  refine .of_became hi fun i => ?_
  have hr := hr i
  cases hm : m.recAt i with
  | none => rw [hm] at hr; exact .inl ⟨rfl, by simpa using hr⟩
  | some r =>
    rw [hm] at hr
    obtain ⟨q, hq, e⟩ := Option.map_eq_some_iff.mp hr
    refine .inr ⟨r, q, rfl, hq, ?_⟩
    rw [Record.eq_of_unmarked e]
    exact r.became_marker _

theorem arbitrateAll_keepsDir (low : LowLines) : KeepsDir s (s.arbitrateAll low) :=
  (arbitrateAll_onlyArbiters s low).keepsDir

/-- What follows an event's own changes keeps the directory: the release of the bus, and the event's end. -/
theorem KeepsDir.conclude {s u : State} (h : KeepsDir s u) : KeepsDir s u.conclude :=
  h.trans (.of_dir (conclude_frame u).2.1)

theorem KeepsDir.settle {s u : State} (h : KeepsDir s u) (low : LowLines) : KeepsDir s (u.settle low) :=
  (h.trans (arbitrateAll_keepsDir u low)).conclude

theorem KeepsDir.settleWith {s u : State} (h : KeepsDir s u) (low : LowLines) (r : Response) :
    KeepsDir s (u.settleWith low r) :=
  (h.trans (arbitrateAll_keepsDir u low)).trans (.of_dir (concludeWith_frame _ r).2.1)

theorem KeepsDir.releaseBus {s u : State} (h : KeepsDir s u) (k : Seg) : KeepsDir s (u.releaseBus k) :=
  h.trans (.of_dir (by simp))

theorem KeepsDir.enterRecovering {s u : State} (h : KeepsDir s u) (k : Seg) : KeepsDir s (u.enterRecovering k) :=
  h.trans (.of_dir (by simp))

theorem KeepsDir.answerDone {s u : State} (h : KeepsDir s u) (c : Command) (results : List Byte) :
    KeepsDir s (u.answerDone c results) := h.trans (.of_dir (concludeWith_frame u _).2.1)

theorem answer_keepsDir (c : Command) (code : ResultCode) : KeepsDir s (s.answer c code) := .of_dir rfl

/-! ### Events of the upstream bus -/

theorem commit_keepsDir : KeepsDir s s.commit := by
  unfold State.commit
  split
  · split
    · exact .of_dir rfl
    · split
      · exact KeepsDir.trans (b := s.releaseReservation) (.of_dir rfl) (undeliveredClaim_keepsDir _ _)
      · exact .of_dir rfl
  · exact .of_dir rfl

@[simp] theorem dropRequest_dir : s.dropRequest.dir = s.dir := by
  unfold State.dropRequest
  split <;> rfl

@[simp] theorem leaveTransaction_dir : s.leaveTransaction.dir = s.dir := rfl

theorem closeForStop_keepsDir : KeepsDir s s.closeForStop := by
  unfold State.closeForStop
  split
  · exact (commit_keepsDir s).trans (.of_dir rfl)
  · exact .of_dir (by simp)

theorem closeForRestart_keepsDir (cut : Bool) : KeepsDir s (s.closeForRestart cut) := by
  unfold State.closeForRestart
  split
  · exact (commit_keepsDir s).trans (.of_dir rfl)
  · split
    · split <;> exact .of_dir (by simp)
    · exact .of_dir (by simp)
  · exact .of_dir (by simp)

@[simp] theorem abandonOpen_dir : s.abandonOpen.dir = s.dir := by simp [State.abandonOpen]

theorem resolveCarried_dir (mode : UpMode) (a : Addr) (d : Dir) (k : Seg) (slot : Option Slot) (target : Addr)
    (answer : Option Answer) : (s.resolveCarried mode a d k slot target answer).dir = s.dir := by
  unfold State.resolveCarried
  dsimp only
  split
  · rfl
  · simp

theorem resolveStandIn_dir (a : Addr) (d : Dir) (i : Slot) (r : Record) :
    (s.resolveStandIn a d i r).dir = s.dir := by
  simp [State.resolveStandIn]

theorem resolveRecord_dir (a : Addr) (d : Dir) (i : Slot) (r : Record) : (s.resolveRecord a d i r).dir = s.dir := by
  unfold State.resolveRecord
  split
  · split
    · simp [State.resolvePosted]
    · split
      · exact resolveCarried_dir ..
      · exact resolveStandIn_dir ..
  · exact resolveStandIn_dir ..

theorem resolveUnknown_dir (a : Addr) (d : Dir) : (s.resolveUnknown a d).dir = s.dir := by
  unfold State.resolveUnknown
  split
  · split
    · exact resolveCarried_dir ..
    · simp [State.resolveRefused]
  · simp [State.resolveRefused]

/-- Resolving an address reads the directory and changes nothing of it (R30 to R33). -/
theorem resolve_dir (a : Addr) (d : Dir) : (s.resolve a d).dir = s.dir := by
  unfold State.resolve
  dsimp only
  split
  · simp [State.resolveRefused]
  · split
    · split
      · exact resolveRecord_dir ..
      · exact resolveUnknown_dir ..
    · exact resolveUnknown_dir ..

theorem carryByte_dir (k : Seg) (b : Byte) : (s.carryByte k b).dir = s.dir := by
  unfold State.carryByte
  split
  · split <;> rfl
  · rfl

theorem takeByte_dir (b : Byte) : (s.takeByte b).dir = s.dir := by
  unfold State.takeByte
  split
  · split
    · split <;> rfl
    · rfl
    · split
      · exact carryByte_dir ..
      · rfl
    · split
      · exact carryByte_dir ..
      · rfl
    · rfl
    · rfl
  · rfl
  · rfl
  · rfl

theorem answerByte_dir (k : Seg) (ack : Bool) : (s.answerByte k ack).dir = s.dir := by
  unfold State.answerByte
  split
  · split
    · dsimp only
      split <;> rfl
    · rfl
  · rfl

theorem takeReadAnswer_dir (ack : Bool) : (s.takeReadAnswer ack).dir = s.dir := by
  unfold State.takeReadAnswer
  split
  · split
    · rfl
    · split
      · split <;> rfl
      · split
        · exact answerByte_dir ..
        · rfl
      · split
        · exact answerByte_dir ..
        · rfl
      · rfl
      · rfl
      · rfl
  · rfl
  · rfl
  · rfl

@[simp] theorem answerAsExpired_dir : s.answerAsExpired.dir = s.dir := by
  unfold State.answerAsExpired
  split
  · rfl
  · split <;> rfl
  · rfl
  · rfl

theorem holdExpiry_dir : s.holdExpiry.dir = s.dir := by
  unfold State.holdExpiry
  split <;> simp

/-! ### Events of the segment buses -/

theorem usedByForward_keepsDir (t : Tx) : KeepsDir s (s.usedByForward t) := by
  unfold State.usedByForward
  split
  · exact usedClaim_keepsDir s _
  · exact .refl s

@[simp] theorem relayAddressAck_dir (k : Seg) (t : Tx) : (s.relayAddressAck k t).dir = s.dir := by
  unfold State.relayAddressAck
  dsimp only
  split <;> rfl

theorem forwardAddressAnswer_keepsDir (k : Seg) (t : Tx) (ack : Bool) :
    KeepsDir s (s.forwardAddressAnswer k t ack) := by
  unfold State.forwardAddressAnswer
  split
  · split
    · exact (usedByForward_keepsDir s t).trans (.of_dir rfl)
    · exact .of_dir rfl
  · split
    · dsimp only
      refine (usedByForward_keepsDir s t).trans (.of_dir ?_)
      split <;> simp [State.stepTx]
    · dsimp only
      refine .of_dir ?_
      split <;> simp [State.stepTx]

@[simp] theorem sendNext_dir (k : Seg) (t : Tx) (n : Nat) : (s.sendNext k t n).dir = s.dir := by
  unfold State.sendNext
  split
  · split <;> rfl
  · rfl

theorem addressAnswer_keepsDir (k : Seg) (ack : Bool) : KeepsDir s (s.addressAnswer k ack) := by
  unfold State.addressAnswer
  split
  · split
    · split
      · exact forwardAddressAnswer_keepsDir ..
      · exact forwardAddressAnswer_keepsDir ..
      · split
        · exact .of_dir (by simp)
        · exact .of_dir rfl
      · exact .refl s
      · exact .refl s
      · exact .refl s
    · exact .refl s
  · exact .refl s

theorem forwardByteAnswer_dir (k : Seg) (t : Tx) (ack : Bool) : (s.forwardByteAnswer k t ack).dir = s.dir := by
  unfold State.forwardByteAnswer
  dsimp only
  split
  · rfl
  · split
    · split <;> rfl
    · split <;> simp [State.stepTx]

theorem byteAnswer_dir (k : Seg) (ack : Bool) : (s.byteAnswer k ack).dir = s.dir := by
  unfold State.byteAnswer
  split
  · split
    · split
      · rfl
      · split
        · exact forwardByteAnswer_dir ..
        · exact forwardByteAnswer_dir ..
        · split
          · simp
          · rfl
        · rfl
        · rfl
        · rfl
    · rfl
  · rfl

theorem byteArrives_dir (k : Seg) (b : Byte) : (s.byteArrives k b).dir = s.dir := by
  unfold State.byteArrives
  split
  · split
    · split
      · rfl
      · dsimp only
        split <;> rfl
    · rfl
  · rfl

@[simp] theorem closeDownstream_dir (k : Seg) : (s.closeDownstream k).dir = s.dir := by
  unfold State.closeDownstream
  split <;> rfl

theorem endForward_keepsDir (k : Seg) (low : LowLines) : KeepsDir s (s.endForward k low) := by
  unfold State.endForward
  split
  · split
    · exact ((KeepsDir.trans (.of_dir (closeDownstream_dir s k)) (forwardOver_keepsDir _ _ _)).releaseBus k).settle low
    · exact .refl s
  · exact .refl s

theorem endDelivery_keepsDir (k : Seg) (o : DeliveryEnd) (low : LowLines) : KeepsDir s (s.endDelivery k o low) := by
  unfold State.endDelivery
  split
  · split
    · exact ((deliveryOver_keepsDir s k _ _ _).releaseBus k).settle low
    · exact .refl s
  · exact .refl s

theorem endProbe_keepsDir (k : Seg) (answer : ProbeAnswer) (low : LowLines) :
    KeepsDir s (s.endProbe k answer low) := by
  unfold State.endProbe
  split
  · split
    · split
      · exact ((probeOver_keepsDir s k _ _ answer).releaseBus k).settle low
      · exact .refl s
    · exact .refl s
  · exact .refl s

/-- A discovered record is lawful (R16). -/
theorem discoveredRecord_lawful (k : Seg) (t a : Addr) : (discoveredRecord k t a).Lawful := by
  rw [Record.lawful_iff]
  simp [discoveredRecord, Config.defaultThreshold]

/-- DIR creates a record for a discovery only after the checks of R16. -/
theorem creation_keepsDir (k : Seg) (t a : Addr) : KeepsDir s ((s.judgeCreation k t a).records k t a s) := by
  unfold State.judgeCreation
  split
  · exact .refl s
  · rename_i hp
    split
    · exact .refl s
    · rename_i ha
      split
      · exact .refl s
      · rename_i i hi
        have free : s.recAt i = none := by
          have := List.find?_some hi
          simp only [Bool.and_eq_true, Option.isNone_iff_eq_none] at this
          exact this.1
        exact createRec_keepsDir s i _ free (discoveredRecord_lawful k t a) (Bool.eq_false_iff.mpr ha)
          (Bool.eq_false_iff.mpr hp)

@[simp] theorem afterAddress_dir (k : Seg) (d : Discovery) : (s.afterAddress k d).dir = s.dir := by
  unfold State.afterAddress
  dsimp only
  split
  · simp [State.putDiscovery]
  · split <;> simp [State.putDiscovery]

theorem deviceFound_keepsDir (k : Seg) (d : Discovery) (t : Addr) : KeepsDir s (s.deviceFound k d t) := by
  unfold State.deviceFound
  dsimp only
  refine (creation_keepsDir s k t (d.aliasOf t)).trans (.of_dir ?_)
  split <;> simp [State.putDiscovery]

theorem discoveryProbeOver_keepsDir (k : Seg) (t : Addr) (found : Bool) :
    KeepsDir s (s.discoveryProbeOver k t found) := by
  unfold State.discoveryProbeOver
  split
  · exact .refl s
  · split
    · exact deviceFound_keepsDir ..
    · exact .of_dir (by simp)

theorem endDiscoveryProbe_keepsDir (k : Seg) (found : Bool) (low : LowLines) :
    KeepsDir s (s.endDiscoveryProbe k found low) := by
  unfold State.endDiscoveryProbe
  split
  · split
    · exact ((discoveryProbeOver_keepsDir s k _ found).releaseBus k).settle low
    · exact .refl s
  · exact .refl s

@[simp] theorem forwardLost_dir (k : Seg) (t : Tx) : (s.forwardLost k t).dir = s.dir := by
  unfold State.forwardLost
  dsimp only
  rw [closeDownstream_dir]
  split <;> simp

theorem forwardLost_over_keepsDir (k : Seg) (t : Tx) (charged : Bool) :
    KeepsDir s ((s.forwardLost k t).forwardOver t.slot charged) :=
  KeepsDir.trans (.of_dir (by simp)) (forwardOver_keepsDir _ _ charged)

theorem stallOver_keepsDir (k : Seg) (t : Tx) : KeepsDir s (s.stallOver k t) := by
  unfold State.stallOver
  split
  · exact forwardLost_over_keepsDir s k t true
  · exact forwardLost_over_keepsDir s k t true
  · split
    · exact deliveryOver_keepsDir ..
    · exact .refl s
  · split
    · exact probeOver_keepsDir ..
    · exact .refl s
  · split
    · exact probeOver_keepsDir ..
    · exact .refl s
  · exact discoveryProbeOver_keepsDir ..

theorem takeStall_keepsDir (k : Seg) (low : LowLines) : KeepsDir s (s.takeStall k low) := by
  unfold State.takeStall
  split
  · split
    · exact ((KeepsDir.refl s).releaseBus k).settle low
    · exact ((stallOver_keepsDir s k _).enterRecovering k).conclude
  · exact .refl s

theorem clockHeld_dir (k : Seg) : (s.clockHeld k).dir = s.dir := by
  rcases clockHeld_cases s k with e | ⟨-, -, e⟩ <;> rw [e]
  rfl

theorem stall_keepsDir (k : Seg) (clock : ClockEvent) (t : State) (h : exec (.stall k clock) s = .next t) :
    KeepsDir s t := by
  cases h
  cases clock with
  | heldLow => exact .live s (.of_dir (clockHeld_dir s k))
  | rises => exact .live s (.of_dir rfl)
  | expires low => exact .live s (takeStall_keepsDir s k low)

theorem deliveryCut_keepsDir (k : Seg) (i : Slot) : KeepsDir s (s.deliveryCut k i) := by
  unfold State.deliveryCut
  split
  · split
    · exact deliveryOver_keepsDir ..
    · refine KeepsDir.trans ?_ (afterEnd_keepsDir _ i)
      refine KeepsDir.trans ?_ (clearMarker_keepsDir _ i)
      exact .of_dir rfl
  · exact KeepsDir.trans (b := s.clearTx k) (.of_dir rfl) (clearMarker_keepsDir _ i)

theorem probeCut_keepsDir (k : Seg) (t : Tx) (i : Slot) : KeepsDir s (s.probeCut k t i) := by
  refine ((clearProbeMarker_keepsDir s t i).trans (afterEnd_keepsDir _ i)).trans ?_
  unfold State.probeCut
  dsimp only
  split
  · split <;> exact .of_dir rfl
  · exact .refl _

theorem discoveryCut_dir (k : Seg) : (s.discoveryCut k).dir = s.dir := by
  unfold State.discoveryCut
  split
  · rfl
  · dsimp only
    split <;> simp [State.putDiscovery]

theorem cutOver_keepsDir (k : Seg) (t : Tx) : KeepsDir s (s.cutOver k t) := by
  unfold State.cutOver
  split
  · exact forwardLost_over_keepsDir s k t false
  · exact forwardLost_over_keepsDir s k t false
  · split
    · exact deliveryCut_keepsDir ..
    · exact .refl s
  · split
    · exact probeCut_keepsDir ..
    · exact .refl s
  · split
    · exact probeCut_keepsDir ..
    · exact .refl s
  · exact .of_dir (discoveryCut_dir s k)

theorem takeFault_keepsDir (k : Seg) : KeepsDir s (s.takeFault k) := by
  unfold State.takeFault
  split
  · split
    · exact (KeepsDir.refl s).enterRecovering k
    · exact (cutOver_keepsDir s k _).enterRecovering k
  · exact .refl s

end Sys2Proof.Machine
end

section
namespace Sys2Proof.Machine

variable (s : State)

/-! ### Probe requests, recovery and timers -/

theorem KeepsDir.andDir {s u t : State} (h : KeepsDir s u) (e : t.dir = u.dir) : KeepsDir s t := h.trans (.of_dir e)

theorem refuseProbe_keepsDir (i : Slot) : KeepsDir s (s.refuseProbe i) := by
  unfold State.refuseProbe
  refine (modRec_keepsDir s i (fun r => if r.state = .quarantined then { r with holdOff := s.hm.holdOff } else r)
    fun r _ => ?_).andDir (answerQueuedProbes_frame _ i _).2.2.2.2.2.2.2.1
  split
  · rename_i h
    exact r.became_holdOff s.hm.holdOff h
  · exact .refl r

theorem refuseProbes_keepsDir (es : List Slot) : KeepsDir s (s.refuseProbes es) := by
  induction es generalizing s with
  | nil => exact .refl s
  | cons i rest ih => exact (refuseProbe_keepsDir s i).trans (ih _)

theorem requestProbe_keepsDir (i : Slot) : KeepsDir s (s.requestProbe i) := by
  unfold State.requestProbe
  split
  · split
    · exact refuseProbe_keepsDir s i
    · exact .of_dir rfl
  · exact .refl s

theorem requestProbes_keepsDir (es : List Slot) : KeepsDir s (s.requestProbes es) := by
  induction es generalizing s with
  | nil => exact .refl s
  | cons i rest ih => exact (requestProbe_keepsDir s i).trans (ih _)

theorem attemptSucceeds_keepsDir (k : Seg) : KeepsDir s (s.attemptSucceeds k) := by
  unfold State.attemptSucceeds
  dsimp only
  split
  · exact .of_dir (by simp)
  · split
    · unfold State.resumeRecovered
      exact KeepsDir.trans (.of_dir (by simp)) (requestProbes_keepsDir _ _)
    · exact .of_dir rfl

/-- The engine that has failed: no transaction, no attempt, no flag (R71). -/
def State.failing (s : State) (k : Seg) : State :=
  s.modEngine k fun e =>
    { e with state := .failed, attempt := none, stall := none, tx := none, pausePending := false,
             resumeWaiting := false }

/-- With its request withdrawn and its entries purged (R42, R89). -/
def State.failedEmptied (s : State) (k : Seg) : State :=
  ((s.failing k).withdraw k .standIn).purgeAndRetire k fun _ => true

/-- With its probe queue given up and each request of it refused (R71, R98). -/
def State.failedRefused (s : State) (k : Seg) : State :=
  ((s.failedEmptied k).modEngine k fun e => { e with probeQueue := [] }).refuseProbes
    ((s.failedEmptied k).engine k).probeQueue

/-- The steps by which an engine enters FAILED. -/
theorem enterFailed_eq (k : Seg) :
    s.enterFailed k = ((((s.failedRefused k).endDiscovery k .segmentFault).answerPause k .segmentFault).answerResume k
      .segmentFault).markFault k fun m => { m with failed := true } := rfl

theorem enterFailed_keepsDir (k : Seg) : KeepsDir s (s.enterFailed k) := by
  have emptied : KeepsDir s (s.failedEmptied k) :=
    ((KeepsDir.refl s).andDir (by simp [State.failing])).trans
      (purgeAndRetire_keepsDir ((s.failing k).withdraw k .standIn) k _)
  have refused : KeepsDir s (s.failedRefused k) :=
    (emptied.andDir (modEngine_dir _ k _)).trans (refuseProbes_keepsDir _ _)
  rw [enterFailed_eq]
  exact refused.andDir (by simp)

theorem attemptFails_keepsDir (k : Seg) : KeepsDir s (s.attemptFails k) := by
  unfold State.attemptFails
  dsimp only
  split
  · exact .of_dir rfl
  · exact ((KeepsDir.refl s).andDir (modEngine_dir s k _)).trans (enterFailed_keepsDir _ k)

/-- A change of every record by one function leaves the `aliasIndex` (R25, R101, R110). -/
theorem recAt_mapSlots (f : Option Record → Option Record) (i : Slot) :
    (s.setDir { s.dir with slots := mapEach f s.dir.slots }).recAt i = f (s.recAt i) := by
  simp [State.recAt]

theorem mapSlots_keepsDir (f : Record → Record) (hf : ∀ r : Record, r.Became (f r)) :
    KeepsDir s (s.setDir { s.dir with slots := mapEach (fun o => o.map f) s.dir.slots }) := by
  refine .of_map ?_ (fun _ => f) (fun i => ?_) fun _ r _ => hf r
  · rw [setDir_dir]
  · rw [recAt_mapSlots]

theorem surveyPass_keepsDir : KeepsDir s s.surveyPass := by
  refine KeepsDir.trans ?_ (KeepsDir.of_dir (s := (s.requestProbes s.surveyed).clearUsed) rfl)
  exact (requestProbes_keepsDir s _).trans (mapSlots_keepsDir _ _ Record.became_unused)

theorem holdOffStep_keepsDir (i : Slot) : KeepsDir s (s.holdOffStep i) := by
  unfold State.holdOffStep
  split
  · rename_i r hr
    split
    · rename_i h
      have step := putRec_keepsDir s i hr (r.became_holdOff (r.holdOff - 1) h.1)
      dsimp only
      split
      · exact step.trans (requestProbe_keepsDir _ i)
      · exact step
    · exact .refl s
  · exact .refl s

theorem holdOffSteps_keepsDir (es : List Slot) : KeepsDir s (s.holdOffSteps es) := by
  induction es generalizing s with
  | nil => exact .refl s
  | cons i rest ih => exact (holdOffStep_keepsDir s i).trans (ih _)

theorem absenceSecond_keepsDir (i : Slot) : KeepsDir s (s.absenceSecond i) := by
  unfold State.absenceSecond
  split
  · rename_i r hr
    split
    · rename_i h
      have absent : r.state = .absent := by
        simp only [State.ageCounts, Bool.and_eq_true, beq_iff_eq] at h
        exact h.1.1
      have second := putRec_keepsDir s i hr (r.became_older absent)
      dsimp only
      split
      · exact second.trans (absenceExpiry_keepsDir _ i)
      · exact second
    · exact .refl s
  · exact .refl s

theorem absenceSeconds_keepsDir (es : List Slot) : KeepsDir s (s.absenceSeconds es) := by
  induction es generalizing s with
  | nil => exact .refl s
  | cons i rest ih => exact (absenceSecond_keepsDir s i).trans (ih _)

/-! ### Commands -/

/-- What a BIND's decoder promises of the record's threshold and probe register (R4, R5, R184). -/
theorem decodeBind_lawful (args : List Byte) (f : BindFields) (h : decodeBind args = some f) :
    (boundRecord f).Lawful := by
  unfold decodeBind at h
  split at h
  · split at h
    · rename_i n _ _ _ _ hn
      split at h
      · cases h
      · split at h
        · cases h
        · rename_i hfrozen
          cases h
          rw [positiveOf_some] at hn
          obtain ⟨hz, rfl⟩ := hn
          have pos : ∀ b : Byte, b ≠ 0x00 → 1 ≤ b.toNat ∧ b.toNat ≤ 255 := fun b hb => by bv_omega
          rw [Record.lawful_iff]
          simp only [boundRecord]
          have := pos _ hz
          grind
    · cases h
  · cases h

/-- The slot a BIND uses is FREE, and its `aliasAddr` and pair are new (R15). -/
theorem bindSlot_ok (f : BindFields) (i : Slot) (h : s.bindSlot f = .ok i) :
    s.recAt i = none ∧ s.aliasTaken f.aliasAddr = false ∧ (s.lookupPair f.segment f.target).isSome = false := by
  unfold State.bindSlot at h
  split at h
  · cases h
  · split at h
    · cases h
    · rename_i ha
      split at h
      · cases h
      · rename_i hp
        refine ⟨?_, Bool.eq_false_iff.mpr ha, Bool.eq_false_iff.mpr hp⟩
        split at h
        · split at h
          · cases h
          · rename_i hn
            cases h
            simpa using hn
        · split at h
          · rename_i hi
            cases h
            have := List.find?_some hi
            simp only [Bool.and_eq_true, Option.isNone_iff_eq_none] at this
            exact this.1
          · cases h

theorem runBind_keepsDir (low : LowLines) (c : Command) : KeepsDir s (s.runBind low c) := by
  unfold State.runBind
  split
  · exact answer_keepsDir s c _
  · rename_i f hf
    split
    · exact answer_keepsDir s c _
    · rename_i i hi
      obtain ⟨free, ha, hp⟩ := bindSlot_ok s f i hi
      exact ((createRec_keepsDir s i _ free (decodeBind_lawful _ f hf) ha hp).trans
        (requestProbe_keepsDir _ i)).settleWith low _

/-- The threshold an EDIT selects is 1 to 255 (R185). -/
theorem Selection.add_threshold (sel : Selection) (c v : Byte) (sel' : Selection) (h : sel.add c v = some sel')
    (hs : ∀ n, sel.threshold = some n → 1 ≤ n ∧ n ≤ 255) : ∀ n, sel'.threshold = some n → 1 ≤ n ∧ n ≤ 255 := by
  intro n hn
  rcases ((sel.add_some c v sel' h).threshold n).mp hn with hold | ⟨w, hw, rfl⟩
  · exact hs n hold
  · obtain ⟨rfl, rfl⟩ := Prod.mk.inj (List.mem_singleton.mp hw)
    have nonzero : w ≠ 0x00 := fun hz => by
      have : sel.add 0x0A w = none := (sel.add_none 0x0A w).mpr (.inl (.inr (.inr ⟨rfl, hz⟩)))
      rw [this] at h
      cases h
    bv_omega

theorem decodePairs_threshold (sel : Selection) (bytes : List Byte) (out : Selection)
    (h : decodePairs sel bytes = some out) (hs : ∀ n, sel.threshold = some n → 1 ≤ n ∧ n ≤ 255) :
    ∀ n, out.threshold = some n → 1 ≤ n ∧ n ≤ 255 := by
  induction sel, bytes using decodePairs.induct with
  | case1 sel => cases h; exact hs
  | case2 => cases h
  | case3 sel code value rest sel' hadd ih =>
    simp only [decodePairs, hadd] at h
    exact ih h (sel.add_threshold code value sel' hadd hs)
  | case4 sel code value rest hadd => simp only [decodePairs, hadd] at h; cases h

theorem decodeEdit_threshold (args : List Byte) (i : Slot) (sel : Selection) (h : decodeEdit args = some (i, sel)) :
    ∀ n, sel.threshold = some n → 1 ≤ n ∧ n ≤ 255 := by
  unfold decodeEdit at h
  split at h
  · split at h
    · split at h
      · rename_i hp
        cases h
        exact decodePairs_threshold _ _ _ hp fun n hn => by cases hn
      · cases h
    · cases h
  · cases h

theorem OtherRecords.trans {s t u : State} {i : Slot} (h : OtherRecords s t i) (g : OtherRecords t u i) :
    OtherRecords s u i := fun j hj => (g j hj).trans (h j hj)

theorem putRec_others (i : Slot) (o : Option Record) : OtherRecords s (s.putRec i o) i :=
  fun _ hj => recAt_putRec_other s (Ne.symm hj) o

/-- The threshold after an EDIT is 1 to 255, selected or not (R5, R185). -/
theorem select_threshold_bounds (r : Record) (sel : Selection) (h : r.Lawful)
    (hs : ∀ n, sel.threshold = some n → 1 ≤ n ∧ n ≤ 255) :
    1 ≤ (r.select sel).threshold ∧ (r.select sel).threshold ≤ 255 := by
  cases hn : sel.threshold with
  | none =>
    rw [Record.lawful_iff] at h
    simp only [Record.select, hn, Option.getD_none]
    exact h.1.2.2
  | some n => simpa only [Record.select, hn, Option.getD_some] using hs n hn

/-- An edited record is lawful when its error count `e` keeps R5 with the threshold it then has. -/
theorem select_lawful (r : Record) (sel : Selection) (e : Nat) (h : r.Lawful)
    (hs : ∀ n, sel.threshold = some n → 1 ≤ n ∧ n ≤ 255)
    (hf : (r.select sel).frozen = true → (r.select sel).probeReg.isSome = true) (he : e ≤ (r.select sel).threshold)
    (hb : r.state = .bound → e < (r.select sel).threshold) : { r.select sel with errorCount := e }.Lawful := by
  have bounds := select_threshold_bounds r sel h hs
  generalize hn : (r.select sel).threshold = n at *
  rw [Record.lawful_iff] at h ⊢
  simp only [Record.select] at *
  grind

/-- The threshold law of an EDIT quarantines the record with its count at the threshold (R5, R139). -/
theorem select_quarantined_lawful (r : Record) (sel : Selection) (m u : Nat) (h : r.Lawful)
    (hs : ∀ n, sel.threshold = some n → 1 ≤ n ∧ n ≤ 255)
    (hf : (r.select sel).frozen = true → (r.select sel).probeReg.isSome = true) (hu : u ≤ 255) :
    { { r.select sel with errorCount := (r.select sel).threshold }.toQuarantined .errors m with
      undelivered := u }.Lawful := by
  have bounds := select_threshold_bounds r sel h hs
  generalize hn : (r.select sel).threshold = n at *
  rw [Record.lawful_iff] at h ⊢
  simp only [Record.toQuarantined, Record.select] at *
  grind

/-- The state of an EDIT between the change of the selected fields and the threshold law. -/
def State.editedFields (s : State) (i : Slot) (r : Record) (sel : Selection) : State :=
  if (r.select sel).identity = r.identity then s.putRec i (some (r.select sel))
  else (s.putRec i (some (r.select sel))).markChanged i

theorem applyEdit_eq (i : Slot) (r : Record) (sel : Selection) :
    s.applyEdit i r sel =
      if sel.threshold.isSome then (s.editedFields i r sel).applyThreshold i else s.editedFields i r sel := rfl

theorem editedFields_recAt (i : Slot) (r : Record) (sel : Selection) :
    (s.editedFields i r sel).recAt i = some (r.select sel) := by
  unfold State.editedFields
  split <;> simp

theorem editedFields_others (i : Slot) (r : Record) (sel : Selection) :
    OtherRecords s (s.editedFields i r sel) i := by
  unfold State.editedFields
  split <;> exact putRec_others s i _

@[simp] theorem editedFields_frame (i : Slot) (r : Record) (sel : Selection) :
    (s.editedFields i r sel).eng = s.eng ∧ (s.editedFields i r sel).pool = s.pool ∧
    (s.editedFields i r sel).hm = s.hm ∧ (s.editedFields i r sel).dir.aliasIndex = s.dir.aliasIndex := by
  unfold State.editedFields
  split <;> simp

/-- What an EDIT leaves in its slot (R5, R138): the selected record, or, with a threshold selected, that record with its
error count within the threshold, quarantined when it was BOUND at or above it. -/
theorem applyEdit_recAt (i : Slot) (r : Record) (sel : Selection) :
    ∃ q, (s.applyEdit i r sel).recAt i = some q ∧
      ((r.state = .bound ∧ sel.threshold.isSome = true ∧ (r.select sel).threshold ≤ r.errorCount ∧
          q = { { r.select sel with errorCount := (r.select sel).threshold }.toQuarantined .errors s.hm.holdOff with
            undelivered := moreLost r.undelivered (s.purged r.segment i).length }) ∨
        (r.state = .bound ∧ (sel.threshold.isSome = true → r.errorCount < (r.select sel).threshold) ∧
          q = r.select sel) ∨
        (r.state ≠ .bound ∧ q = { r.select sel with errorCount :=
          if sel.threshold.isSome then (min r.errorCount (r.select sel).threshold) else r.errorCount })) := by
  have edited := editedFields_recAt s i r sel
  obtain ⟨heng, hpool, hhm, -⟩ := editedFields_frame s i r sel
  rw [applyEdit_eq]
  by_cases hs : sel.threshold.isSome = true
  · rw [if_pos hs]
    unfold State.applyThreshold
    rw [edited]
    dsimp only
    by_cases hb : r.state = .bound
    · rw [if_pos (show (r.select sel).state = .bound from hb)]
      by_cases hle : (r.select sel).threshold ≤ r.errorCount
      · rw [if_pos (show (r.select sel).threshold ≤ (r.select sel).errorCount from hle)]
        refine ⟨_, moveRec_recAt _ i _ _ edited, .inl ⟨hb, hs, hle, ?_⟩⟩
        have purged := purged_of (s := s) (t := s.editedFields i r sel) (k := r.segment)
          (congrArg Engine.tx (engine_of_eng heng _)) (congrArg PoolSeg.queue (poolSeg_of_pool hpool _)) i
        rw [if_pos ⟨hb, nofun, nofun⟩, ← purged, hhm]
        rfl
      · rw [if_neg (show ¬(r.select sel).threshold ≤ (r.select sel).errorCount from hle)]
        exact ⟨_, edited, .inr (.inl ⟨hb, fun _ => Nat.lt_of_not_le hle, rfl⟩)⟩
    · rw [if_neg (show ¬(r.select sel).state = .bound from hb)]
      exact ⟨_, recAt_putRec_self _ i _, .inr (.inr ⟨hb, by rw [if_pos hs]; rfl⟩)⟩
  · rw [if_neg hs]
    refine ⟨_, edited, ?_⟩
    by_cases hb : r.state = .bound
    · exact .inr (.inl ⟨hb, fun h => absurd h hs, rfl⟩)
    · exact .inr (.inr ⟨hb, by rw [if_neg hs]; rfl⟩)

theorem applyThreshold_others (i : Slot) : OtherRecords s (s.applyThreshold i) i ∧
    (s.applyThreshold i).dir.aliasIndex = s.dir.aliasIndex := by
  unfold State.applyThreshold
  split
  · split
    · split
      · exact ⟨moveRec_others s i _, by simp⟩
      · exact ⟨fun _ _ => rfl, rfl⟩
    · exact ⟨putRec_others s i _, rfl⟩
  · exact ⟨fun _ _ => rfl, rfl⟩

theorem applyEdit_others (i : Slot) (r : Record) (sel : Selection) : OtherRecords s (s.applyEdit i r sel) i ∧
    (s.applyEdit i r sel).dir.aliasIndex = s.dir.aliasIndex := by
  have edited := editedFields_others s i r sel
  obtain ⟨others, index⟩ := applyThreshold_others (s.editedFields i r sel) i
  rw [applyEdit_eq]
  split
  · exact ⟨edited.trans others, by simp [index]⟩
  · exact ⟨edited, by simp⟩

/-- An EDIT leaves a lawful record: the threshold law brings the error count within the new threshold (R5, R138). -/
theorem applyEdit_keepsDir (i : Slot) (r : Record) (sel : Selection) (hr : s.recAt i = some r)
    (hs : ∀ n, sel.threshold = some n → 1 ≤ n ∧ n ≤ 255)
    (hf : (r.select sel).frozen = true → (r.select sel).probeReg.isSome = true) :
    KeepsDir s (s.applyEdit i r sel) := by
  obtain ⟨q, hq, hcase⟩ := applyEdit_recAt s i r sel
  obtain ⟨others, index⟩ := applyEdit_others s i r sel
  have unselected : sel.threshold.isSome = false → (r.select sel).threshold = r.threshold := fun h => by
    simp [Record.select, Option.not_isSome_iff_eq_none.mp (Bool.eq_false_iff.mp h)]
  have became : r.Became q := by
    obtain ⟨-, -, -, rfl⟩ | ⟨hb, hlt, rfl⟩ | ⟨hb, rfl⟩ := hcase <;> refine ⟨rfl, rfl, rfl, fun hl => ?_⟩
    · exact select_quarantined_lawful r sel _ _ hl hs hf (moreLost_le _ _ hl.2.2.2.2.1)
    · have below : r.errorCount < (r.select sel).threshold := by
        cases hsel : sel.threshold.isSome with
        | true => exact hlt hsel
        | false => rw [unselected hsel]; exact hl.1.2.1 hb
      exact select_lawful r sel r.errorCount hl hs hf below.le fun _ => below
    · refine select_lawful r sel _ hl hs hf ?_ fun h => absurd h hb
      split
      · exact Nat.min_le_right _ _
      · rename_i hsel
        rw [unselected (Bool.eq_false_iff.mpr hsel)]
        exact hl.1.1
  exact .of_slot_became i hr hq others index became

theorem runEdit_keepsDir (c : Command) : KeepsDir s (s.runEdit c) := by
  unfold State.runEdit
  split
  · exact answer_keepsDir s c _
  · rename_i i sel hsel
    split
    · exact answer_keepsDir s c _
    · rename_i r hr
      split
      · exact answer_keepsDir s c _
      · split
        · exact answer_keepsDir s c _
        · rename_i hf
          refine (applyEdit_keepsDir s i r sel hr (decodeEdit_threshold _ _ _ hsel) fun hfr => ?_).answerDone c _
          exact Option.isSome_iff_ne_none.mpr fun hn => hf ⟨hfr, hn⟩

theorem pairTakenByOther_iff (i : Slot) (k : Seg) (a : Addr) : s.pairTakenByOther i k a = true ↔
    ∃ j q, j ≠ i ∧ s.recAt j = some q ∧ q.segment = k ∧ q.target = a := by
  unfold State.pairTakenByOther
  rw [List.any_eq_true]
  constructor
  · rintro ⟨j, -, h⟩
    split at h
    · rename_i q hq
      simp only [Bool.and_eq_true, bne_iff_ne, beq_iff_eq] at h
      exact ⟨j, q, h.1.1, hq, h.1.2, h.2⟩
    · cases h
  · rintro ⟨j, q, hj, hq, hk, ha⟩
    refine ⟨j, mem_allSlots j, ?_⟩
    rw [hq]
    simp [hj, hk, ha]

/-- A REBIND that no check refuses: the record is there, unprotected and not busy, and its new pair is free (R20). -/
theorem rebindRefusal_none (i : Slot) (k : Seg) (a : Addr) (r : Record) (hr : s.recAt i = some r) :
    s.rebindRefusal i k a = none ↔ s.isProtected i = false ∧
      ¬(r.state = .retiring ∨ r.marker = .forward ∨ r.marker = .delivery) ∧ s.pairTakenByOther i k a = false := by
  unfold State.rebindRefusal
  rw [hr]
  dsimp only
  split
  · simp_all
  · split
    · simp_all
    · split <;> simp_all

@[simp] theorem rebindMarker_dir_aliasIndex (i : Slot) (same : Bool) :
    (s.rebindMarker i same).dir.aliasIndex = s.dir.aliasIndex := by
  unfold State.rebindMarker
  split
  · rfl
  · simp [State.clearMarker]

theorem rebindMarker_keepsDir (i : Slot) (same : Bool) : KeepsDir s (s.rebindMarker i same) := by
  unfold State.rebindMarker
  split
  · exact .refl s
  · exact ((KeepsDir.refl s).andDir (setEng_dir s _)).trans (clearMarker_keepsDir _ i)

/-- A REBIND moves the record to a pair that no other record holds (R13, R20). -/
theorem moveRec_toRebound_keepsDir (i : Slot) (r : Record) (k : Seg) (a : Addr) (hr : s.recAt i = some r)
    (hp : s.pairTakenByOther i k a = false) : KeepsDir s (s.moveRec i (Record.toRebound k a)) := by
  refine .of_slot i hr (moveRec_recAt s i _ r hr) (moveRec_others s i _) (by simp) rfl (fun hl => ?_)
    fun _ j p hj hpj hpair => ?_
  · refine (Record.became_undelivered _ _ fun hu => ?_).2.2.2 (r.toRebound_lawful k a hl)
    split
    · exact moreLost_le _ _ hu
    · exact hu
  · exact Bool.eq_false_iff.mp hp ((pairTakenByOther_iff s i k a).mpr ⟨j, p, hj, hpj, hpair⟩)

theorem applyRebind_keepsDir (i : Slot) (r : Record) (k : Seg) (a : Addr) (hr : s.recAt i = some r)
    (hp : s.pairTakenByOther i k a = false) : KeepsDir s (s.applyRebind i r k a) := by
  have moved := (moveRec_toRebound_keepsDir s i r k a hr hp).trans
    (rebindMarker_keepsDir _ i (decide (r.segment = k ∧ r.target = a)))
  exact (moved.andDir (by simp)).trans (requestProbe_keepsDir _ i)

theorem runRebind_keepsDir (low : LowLines) (c : Command) : KeepsDir s (s.runRebind low c) := by
  unfold State.runRebind
  split
  · exact answer_keepsDir s c _
  · rename_i i k a _
    split
    · exact answer_keepsDir s c _
    · rename_i r hn hr
      obtain ⟨-, -, free⟩ := (rebindRefusal_none s i k a r hr).mp hn
      exact (applyRebind_keepsDir s i r k a hr free).settleWith low _
    · exact answer_keepsDir s c _

theorem enterRetiring_keepsDir (i : Slot) : KeepsDir s (s.enterRetiring i) := by
  unfold State.enterRetiring
  split
  · split
    · exact .refl s
    · exact moveRec_keepsDir s i _ fun q _ => q.became_toRetiring
  · exact .refl s

theorem finishRetire_keepsDir (c : Command) (i : Slot) (removed : Nat) : KeepsDir s (s.finishRetire c i removed) := by
  unfold State.finishRetire
  split
  · exact (KeepsDir.refl s).answerDone c _
  · split
    · exact ((enterRetiring_keepsDir s i).andDir (setDc_dir _ _)).conclude
    · exact (freeSlot_keepsDir s i).answerDone c _

theorem runRetire_keepsDir (c : Command) : KeepsDir s (s.runRetire c) := by
  unfold State.runRetire
  split
  · exact answer_keepsDir s c _
  · split
    · exact answer_keepsDir s c _
    · rename_i i _ _ _ _ _
      split
      · exact answer_keepsDir s c _
      · unfold State.applyRetire
        have answered : KeepsDir s (s.answerProbes i .retired) := .of_dir (by simp)
        dsimp only
        split
        · exact (answered.trans (purgeAndRetire_keepsDir _ _ _)).trans (finishRetire_keepsDir _ c _ _)
        · exact answered.trans (finishRetire_keepsDir _ c _ _)

theorem runClearCounts_keepsDir (c : Command) : KeepsDir s (s.runClearCounts c) := by
  unfold State.runClearCounts
  split
  · exact answer_keepsDir s c _
  · exact (mapSlots_keepsDir s _ Record.became_clearCounts).answerDone c _
  · split
    · exact answer_keepsDir s c _
    · exact (modRec_keepsDir s _ _ fun r _ => r.became_clearCounts).answerDone c _

theorem runLookup_keepsDir (c : Command) : KeepsDir s (s.runLookup c) := by
  unfold State.runLookup
  split
  · exact answer_keepsDir s c _
  · split
    · exact answer_keepsDir s c _
    · split
      · exact answer_keepsDir s c _
      · exact (KeepsDir.refl s).answerDone c _

@[simp] theorem addOp_dir (work : LongWork) (tag : Byte) : (s.addOp work tag).dir = s.dir := rfl

@[simp] theorem putDiscovery_dir (k : Seg) (d : Discovery) : (s.putDiscovery k d).dir = s.dir := rfl

theorem runProbe_keepsDir (low : LowLines) (c : Command) : KeepsDir s (s.runProbe low c) := by
  unfold State.runProbe
  split
  · exact answer_keepsDir s c _
  · split
    · exact answer_keepsDir s c _
    · split
      · exact answer_keepsDir s c _
      · split
        · exact answer_keepsDir s c _
        · exact ((KeepsDir.refl s).andDir (by simp)).settle low

theorem runDiscover_keepsDir (low : LowLines) (c : Command) : KeepsDir s (s.runDiscover low c) := by
  unfold State.runDiscover
  split
  · exact answer_keepsDir s c _
  · split
    · exact answer_keepsDir s c _
    · split
      · exact answer_keepsDir s c _
      · exact ((KeepsDir.refl s).andDir (by simp)).settle low

@[simp] theorem cancelOn_dir (tag : Byte) (k : Seg) : (s.cancelOn tag k).dir = s.dir := by
  unfold State.cancelOn
  split
  · split
    · split
      · rfl
      · simp
    · rfl
  · rfl

theorem runCancel_keepsDir (c : Command) : KeepsDir s (s.runCancel c) := by
  unfold State.runCancel
  split
  · exact answer_keepsDir s c _
  · split
    · exact ((KeepsDir.refl s).andDir (by simp [State.cancelAll])).answerDone c _
    · exact answer_keepsDir s c _

theorem runPause_keepsDir (c : Command) : KeepsDir s (s.runPause c) := by
  unfold State.runPause
  split
  · exact answer_keepsDir s c _
  · rename_i k _
    split
    · exact answer_keepsDir s c _
    · unfold State.presentPause
      have pending : KeepsDir s ((s.modEngine k fun e => { e with pausePending := true }).addOp (.pause k) c.tag).conclude :=
        ((KeepsDir.refl s).andDir (by simp)).conclude
      split
      · exact ((KeepsDir.refl s).andDir (by simp)).answerDone c _
      · exact pending
      · exact pending
      · exact (KeepsDir.refl s).answerDone c _
      · exact answer_keepsDir s c _

theorem runResume_keepsDir (low : LowLines) (c : Command) : KeepsDir s (s.runResume low c) := by
  unfold State.runResume
  split
  · exact answer_keepsDir s c _
  · split
    · exact answer_keepsDir s c _
    · unfold State.presentResume
      split
      · exact ((KeepsDir.refl s).andDir (modEngine_dir s _ _)).settleWith low _
      · exact ((KeepsDir.refl s).andDir (by simp)).answerDone c _
      · exact ((KeepsDir.refl s).andDir (by simp)).answerDone c _
      · exact (KeepsDir.refl s).answerDone c _
      · exact ((KeepsDir.refl s).andDir (by simp)).conclude

theorem runFlush_keepsDir (low : LowLines) (c : Command) : KeepsDir s (s.runFlush low c) := by
  unfold State.runFlush
  split
  · exact answer_keepsDir s c _
  · exact (purgeAndRetire_keepsDir s _ _).settleWith low _

theorem runPartition_keepsDir (c : Command) : KeepsDir s (s.runPartition c) := by
  unfold State.runPartition
  split
  · exact answer_keepsDir s c _
  · split
    · split
      · exact ((KeepsDir.refl s).andDir (setPool_dir s _)).answerDone c _
      · exact answer_keepsDir s c _
    · exact answer_keepsDir s c _

theorem retime_keepsDir (t : Timing) : KeepsDir s (s.retime t) := by
  refine .of_map ?_ (fun _ r => r.capHoldOff t.holdOff) (fun i => ?_) fun _ r _ => r.became_capHoldOff _
  · simp [State.retime]
  · simp [State.retime, State.recAt]

theorem runSetTiming_keepsDir (c : Command) : KeepsDir s (s.runSetTiming c) := by
  unfold State.runSetTiming
  split
  · exact answer_keepsDir s c _
  · exact (retime_keepsDir s _).answerDone c _

theorem runSetProtect_keepsDir (c : Command) : KeepsDir s (s.runSetProtect c) := by
  unfold State.runSetProtect
  split
  · exact answer_keepsDir s c _
  · split
    · exact answer_keepsDir s c _
    · split
      · exact answer_keepsDir s c _
      · split
        · exact answer_keepsDir s c _
        · exact ((KeepsDir.refl s).andDir (setPu_dir s _)).answerDone c _

theorem runFixProtect_keepsDir (c : Command) : KeepsDir s (s.runFixProtect c) := by
  unfold State.runFixProtect
  split
  · exact answer_keepsDir s c _
  · exact ((KeepsDir.refl s).andDir (setPu_dir s _)).answerDone c _

theorem runSetAlert_keepsDir (c : Command) : KeepsDir s (s.runSetAlert c) := by
  unfold State.runSetAlert
  split
  · exact answer_keepsDir s c _
  · exact ((KeepsDir.refl s).andDir (setAu_dir s _)).answerDone c _

theorem runChanges_keepsDir (c : Command) : KeepsDir s (s.runChanges c) :=
  ((KeepsDir.refl s).andDir (setAu_dir s _)).answerDone c _

end Sys2Proof.Machine
end

section
namespace Sys2Proof.Machine

variable (s : State)

/-! ### Restarts (R27, R93, R171) -/

@[simp] theorem defaultSettings_dir : s.defaultSettings.dir = s.dir := rfl

theorem restartPool_keepsDir (level2 : Bool) : KeepsDir s (s.restartPool level2) := by
  unfold State.restartPool
  exact ((KeepsDir.refl s).andDir (setPool_dir s _)).trans (undeliveredClaims_keepsDir _ _)

theorem restartDir_recAt (level2 : Bool) (i : Slot) : (s.restartDir level2).recAt i =
    if s.survives level2 i then (s.recAt i).map (Record.restart s.hm.holdOff) else none := by
  simp only [State.restartDir, State.recAt, setDir_dir, Vector.getElem_ofFn, Fin.eta]

theorem restartDir_lookupAlias (level2 : Bool) (a : Addr) : (s.restartDir level2).lookupAlias a =
    (s.lookupAlias a).filter fun i => s.survives level2 i := by
  simp only [State.restartDir, State.lookupAlias, setDir_dir, getElem_mapEach]

/-- The records that outlast a restart stay at their places, and the index names them alone (R13, R27). -/
theorem restartDir_keepsDir (level2 : Bool) : KeepsDir s (s.restartDir level2) := by
  have kept : ∀ i q, (s.restartDir level2).recAt i = some q ↔
      s.survives level2 i = true ∧ ∃ r, s.recAt i = some r ∧ r.restart s.hm.holdOff = q := fun i q => by
    rw [restartDir_recAt]
    split <;> simp_all
  refine ⟨fun h i q hq => ?_, fun h i j q p hq hp hij => ?_, fun h a i => ?_⟩
  · obtain ⟨-, r, hr, rfl⟩ := (kept i q).mp hq
    exact (r.became_restart _).2.2.2 (h i r hr)
  · obtain ⟨-, r, hr, rfl⟩ := (kept i q).mp hq
    obtain ⟨-, r', hr', rfl⟩ := (kept j p).mp hp
    exact h i j r r' hr hr' hij
  · rw [restartDir_lookupAlias, Option.filter_eq_some_iff, h a i]
    constructor
    · rintro ⟨⟨r, hr, ha⟩, hs⟩
      exact ⟨_, (kept i _).mpr ⟨hs, r, hr, rfl⟩, ha⟩
    · rintro ⟨q, hq, ha⟩
      obtain ⟨hs, r, hr, rfl⟩ := (kept i q).mp hq
      exact ⟨⟨r, hr, ha⟩, hs⟩

theorem restartBlocks_keepsDir (level2 : Bool) : KeepsDir s (s.restartBlocks level2) := by
  have start : KeepsDir s (if level2 then s.defaultSettings else s) := by
    split
    · exact .of_dir rfl
    · exact .refl s
  exact ((start.trans (restartPool_keepsDir _ level2)).trans (restartDir_keepsDir _ level2)).andDir rfl

theorem takeRestart_keepsDir (level2 : Bool) (low : LowLines) : KeepsDir s (s.takeRestart level2 low) :=
  ((restartBlocks_keepsDir s level2).trans (requestProbes_keepsDir _ _)).settle low

theorem runRestart_keepsDir (bytes : List Byte) (low : LowLines) : KeepsDir s (s.runRestart bytes low) := by
  unfold State.runRestart
  split
  · exact ((KeepsDir.refl s).andDir (setMp_dir s _)).trans (takeRestart_keepsDir _ _ low)
  · exact .of_dir rfl

theorem runPush_dir (bytes : List Byte) : (s.runPush bytes).dir = s.dir := by
  unfold State.runPush
  split <;> rfl

theorem runPop_dir (clocks : Nat) (e : Bool) : (s.runPop clocks e).dir = s.dir := by
  unfold State.runPop
  split
  · split
    · rfl
    · split <;> rfl
  · rfl

/-! ### Every event keeps the laws of the records and of the directory -/

theorem exec_keepsDir (c : Instr) (t : State) (h : exec c s = .next t) : KeepsDir s t := by
  cases c with
  | addressEvent a d low =>
    cases h
    refine .live s (KeepsDir.settle (KeepsDir.andDir ?_ (resolve_dir _ a d)) low)
    split
    · exact .refl s
    · exact (closeForRestart_keepsDir s false).trans (arbitrateAll_keepsDir _ low)
  | repeatedStart cut next low =>
    cases h
    refine .live s ?_
    dsimp only
    split
    · exact (((closeForRestart_keepsDir s cut).trans (arbitrateAll_keepsDir _ low)).andDir (resolve_dir ..)).settle low
    · exact (closeForRestart_keepsDir s cut).settle low
  | stopCondition low => cases h; exact .live s ((closeForStop_keepsDir s).settle low)
  | writeEvent b => cases h; exact .live s (((KeepsDir.refl s).andDir (takeByte_dir s b)).conclude)
  | masterReadAnswer ack => cases h; exact .live s (((KeepsDir.refl s).andDir (takeReadAnswer_dir s ack)).conclude)
  | targetAddressAnswer k ack => cases h; exact .live s (addressAnswer_keepsDir s k ack).conclude
  | targetByteAnswer k ack => cases h; exact .live s (((KeepsDir.refl s).andDir (byteAnswer_dir s k ack)).conclude)
  | readByteArrives k b => cases h; exact .live s (((KeepsDir.refl s).andDir (byteArrives_dir s k b)).conclude)
  | holdLimitExpiry => cases h; exact .live s (((KeepsDir.refl s).andDir (holdExpiry_dir s)).conclude)
  | forwardEnd k low => cases h; exact .live s (endForward_keepsDir s k low)
  | deliveryEnd k o low => cases h; exact .live s (endDelivery_keepsDir s k o low)
  | probeEnd k answer low => cases h; exact .live s (endProbe_keepsDir s k answer low)
  | discoveryProbeEnd k found low => cases h; exact .live s (endDiscoveryProbe_keepsDir s k found low)
  | stall k clock => exact stall_keepsDir s k clock t h
  | busFault k => cases h; exact .live s (takeFault_keepsDir s k).conclude
  | recoveryAttemptSucceeds k low =>
    cases h
    split
    · exact (attemptSucceeds_keepsDir s k).settle low
    · exact .refl s
  | recoveryAttemptFails k =>
    cases h
    split
    · exact (attemptFails_keepsDir s k).conclude
    · exact .refl s
  | attemptTimerExpiry k =>
    cases h
    split
    · exact .of_dir (modEngine_dir s k _)
    · exact .refl s
  | closingEnd k low =>
    cases h
    split
    · exact ((KeepsDir.refl s).releaseBus k).settle low
    · exact .refl s
  | surveyTimerExpiry low => cases h; exact .timed s ((surveyPass_keepsDir s).settle low)
  | idleTimerExpiry =>
    cases h
    refine .timed s ?_
    split
    · exact .of_dir (setHm_dir s _)
    · exact .refl s
  | stepTimerExpiry low =>
    cases h
    exact .timed s ((((KeepsDir.refl s).andDir (setHm_dir s _)).trans (holdOffSteps_keepsDir _ _)).settle low)
  | secondTimerExpiry =>
    cases h
    exact .timed s ((((KeepsDir.refl s).andDir (setHm_dir s _)).trans (absenceSeconds_keepsDir _ _)).conclude)
  | lookup => cases h; exact .taking s fun c u => runLookup_keepsDir u c
  | bind low => cases h; exact .taking s fun c u => runBind_keepsDir u low c
  | edit => cases h; exact .taking s fun c u => runEdit_keepsDir u c
  | rebind low => cases h; exact .taking s fun c u => runRebind_keepsDir u low c
  | retire => cases h; exact .taking s fun c u => runRetire_keepsDir u c
  | clearCounts => cases h; exact .taking s fun c u => runClearCounts_keepsDir u c
  | probe low => cases h; exact .taking s fun c u => runProbe_keepsDir u low c
  | discover low => cases h; exact .taking s fun c u => runDiscover_keepsDir u low c
  | cancel => cases h; exact .taking s fun c u => runCancel_keepsDir u c
  | pause => cases h; exact .taking s fun c u => runPause_keepsDir u c
  | resume low => cases h; exact .taking s fun c u => runResume_keepsDir u low c
  | flush low => cases h; exact .taking s fun c u => runFlush_keepsDir u low c
  | partition => cases h; exact .taking s fun c u => runPartition_keepsDir u c
  | setTiming => cases h; exact .taking s fun c u => runSetTiming_keepsDir u c
  | setProtect => cases h; exact .taking s fun c u => runSetProtect_keepsDir u c
  | fixProtect => cases h; exact .taking s fun c u => runFixProtect_keepsDir u c
  | setAlert => cases h; exact .taking s fun c u => runSetAlert_keepsDir u c
  | changes => cases h; exact .taking s fun c u => runChanges_keepsDir u c
  | status c => cases h; exact .frame s (.of_dir (setMp_dir s _))
  | writeEnable => cases h; exact .frame s (.of_dir (setMp_dir s _))
  | writeDisable => cases h; exact .frame s (.of_dir (setMp_dir s _))
  | push bytes => cases h; exact .frame s (.of_dir (runPush_dir s bytes))
  | pop clocks e => cases h; exact .frame s (.of_dir (runPop_dir s clocks e))
  | restartEnable => cases h; exact .frame s (.of_dir (setMp_dir s _))
  | restart bytes low => cases h; exact .frame s (runRestart_keepsDir s bytes low)
  | ackRestart => cases h; exact .frame s (.of_dir rfl)
  | unknownFrame code =>
    cases h
    split
    · exact .frame s (.of_dir (setMp_dir s _))
    · exact .refl s
  | partialFrame bits =>
    cases h
    split
    · exact .frame s (.of_dir (setMp_dir s _))
    · exact .refl s
  | emptyFrame => cases h; exact .frame s (.refl s)
  | fullReset => cases h; exact .of_empty s reset_recAt reset_lookupAlias
  | protChange high => cases h; exact .of_dir rfl
  | fullResetEnd mcs =>
    cases h
    split
    · exact .of_dir rfl
    · exact .refl s

/-- One step, a command or one ms, keeps the laws of the records and of the directory. -/
theorem step_keepsDir (t : State) (h : step s = .next t) : KeepsDir s t := by
  unfold step at h
  split at h
  · cases h
    exact .timed s (.of_dir rfl)
  · rename_i c rest _
    exact KeepsDir.trans (b := { s with pending := rest }) (.of_dir rfl) (exec_keepsDir _ c t h)

/-- Settles O55: every operation leaves each record at its place with its laws, or frees or creates a lawful one. -/
theorem recordsLawfulKept : Obligations.RecordsLawfulKept := by
  unfold Obligations.RecordsLawfulKept
  exact fun s t hs h => (step_keepsDir s t h).lawful hs

/-- Settles O56: records keep their aliases and pairs, but for those created, freed and rebound, which the checks of R15,
R16 and R20 and the `aliasIndex` follow. -/
theorem directoryLawsKept : Obligations.DirectoryLawsKept := by
  unfold Obligations.DirectoryLawsKept
  exact fun s t hu hi h => ⟨(step_keepsDir s t h).unique hu, (step_keepsDir s t h).index hi⟩

end Sys2Proof.Machine
end

section
namespace Sys2Proof.Machine

variable (s : State)

/-! ### Commands that DC takes (R130) -/

/-- DC takes the command at the head of the queue. -/
theorem taking_of_queues {kind : CmdKind} {tag : Byte} {args : List Byte} {rest : List Command}
    (h : s.queues kind tag args rest) (f : Command → State → State) :
    s.taking kind f = f ⟨kind, tag, args⟩ (s.taken rest) := by
  simp only [State.taking, show s.mp.commands = _ from h, if_true]
  rfl

@[simp] theorem taken_recAt (rest : List Command) (i : Slot) : (s.taken rest).recAt i = s.recAt i := rfl

@[simp] theorem taken_engine (rest : List Command) (k : Seg) : (s.taken rest).engine k = s.engine k := rfl

@[simp] theorem taken_isProtected (rest : List Command) (i : Slot) :
    (s.taken rest).isProtected i = s.isProtected i := rfl

/-! ### BIND (R15, R137) -/

/-- The slot with the lowest number of those FREE and unprotected (R15). -/
theorem lowestFree_eq_some_iff (i : Slot) : s.lowestFree = some i ↔
    (s.recAt i = none ∧ s.isProtected i = false) ∧ ∀ j, j < i → ¬(s.recAt j = none ∧ s.isProtected j = false) := by
  unfold State.lowestFree allSlots
  rw [List.find?_eq_some_iff_getElem]
  constructor
  · rintro ⟨hi, n, hn, e, before⟩
    have hval : n = i.val := by rw [← e]; simp
    refine ⟨by simpa using hi, fun j hj hj' => ?_⟩
    have := before j.val (by rw [hval]; exact hj)
    simp_all
  · rintro ⟨hi, before⟩
    refine ⟨by simpa using hi, i.val, by simp, by simp, fun j hj => ?_⟩
    have := before ⟨j, hj.trans i.isLt⟩ hj
    simp only [List.getElem_finRange, Fin.cast_mk]
    revert this
    generalize s.recAt ⟨j, _⟩ = o
    generalize s.isProtected ⟨j, _⟩ = b
    cases o <;> cases b <;> simp

theorem lowestFree_eq_none_iff : s.lowestFree = none ↔ ∀ i, ¬(s.recAt i = none ∧ s.isProtected i = false) := by
  unfold State.lowestFree
  rw [List.find?_eq_none]
  refine ⟨fun h i => by simpa using h i (mem_allSlots i), fun h i _ => by simpa using h i⟩

/-- A BIND that names a protected slot (R15). -/
def State.bindGuarded (s : State) (f : BindFields) : Prop := ∃ i, f.slot = some i ∧ s.isProtected i = true

theorem bindGuarded_iff (f : BindFields) : (f.slot.any fun i => s.isProtected i) = true ↔ s.bindGuarded f := by
  unfold State.bindGuarded
  cases f.slot <;> simp

/-- DIR's refusals of a BIND claim, one after the other (R15, R137). -/
theorem bindSlot_protected (f : BindFields) (h : s.bindGuarded f) : s.bindSlot f = .error .protectedSlot := by
  unfold State.bindSlot
  rw [if_pos ((bindGuarded_iff s f).mpr h)]

theorem bindSlot_aliasInUse (f : BindFields) (h : ¬s.bindGuarded f) (ha : s.aliasTaken f.aliasAddr = true) :
    s.bindSlot f = .error .aliasInUse := by
  unfold State.bindSlot
  rw [if_neg fun g => h ((bindGuarded_iff s f).mp g), if_pos ha]

theorem bindSlot_targetInUse (f : BindFields) (h : ¬s.bindGuarded f) (ha : ¬s.aliasTaken f.aliasAddr = true)
    (hp : (s.lookupPair f.segment f.target).isSome = true) : s.bindSlot f = .error .targetInUse := by
  unfold State.bindSlot
  rw [if_neg fun g => h ((bindGuarded_iff s f).mp g), if_neg ha, if_pos hp]

/-- Past the checks of the `aliasAddr` and the pair only the slot is left to choose: the one named, or the lowest free one. -/
theorem bindSlot_named (f : BindFields) (i : Slot) (h : ¬s.bindGuarded f) (ha : ¬s.aliasTaken f.aliasAddr = true)
    (hp : ¬(s.lookupPair f.segment f.target).isSome = true) (hi : f.slot = some i) :
    s.bindSlot f = if (s.recAt i).isSome then .error .slotInUse else .ok i := by
  unfold State.bindSlot
  rw [if_neg fun g => h ((bindGuarded_iff s f).mp g), if_neg ha, if_neg hp, hi]

theorem bindSlot_any (f : BindFields) (ha : ¬s.aliasTaken f.aliasAddr = true)
    (hp : ¬(s.lookupPair f.segment f.target).isSome = true) (hn : f.slot = none) :
    s.bindSlot f = s.lowestFree.elim (.error .tableFull) .ok := by
  unfold State.bindSlot
  rw [if_neg (by simp [hn]), if_neg ha, if_neg hp, hn]
  cases s.lowestFree <;> rfl

theorem putRec_same (i : Slot) (r : Record) (h : s.recAt i = some r) : s.putRec i (some r) = s := by
  have : s.dir.slots.set i.val (some r) = s.dir.slots := by
    rw [← h]
    exact Vector.set_getElem_self _
  simp [State.putRec, State.setDir, this]

theorem createRec_recAt_self (i : Slot) (r : Record) : (s.createRec i r).recAt i = some r := by
  rw [createRec_recAt, if_pos rfl]

/-- A segment that has not failed takes the request of a probe into its queue (R56, R96). -/
theorem requestProbe_eq (i : Slot) (r : Record) (hr : s.recAt i = some r) (hk : (s.engine r.segment).state ≠ .failed) :
    s.requestProbe i = s.modEngine r.segment (Engine.enqueueProbe i) := by
  unfold State.requestProbe
  rw [hr]
  exact if_neg hk

/-- A FAILED segment refuses the request; only a PROBE noted on the slot, and a QUARANTINED record's hold-off, see it
(R98, R145). -/
theorem requestProbe_failed (i : Slot) (r : Record) (hr : s.recAt i = some r)
    (hk : (s.engine r.segment).state = .failed) (hq : r.state ≠ .quarantined) :
    s.requestProbe i = s.answerQueuedProbes i .segmentFault := by
  unfold State.requestProbe
  rw [hr]
  dsimp only
  rw [if_pos hk]
  unfold State.refuseProbe State.modRec
  rw [hr]
  dsimp only
  rw [if_neg hq, putRec_same s i r hr]

theorem answerQueuedProbes_eq (i : Slot) (code : ResultCode) : s.answerQueuedProbes i code =
    s.setDc { ops := s.dc.ops.map fun op =>
        if op.work = .probe i false ∧ op.answer = none
          then { op with answer := some ⟨.probe, op.tag, code, []⟩ } else op } := by
  unfold State.answerQueuedProbes State.settleOps
  congr 2
  refine List.map_congr_left fun op _ => ?_
  obtain ⟨w, tag, answer⟩ := op
  cases answer with
  | some a => simp
  | none =>
    by_cases hw : w = .probe i false
    · simp [hw, plainResponse]
    · simp [hw]

/-- BIND, once its fields decode (R137). -/
theorem runBind_refused (low : LowLines) (c : Command) (f : BindFields) (code : ResultCode)
    (hf : decodeBind c.args = some f) (h : s.bindSlot f = .error code) : s.runBind low c = s.answer c code := by
  simp only [State.runBind, hf, h]

theorem runBind_created (low : LowLines) (c : Command) (f : BindFields) (i : Slot)
    (hf : decodeBind c.args = some f) (h : s.bindSlot f = .ok i) :
    s.runBind low c = ((s.createRec i (boundRecord f)).requestProbe i).settleDone low c [oneByte i.val] := by
  simp only [State.runBind, hf, h]

/-- Settles O23: the checks one after the other, then the record created and its probe asked for on its segment. -/
theorem bindCreatesAPendingRecord : Obligations.BindCreatesAPendingRecord := by
  unfold Obligations.BindCreatesAPendingRecord
  intro s low tag args rest hq refused
  have run : exec (.bind low) s = .next ((s.taken rest).runBind low ⟨.bind, tag, args⟩) :=
    congrArg _ (taking_of_queues s hq _)
  refine ⟨fun hn => ?_, fun f hf => ?_⟩
  · rw [run]
    simp only [State.runBind, hn]
    rfl
  intro guarded aliasUsed pairUsed usable created
  have refuse : ∀ code, (s.taken rest).bindSlot f = .error code → exec (.bind low) s = refused code := fun code h => by
    rw [run, runBind_refused _ low _ f code hf h]
    rfl
  have ha : (s.taken rest).aliasTaken f.aliasAddr = true ↔ aliasUsed := aliasTaken_iff _ _
  have hp : ((s.taken rest).lookupPair f.segment f.target).isSome = true ↔ pairUsed := lookupPair_isSome_iff _ _ _
  have named := fun i (hg : ¬guarded) (h : ¬aliasUsed) (h' : ¬pairUsed) =>
    bindSlot_named (s.taken rest) f i hg (mt ha.mp h) (mt hp.mp h')
  have any := fun (h : ¬aliasUsed) (h' : ¬pairUsed) => bindSlot_any (s.taken rest) f (mt ha.mp h) (mt hp.mp h')
  refine ⟨fun hg => refuse _ (bindSlot_protected _ f hg), fun hg h => refuse _ (bindSlot_aliasInUse _ f hg (ha.mpr h)),
    fun hg h h' => refuse _ (bindSlot_targetInUse _ f hg (mt ha.mp h) (hp.mpr h')),
    fun hg h h' ⟨i, hi, hr⟩ => refuse _ ?_, fun h h' hs hu => refuse _ ?_, fun i h h' hu hi => ?_⟩
  · rw [named i hg h h' hi]
    exact if_pos (Option.isSome_iff_ne_none.mpr hr)
  · rw [any h h' hs, (lowestFree_eq_none_iff (s.taken rest)).mpr hu]
    rfl
  · have chosen : (s.taken rest).bindSlot f = .ok i := by
      rcases hi with hi | ⟨hs, first⟩
      · have unguarded : ¬guarded := fun ⟨j, hj, hpj⟩ => by
          rw [hi] at hj; cases hj; rw [hu.2] at hpj; cases hpj
        rw [named i unguarded h h' hi]
        exact if_neg (by simp [hu.1])
      · rw [any h h' hs, (lowestFree_eq_some_iff (s.taken rest) i).mpr ⟨hu, first⟩]
        rfl
    have record := createRec_recAt_self (s.taken rest) i (boundRecord f)
    have done : ∀ m, ((s.taken rest).createRec i (boundRecord f)).requestProbe i = m →
        exec (.bind low) s = .next (State.settleWith m low ⟨.bind, tag, .done, [oneByte i.val]⟩) := fun m hm => by
      rw [run, runBind_created _ low _ f i hf chosen, hm]
      rfl
    refine ⟨fun hk => done _ ?_, fun hk => done _ ?_⟩
    · rw [requestProbe_eq _ i _ record hk]
      rfl
    · rw [requestProbe_failed _ i _ record hk (by simp [boundRecord]), answerQueuedProbes_eq]
      rfl

end Sys2Proof.Machine
end

section
namespace Sys2Proof.Machine

variable (s : State)

/-! ### The records after a restart (R27, R28, R93) -/

/-- The hold-off setting in force once the restart has taken effect (R117, R171). -/
def State.restartHoldOff (s : State) (level2 : Bool) : Nat := if level2 then Config.defaultHoldOff else s.hm.holdOff

/-- What a restart leaves in a slot: nothing, or the record that outlasts it, one undelivered claim more for each of its
posted entries (R19, R27, R93). -/
def State.afterRestart (s : State) (level2 : Bool) (i : Slot) : Option Record :=
  if s.survives level2 i then (s.recAt i).map fun r =>
    { r.restart (s.restartHoldOff level2) with undelivered := moreLost r.undelivered (s.posted i).length }
  else none

/-- The entries of a slot whose record outlasts the restart are all counted. -/
theorem restart_entries (level2 : Bool) (i : Slot) (h : s.survives level2 i = true) :
    ((((s.pool.segs.toList.map fun p => p.queue).flatten.filter fun e => s.survives level2 e.slot).filter
      fun e => e.slot == i)) = s.posted i := by
  rw [List.filter_filter]
  have : (fun e : Entry => (e.slot == i) && s.survives level2 e.slot) = fun e => e.slot == i := by
    funext e
    by_cases he : e.slot = i
    · simp [he, h]
    · simp [he]
  rw [this]
  simp [State.posted, allSegs, Quad.toList, State.poolSeg, Quad.get]

theorem restartPool_recAt (level2 : Bool) (i : Slot) (h : s.survives level2 i = true) :
    (s.restartPool level2).recAt i = (s.recAt i).map fun r =>
      { r with undelivered := moreLost r.undelivered (s.posted i).length } := by
  unfold State.restartPool
  dsimp only
  rw [undeliveredClaims_recAt, restart_entries s level2 i h, recAt_setPool]

theorem survives_of_state {s t : State} {i : Slot} (level2 : Bool)
    (h : (t.recAt i).map Record.state = (s.recAt i).map Record.state) (hp : t.isProtected i = s.isProtected i) :
    t.survives level2 i = s.survives level2 i := by
  unfold State.survives
  rw [hp]
  cases ht : t.recAt i <;> cases hs : s.recAt i <;> simp_all

theorem restartPool_survives (level2 : Bool) (i : Slot) :
    (s.restartPool level2).survives level2 i = s.survives level2 i := by
  refine survives_of_state level2 ?_ (isProtected_of_pu (by simp [State.restartPool]) i)
  unfold State.restartPool
  dsimp only
  rw [undeliveredClaims_recAt, recAt_setPool, Option.map_map]
  rfl

theorem restartBlocks_recAt (level2 : Bool) (i : Slot) :
    (s.restartBlocks level2).recAt i = s.afterRestart level2 i := by
  have base : ∀ u : State, (∀ j, u.recAt j = s.recAt j) → (∀ j, u.isProtected j = s.isProtected j) →
      u.pool.segs.map (fun p => p.queue) = s.pool.segs.map (fun p => p.queue) →
      u.hm.holdOff = s.restartHoldOff level2 →
      ((u.restartPool level2).restartDir level2).recAt i = s.afterRestart level2 i := fun u hr hp hq hh => by
    have hs : u.survives level2 i = s.survives level2 i := survives_of_state level2 (by rw [hr]) (hp i)
    have posted : u.posted i = s.posted i := by
      have queue : ∀ k, (u.poolSeg k).queue = (s.poolSeg k).queue := fun k => by
        have := congrArg (fun q => q.get k) hq
        simpa [State.poolSeg] using this
      simp only [State.posted, queue]
    rw [restartDir_recAt, restartPool_survives, State.afterRestart, hs]
    split
    · rename_i h
      rw [restartPool_recAt u level2 i (hs.trans h), hr, posted, Option.map_map,
        show (u.restartPool level2).hm = u.hm by simp [State.restartPool], hh]
      rfl
    · rfl
  unfold State.restartBlocks
  cases level2 with
  | false => exact base s (fun _ => rfl) (fun _ => rfl) rfl rfl
  | true =>
    exact base s.defaultSettings (fun _ => rfl) (fun _ => rfl)
      (Quad.ext_get fun k => by simp [State.defaultSettings]) rfl

/-! ### The first choices after a restart (R54, R96, R116) -/

/-- The work the arbiter finds first in a probe queue: a queued slot whose record is not RETIRING (R54). -/
theorem firstProbe_some {es : List Slot} {i : Slot} {r : Record} (h : s.firstProbe es = some (i, r)) :
    i ∈ es ∧ s.recAt i = some r ∧ r.state ≠ .retiring := by
  induction es with
  | nil => cases h
  | cons j rest ih =>
    unfold State.firstProbe at h
    split at h
    · rename_i q hq
      split at h
      · obtain ⟨hm, hr⟩ := ih h
        exact ⟨List.mem_cons_of_mem _ hm, hr⟩
      · rename_i hs
        cases h
        exact ⟨List.mem_cons_self, hq, hs⟩
    · obtain ⟨hm, hr⟩ := ih h
      exact ⟨List.mem_cons_of_mem _ hm, hr⟩

/-- No forward or delivery waits anywhere, and every queued probe is of a PENDING record; no marker but that of such a
probe stands. -/
structure State.OnlyFirstProbes (s : State) : Prop where
  request : ∀ k, (s.engine k).request = none
  queue : ∀ k, (s.poolSeg k).queue = []
  pending : ∀ k, ∀ i ∈ (s.engine k).probeQueue, ∀ r, s.recAt i = some r → r.state = .pending
  marker : ∀ i r, s.recAt i = some r → r.marker = .none ∨ (r.marker = .probe ∧ r.state = .pending)

/-- With no forward and no delivery to take, the arbiter takes a probe or nothing. -/
theorem State.OnlyFirstProbes.chooseWork {s : State} (h : s.OnlyFirstProbes) (k : Seg) {w : Work}
    (hw : s.chooseWork k = some w) : ∃ i r, w = .probe i r ∧ i ∈ (s.engine k).probeQueue ∧ s.recAt i = some r := by
  unfold State.chooseWork State.availableForward State.availableEntry at hw
  rw [h.request k, h.queue k] at hw
  dsimp only at hw
  split at hw
  · rename_i i r hp
    cases hw
    obtain ⟨hm, hr, -⟩ := firstProbe_some s hp
    exact ⟨i, r, rfl, hm, hr⟩
  · cases hw

theorem State.OnlyFirstProbes.of_eng {s t : State} (h : s.OnlyFirstProbes) (hr : ∀ i, t.recAt i = s.recAt i)
    (hp : t.pool = s.pool) (he : ∀ k, (t.engine k).request = (s.engine k).request ∧
      (t.engine k).probeQueue = (s.engine k).probeQueue) : t.OnlyFirstProbes := by
  refine ⟨fun k => (he k).1.trans (h.request k), fun k => ?_, fun k i hi r hrec => ?_, fun i r hrec => ?_⟩
  · rw [poolSeg_of_pool hp]; exact h.queue k
  · rw [(he k).2] at hi
    exact h.pending k i hi r (hr i ▸ hrec)
  · exact h.marker i r (hr i ▸ hrec)

/-- The end of a discovery gives up its context and leaves the engine else (R125). -/
theorem endDiscovery_engine (k j : Seg) (code : ResultCode) : (s.endDiscovery k code).engine j =
    if j = k then { s.engine k with discovery := none } else s.engine j := by
  unfold State.endDiscovery
  split
  · rename_i h
    split
    · rename_i e; rw [e, ← h]
    · rfl
  · rw [engine_settleOps, engine_modEngine]

/-- Offering a discovery its next address leaves the engine's request and probe queue (R54). -/
theorem offerDiscovery_keeps (k j : Seg) (low : LowLines) :
    ((s.offerDiscovery k low).engine j).request = (s.engine j).request ∧
    ((s.offerDiscovery k low).engine j).probeQueue = (s.engine j).probeQueue := by
  by_cases hj : j = k
  · subst hj
    unfold State.offerDiscovery
    split
    · exact ⟨rfl, rfl⟩
    · dsimp only
      split
      · simp [endDiscovery_engine]
      · split <;> simp [State.enterRecovering, State.putOnBus, Engine.toRecovering]
  · rw [offerDiscovery_engine s hj low]
    exact ⟨rfl, rfl⟩

/-- A choice keeps all this: it marks the record of the probe it takes. -/
theorem State.OnlyFirstProbes.arbitrate {s : State} (h : s.OnlyFirstProbes) (low : LowLines) (k : Seg) :
    (s.arbitrate low k).OnlyFirstProbes := by
  unfold State.arbitrate
  split
  · split
    · rename_i w hw
      obtain ⟨i, r, rfl, hi, hr⟩ := h.chooseWork k hw
      split
      · refine h.of_eng (fun j => recAt_of_dir (by simp) j) (by simp) fun j => ?_
        simp only [State.enterRecovering, engine_modEngine]
        split
        · rename_i e; subst e; exact ⟨rfl, rfl⟩
        · exact ⟨rfl, rfl⟩
      · have records : ∀ j, ((s.beginWork k (.probe i r)).putOnBus k (Work.probe i r).tx).recAt j =
            if i = j then (s.recAt j).map fun q => { q with marker := .probe } else s.recAt j := fun j => by
          simp only [State.putOnBus, State.beginWork, recAt_modEngine, recAt_modRec, recAt_moveNotes]
          split
          · rename_i e; rw [e]
          · rfl
        have eng : ∀ j, (((s.beginWork k (.probe i r)).putOnBus k (Work.probe i r).tx).engine j).request =
              (s.engine j).request ∧
            ∀ l ∈ (((s.beginWork k (.probe i r)).putOnBus k (Work.probe i r).tx).engine j).probeQueue,
              l ∈ (s.engine j).probeQueue := fun j => by
          simp only [State.putOnBus, State.beginWork, engine_modEngine, engine_modRec, engine_moveNotes]
          split
          · rename_i e; subst e; exact ⟨rfl, fun l hl => List.mem_of_mem_erase hl⟩
          · exact ⟨rfl, fun l hl => hl⟩
        refine ⟨fun j => (eng j).1.trans (h.request j), fun j => ?_, fun j l hl q hq => ?_, fun l q hq => ?_⟩
        · rw [poolSeg_of_pool (s := s) (by simp)]; exact h.queue j
        · rw [records] at hq
          split at hq
          · obtain ⟨q', hq', rfl⟩ := Option.map_eq_some_iff.mp hq
            exact h.pending j l ((eng j).2 l hl) q' hq'
          · exact h.pending j l ((eng j).2 l hl) q hq
        · rw [records] at hq
          split at hq
          · rename_i e
            subst e
            obtain ⟨q', hq', rfl⟩ := Option.map_eq_some_iff.mp hq
            exact .inr ⟨rfl, h.pending k i hi q' hq'⟩
          · exact h.marker l q hq
    · exact h.of_eng (fun j => recAt_of_dir (by simp) j) (by simp) fun j => offerDiscovery_keeps s k j low
  · exact h

@[simp] theorem conclude_recAt (i : Slot) : s.conclude.recAt i = s.recAt i := recAt_of_dir (conclude_frame s).2.1 i

@[simp] theorem conclude_engine (k : Seg) : s.conclude.engine k = s.engine k :=
  engine_of_eng (conclude_frame s).2.2.1 k

@[simp] theorem conclude_poolSeg (k : Seg) : s.conclude.poolSeg k = s.poolSeg k :=
  poolSeg_of_pool (conclude_frame s).2.2.2.1 k

theorem State.OnlyFirstProbes.settle {s : State} (h : s.OnlyFirstProbes) (low : LowLines) :
    (s.settle low).OnlyFirstProbes :=
  have all : (s.arbitrateAll low).OnlyFirstProbes :=
    (((h.arbitrate low 0).arbitrate low 1).arbitrate low 2).arbitrate low 3
  all.of_eng (conclude_recAt _) (conclude_frame _).2.2.2.1 fun k => by
    rw [State.settle, conclude_engine]; exact ⟨rfl, rfl⟩

/-! ### Restarts and the probes they ask for -/

theorem pendingSlots_mem (p : Record → Bool) (i : Slot) (h : i ∈ s.pendingSlots p) :
    ∃ r, s.recAt i = some r ∧ r.state = .pending ∧ p r = true := by
  unfold State.pendingSlots at h
  have hp := (List.mem_filter.mp h).2
  split at hp
  · rename_i r hr
    simp only [Bool.and_eq_true, beq_iff_eq] at hp
    exact ⟨r, hr, hp⟩
  · cases hp

/-- Requests for probes of PENDING records on segments that have not failed only fill the probe queues. -/
theorem requestProbes_onlyFirstProbes (es : List Slot) (h : s.OnlyFirstProbes)
    (hs : ∀ k, (s.engine k).state ≠ .failed) (hes : ∀ i ∈ es, ∃ r, s.recAt i = some r ∧ r.state = .pending) :
    (s.requestProbes es).OnlyFirstProbes ∧ (s.requestProbes es).dir = s.dir := by
  induction es generalizing s with
  | nil => exact ⟨h, rfl⟩
  | cons i rest ih =>
    obtain ⟨r, hr, hp⟩ := hes i List.mem_cons_self
    have queued := requestProbe_eq s i r hr (hs r.segment)
    have eng : ∀ j, (s.requestProbe i).engine j =
        if j = r.segment then (s.engine r.segment).enqueueProbe i else s.engine j := fun j => by
      rw [queued, engine_modEngine]
    have dir : (s.requestProbe i).dir = s.dir := by rw [queued]; rfl
    have pool : (s.requestProbe i).pool = s.pool := by simp
    have mem : ∀ j, ∀ l ∈ ((s.requestProbe i).engine j).probeQueue, l = i ∨ l ∈ (s.engine j).probeQueue := by
      intro j l hl
      rw [eng] at hl
      split at hl
      · rename_i e
        subst e
        simp only [Engine.enqueueProbe] at hl
        split at hl
        · exact .inr hl
        · rcases List.mem_append.mp hl with hl | hl
          · exact .inr hl
          · exact .inl (List.mem_singleton.mp hl)
      · exact .inr hl
    have one : (s.requestProbe i).OnlyFirstProbes := by
      refine ⟨fun j => ?_, fun j => ?_, fun j l hl q hq => ?_, fun l q hq => h.marker l q (recAt_of_dir dir l ▸ hq)⟩
      · rw [eng]
        split
        · rename_i e; subst e; exact h.request _
        · exact h.request j
      · rw [poolSeg_of_pool pool]; exact h.queue j
      · rw [recAt_of_dir dir] at hq
        rcases mem j l hl with rfl | hl
        · rw [hr] at hq; cases hq; exact hp
        · exact h.pending j l hl q hq
    have states : ∀ j, ((s.requestProbe i).engine j).state ≠ .failed := fun j => by
      rw [eng]
      split
      · rename_i e; subst e; exact hs _
      · exact hs j
    obtain ⟨all, same⟩ := ih (s.requestProbe i) one states fun l hl => by
      rw [recAt_of_dir dir]
      exact hes l (List.mem_cons_of_mem _ hl)
    exact ⟨all, same.trans dir⟩

/-- Each engine is closed down, its transaction with it (R76). -/
theorem restartBlocks_engine (level2 : Bool) (k : Seg) : ∃ e : Engine,
    (s.restartBlocks level2).engine k = e.restart ∧ e.tx = (s.engine k).tx := by
  refine ⟨_, Quad.get_map _ Engine.restart k, ?_⟩
  cases level2 with
  | false => simp [State.restartDir, State.restartPool, State.engine]
  | true => simp [State.restartDir, State.restartPool, State.defaultSettings, State.engine]

theorem restartBlocks_poolSeg (level2 : Bool) (k : Seg) :
    ((s.restartBlocks level2).poolSeg k).queue = [] ∧ ((s.restartBlocks level2).poolSeg k).purgeMark = false := by
  unfold State.restartBlocks
  cases level2 <;> simp [State.poolSeg, State.restartDir, State.restartPool]

theorem restart_notFailed (e : Engine) : e.restart.state ≠ .failed := by
  unfold Engine.restart
  dsimp only
  split <;> nofun

/-- Right after a restart no marker stands and no work waits. -/
theorem restartBlocks_onlyFirstProbes (level2 : Bool) : (s.restartBlocks level2).OnlyFirstProbes := by
  refine ⟨fun k => ?_, fun k => (restartBlocks_poolSeg s level2 k).1, fun k i hi => ?_, fun i r hr => .inl ?_⟩
  · obtain ⟨e, he, -⟩ := restartBlocks_engine s level2 k
    rw [he]; rfl
  · obtain ⟨e, he, -⟩ := restartBlocks_engine s level2 k
    rw [he] at hi
    cases hi
  · rw [restartBlocks_recAt] at hr
    unfold State.afterRestart at hr
    split at hr
    · obtain ⟨q, -, rfl⟩ := Option.map_eq_some_iff.mp hr
      rfl
    · cases hr

/-- The records after a restart, its first choices included: what outlasts it, and the marker of a first probe (R27). -/
theorem takeRestart_recAt (level2 : Bool) (low : LowLines) (i : Slot) :
    ((s.takeRestart level2 low).recAt i).map Record.unmarked = (s.afterRestart level2 i).map Record.unmarked ∧
    ∀ q, (s.takeRestart level2 low).recAt i = some q → q.marker = .none ∨ (q.marker = .probe ∧ q.state = .pending) := by
  obtain ⟨asked, dir⟩ := requestProbes_onlyFirstProbes (s.restartBlocks level2)
    ((s.restartBlocks level2).pendingSlots fun _ => true) (restartBlocks_onlyFirstProbes s level2)
    (fun k => by obtain ⟨e, he, -⟩ := restartBlocks_engine s level2 k; rw [he]; exact restart_notFailed e)
    fun j hj => by obtain ⟨r, hr, hp, -⟩ := pendingSlots_mem _ _ j hj; exact ⟨r, hr, hp⟩
  refine ⟨?_, (asked.settle low).marker i⟩
  unfold State.takeRestart
  dsimp only
  rw [State.settle, conclude_recAt, (arbitrateAll_onlyArbiters _ low).1 i, recAt_of_dir dir,
    restartBlocks_recAt]

/-- A RESTART that is enabled and names a level is taken (R170). -/
theorem exec_restart_taken (level : Byte) (low : LowLines) (hs : s.framesTaken) (he : s.mp.restartEnable = true)
    (level2 : Bool) (hl : restartLevel [level] = some level2) :
    exec (.restart [level] low) s = .next ((s.setMp { s.mp with mdo := .zeros }).takeRestart level2 low) := by
  obtain ⟨hr, hw⟩ := hs
  simp only [exec, execRestart, State.frame, hr, hw, State.runRestart, he, hl]
  rfl

/-- What outlasts a restart: the image of a record that is not RETIRING and is protected at level 2 (R27, R28). -/
theorem afterRestart_kept (level2 : Bool) (i : Slot) (r : Record) (hr : s.recAt i = some r) (hs : r.state ≠ .retiring)
    (hp : level2 = true → s.isProtected i = true) : s.afterRestart level2 i =
      some { r.restart (s.restartHoldOff level2) with undelivered := moreLost r.undelivered (s.posted i).length } := by
  have survives : s.survives level2 i = true := by
    simp only [State.survives, hr, Bool.and_eq_true, bne_iff_ne, Bool.or_eq_true, Bool.not_eq_true']
    refine ⟨hs, ?_⟩
    cases level2 with
    | false => exact .inl rfl
    | true => exact .inr (hp rfl)
  unfold State.afterRestart
  rw [if_pos survives, hr]
  rfl

theorem afterRestart_freed (level2 : Bool) (i : Slot)
    (h : ∀ r, s.recAt i = some r → r.state = .retiring ∨ (level2 = true ∧ s.isProtected i = false)) :
    s.afterRestart level2 i = none := by
  unfold State.afterRestart
  cases hr : s.recAt i with
  | none => simp
  | some r =>
    refine if_neg ?_
    simp only [State.survives, hr, Bool.and_eq_true, bne_iff_ne, Bool.or_eq_true, Bool.not_eq_true']
    rcases h r hr with hs | ⟨hl, hp⟩
    · exact fun g => g.1 hs
    · simp [hl, hp]

/-- Settles O15: DIR keeps or frees each slot as R27 says, and only the choices after the restart set a marker. -/
theorem restartKeepsRecords : Obligations.RestartKeepsRecords := by
  unfold Obligations.RestartKeepsRecords
  intro level low s t hs he hlevel ht i
  obtain ⟨level2, hl, h2⟩ : ∃ level2, restartLevel [level] = some level2 ∧
      level = if level2 then 0x02 else 0x01 := by
    rcases hlevel with rfl | rfl
    · exact ⟨false, rfl, rfl⟩
    · exact ⟨true, rfl, rfl⟩
  obtain ⟨same, marker⟩ := takeRestart_recAt (s.setMp { s.mp with mdo := .zeros }) level2 low i
  rw [exec_restart_taken s level low hs he level2 hl] at ht
  have ht := Host.Outcome.next.inj ht
  rw [ht] at same marker
  refine ⟨fun r hr hret hkept => ?_, fun hfree => ?_⟩
  · have protected_ : level2 = true → s.isProtected i = true := fun e => by
      subst e; subst h2
      exact hkept.resolve_left (by decide)
    rw [afterRestart_kept (s.setMp { s.mp with mdo := .zeros }) level2 i r hr hret protected_] at same
    obtain ⟨q, hq, e⟩ := Option.map_eq_some_iff.mp same
    have hq' : q = { r.restart (s.restartHoldOff level2) with
        undelivered := moreLost r.undelivered (s.posted i).length, marker := q.marker } := Record.eq_of_unmarked e
    have state : q.state = r.state := by rw [hq']; rfl
    refine ⟨q, hq, ?_, ?_⟩
    · rw [← state]; exact marker q hq
    · rw [hq']
      cases level2 <;> subst h2 <;> rfl
  · rw [afterRestart_freed (s.setMp { s.mp with mdo := .zeros }) level2 i fun r hr => ?_] at same
    · simpa using same
    · refine (hfree r hr).imp_right fun ⟨hlv, hp⟩ => ⟨?_, hp⟩
      cases level2
      · subst h2; exact absurd hlv (by decide)
      · rfl

end Sys2Proof.Machine
end

section
namespace Sys2Proof.Machine

variable (s : State)

/-! ### What the claims on records leave alone -/

/-- From `s` to `m` the settings, MP, PU, HM, the alert lines' configuration, the segment faults and the reservation are
the same, and no slot has left the changed-slot set. -/
structure KeepsRest (s m : State) : Prop where
  holdLimit : m.up.holdLimit = s.up.holdLimit
  catchAll : m.up.catchAll = s.up.catchAll
  stallLimit : m.stallLimit = s.stallLimit
  hm : m.hm = s.hm
  mp : m.mp = s.mp
  pu : m.pu = s.pu
  lines : m.au.lines = s.au.lines
  faults : m.au.faults = s.au.faults
  inReset : m.inReset = s.inReset
  pending : m.pending = s.pending
  reservation : m.pool.reservation = s.pool.reservation
  share : ∀ k, (m.poolSeg k).share = (s.poolSeg k).share
  changed : ∀ i : Slot, s.au.changed[i.val] = true → m.au.changed[i.val] = true

theorem KeepsRest.refl : KeepsRest s s :=
  ⟨rfl, rfl, rfl, rfl, rfl, rfl, rfl, rfl, rfl, rfl, rfl, fun _ => rfl, fun _ => id⟩

theorem KeepsRest.trans {a b c : State} (h : KeepsRest a b) (g : KeepsRest b c) : KeepsRest a c :=
  ⟨g.holdLimit.trans h.holdLimit, g.catchAll.trans h.catchAll, g.stallLimit.trans h.stallLimit, g.hm.trans h.hm,
    g.mp.trans h.mp, g.pu.trans h.pu, g.lines.trans h.lines, g.faults.trans h.faults, g.inReset.trans h.inReset,
    g.pending.trans h.pending, g.reservation.trans h.reservation, fun k => (g.share k).trans (h.share k),
    fun i => g.changed i ∘ h.changed i⟩

/-- UP may answer, and records, engines and long operations may change. -/
theorem KeepsRest.of_blocks {s m : State} (hold : m.up.holdLimit = s.up.holdLimit)
    (catchAll : m.up.catchAll = s.up.catchAll) (stall : m.stallLimit = s.stallLimit) (hm : m.hm = s.hm)
    (mp : m.mp = s.mp) (pu : m.pu = s.pu) (au : m.au = s.au) (reset : m.inReset = s.inReset)
    (pending : m.pending = s.pending) (pool : m.pool = s.pool) : KeepsRest s m := by
  refine ⟨hold, catchAll, stall, hm, mp, pu, by rw [au], by rw [au], reset, pending, by rw [pool],
    fun k => by rw [poolSeg_of_pool pool], fun i h => by rwa [au]⟩

theorem putRec_keepsRest (i : Slot) (o : Option Record) : KeepsRest s (s.putRec i o) :=
  .of_blocks rfl rfl rfl rfl rfl rfl rfl rfl rfl rfl

theorem setEng_keepsRest (e : Quad Engine) : KeepsRest s (s.setEng e) :=
  .of_blocks rfl rfl rfl rfl rfl rfl rfl rfl rfl rfl

theorem modEngine_keepsRest (k : Seg) (f : Engine → Engine) : KeepsRest s (s.modEngine k f) := setEng_keepsRest s _

theorem setDir_keepsRest (d : Directory) : KeepsRest s (s.setDir d) :=
  .of_blocks rfl rfl rfl rfl rfl rfl rfl rfl rfl rfl

theorem setDc_keepsRest (d : Controller) : KeepsRest s (s.setDc d) :=
  .of_blocks rfl rfl rfl rfl rfl rfl rfl rfl rfl rfl

theorem settleOps_keepsRest (f : LongOp → Option Response) : KeepsRest s (s.settleOps f) := setDc_keepsRest s _

theorem modRec_keepsRest (i : Slot) (f : Record → Record) : KeepsRest s (s.modRec i f) := by
  unfold State.modRec
  split
  · exact putRec_keepsRest s i _
  · exact .refl s

theorem markChanged_self (i : Slot) : (s.markChanged i).au.changed[i.val] = true := by simp

theorem markChanged_keepsRest (i : Slot) : KeepsRest s (s.markChanged i) := by
  refine ⟨rfl, rfl, rfl, rfl, rfl, rfl, rfl, rfl, rfl, rfl, rfl, fun _ => rfl, fun j h => ?_⟩
  simp only [markChanged_au, Vector.getElem_set]
  split
  · rfl
  · exact h

theorem upNak_keepsRest : KeepsRest s s.upNak := .of_blocks rfl rfl rfl rfl rfl rfl rfl rfl rfl rfl

theorem upStandIn_keepsRest : KeepsRest s s.upStandIn := by
  have up : s.upStandIn.up.holdLimit = s.up.holdLimit ∧ s.upStandIn.up.catchAll = s.up.catchAll := by
    unfold State.upStandIn
    dsimp only
    split <;> exact ⟨rfl, rfl⟩
  exact .of_blocks up.1 up.2 (by simp) (by simp) (by simp) (by simp) (by simp) (by simp) (by simp) (by simp)

theorem withdraw_keepsRest (k : Seg) (how : Withdrawal) : KeepsRest s (s.withdraw k how) := by
  unfold State.withdraw
  split
  · exact .refl s
  · dsimp only
    refine (modEngine_keepsRest s k fun e => { e with request := none }).trans ?_
    split
    · exact upStandIn_keepsRest _
    · exact upNak_keepsRest _

theorem withdrawSlot_keepsRest (k : Seg) (i : Slot) (how : Withdrawal) : KeepsRest s (s.withdrawSlot k i how) := by
  unfold State.withdrawSlot
  split
  · split
    · exact withdraw_keepsRest s k how
    · exact .refl s
  · exact .refl s

theorem undeliveredClaim_keepsRest (i : Slot) : KeepsRest s (s.undeliveredClaim i) := by
  unfold State.undeliveredClaim
  split
  · split
    · exact (putRec_keepsRest s i _).trans (markChanged_keepsRest _ i)
    · exact .refl s
  · exact .refl s

theorem undeliveredClaims_keepsRest (es : List Entry) : KeepsRest s (s.undeliveredClaims es) := by
  induction es generalizing s with
  | nil => exact .refl s
  | cons e rest ih => exact (undeliveredClaim_keepsRest s e.slot).trans (ih _)

theorem modPool_keepsRest (k : Seg) (f : PoolSeg → PoolSeg) (hf : ∀ p, (f p).share = p.share) :
    KeepsRest s (s.modPool k f) := by
  refine ⟨rfl, rfl, rfl, rfl, rfl, rfl, rfl, rfl, rfl, rfl, rfl, fun j => ?_, fun _ h => h⟩
  rw [poolSeg_modPool]
  split
  · rename_i e; rw [hf, e]
  · rfl

theorem purge_keepsRest (k : Seg) (covers : Entry → Bool) : KeepsRest s (s.purge k covers) :=
  (modPool_keepsRest s k (fun p => { p with
      queue := s.busEntries k ++ (s.waitingEntries k).filter fun e => !covers e
      purgeMark := p.purgeMark || (s.busEntries k).any covers }) fun _ => rfl).trans (undeliveredClaims_keepsRest _ _)

theorem freeSlot_keepsRest (i : Slot) : KeepsRest s (s.freeSlot i) := by
  unfold State.freeSlot
  split
  · exact .refl s
  · dsimp only
    refine KeepsRest.trans ?_ ((settleOps_keepsRest _ _).trans (settleOps_keepsRest _ _))
    refine KeepsRest.trans ?_ (withdrawSlot_keepsRest _ _ i .nak)
    refine KeepsRest.trans ?_ (markChanged_keepsRest _ i)
    exact ((putRec_keepsRest s i none).trans (setDir_keepsRest _ _)).trans (setEng_keepsRest _ _)

theorem retireCheck_keepsRest (i : Slot) : KeepsRest s (s.retireCheck i) := by
  rcases retireCheck_cases s i with e | e <;> rw [e]
  · exact freeSlot_keepsRest s i
  · exact .refl s

theorem leaveBound_keepsRest (i : Slot) (k : Seg) (purges : Bool) : KeepsRest s (s.leaveBound i k purges) := by
  unfold State.leaveBound
  dsimp only
  split
  · exact (withdrawSlot_keepsRest s k i _).trans (purge_keepsRest _ k _)
  · exact withdrawSlot_keepsRest s k i _

theorem absenceExpiry_keepsRest (i : Slot) : KeepsRest s (s.absenceExpiry i) := by
  unfold State.absenceExpiry
  split
  · split
    · split
      · exact freeSlot_keepsRest s i
      · exact putRec_keepsRest s i _
    · exact .refl s
  · exact .refl s

theorem afterEnd_keepsRest (i : Slot) : KeepsRest s (s.afterEnd i) := by
  refine (retireCheck_keepsRest s i).trans ?_
  unfold State.afterEnd
  dsimp only
  split
  · split
    · exact (putRec_keepsRest _ i _).trans (absenceExpiry_keepsRest _ i)
    · exact .refl _
  · exact .refl _

theorem enterPaused_keepsRest (k : Seg) : KeepsRest s (s.enterPaused k) :=
  ((modEngine_keepsRest s k _).trans (settleOps_keepsRest _ _)).trans (withdraw_keepsRest _ k .standIn)

theorem releaseBus_keepsRest (k : Seg) : KeepsRest s (s.releaseBus k) := by
  unfold State.releaseBus
  split
  · exact enterPaused_keepsRest s k
  · exact modEngine_keepsRest s k _

/-! ### Long operations that wait on (R131, R132) -/

/-- Every long operation of `s` that `p` holds of is in `m` as it was. -/
def OpsKept (s m : State) (p : LongOp → Prop) : Prop := ∀ op ∈ s.dc.ops, p op → op ∈ m.dc.ops

theorem OpsKept.of_dc {s m : State} (h : m.dc = s.dc) (p : LongOp → Prop) : OpsKept s m p :=
  fun _ ho _ => h ▸ ho

theorem OpsKept.trans {a b c : State} {p : LongOp → Prop} (h : OpsKept a b p) (g : OpsKept b c p) : OpsKept a c p :=
  fun op ho hp => g op (h op ho hp) hp

theorem OpsKept.imp {s m : State} {p q : LongOp → Prop} (h : OpsKept s m p) (hq : ∀ op, q op → p op) : OpsKept s m q :=
  fun op ho hop => h op ho (hq op hop)

/-- An operation answered already, or one the answer is not for, waits on. -/
theorem settleOps_kept (f : LongOp → Option Response) :
    OpsKept s (s.settleOps f) fun op => op.answer ≠ none ∨ f op = none := by
  intro op ho hp
  refine List.mem_map.mpr ⟨op, ho, ?_⟩
  cases ha : op.answer with
  | some a => rfl
  | none =>
    have hf := hp.resolve_left (not_not_intro ha)
    rw [hf]
    cases op
    cases ha
    rfl

theorem freeSlot_kept (i : Slot) : OpsKept s (s.freeSlot i) fun op =>
    op.answer ≠ none ∨ ((∀ n, op.work ≠ .retire i n) ∧ ∀ b, op.work ≠ .probe i b) := by
  unfold State.freeSlot
  split
  · exact .of_dc rfl _
  · refine OpsKept.trans (.of_dc ?_ _) (((settleOps_kept _ _).imp ?_).trans ((settleOps_kept _ _).imp ?_))
    · simp [State.markChanged]
    · rintro op (ha | ⟨hr, -⟩)
      · exact .inl ha
      · refine .inr ?_
        split
        · rename_i j n hw
          refine if_neg fun e => hr n ?_
          rw [hw, e]
        · rfl
    · rintro op (ha | ⟨-, hb⟩)
      · exact .inl ha
      · exact .inr (if_neg fun h => h.elim (hb true) (hb false))

/-- An answer once given stays. -/
theorem Answered.kept {s m u : State} {work : LongWork → Prop} {answer : LongOp → Response}
    (h : Answered s m work answer) (k : OpsKept m u fun op => op.answer ≠ none) : Answered s u work answer :=
  fun op ho hw ha => k _ (h op ho hw ha) (by simp)

/-- Operations that wait on until `u` get the answer `u` gives them. -/
theorem Answered.after {s u m : State} {work : LongWork → Prop} {answer : LongOp → Response}
    (k : OpsKept s u fun op => work op.work ∧ op.answer = none) (h : Answered u m work answer) : Answered s m work answer :=
  fun op ho hw ha => h op (k op ho ⟨hw, ha⟩) hw ha

end Sys2Proof.Machine
end

section
namespace Sys2Proof.Machine

variable (s : State)

/-! ### What became of a waiting request, event by event (R42) -/

/-- Where nothing goes, the request waits on and UP is as it was. -/
theorem RequestAfter.of_same {s m : State} {k : Seg} {goes : FwdRequest → Prop} {freed : Prop}
    (hq : (m.engine k).request = (s.engine k).request) (hu : m.up = s.up)
    (hg : ∀ q, (s.engine k).request = some q → ¬goes q) : RequestAfter s s.up m k goes freed := by
  unfold RequestAfter
  cases h : (s.engine k).request with
  | none => exact ⟨hq.trans h, hu⟩
  | some q => exact ⟨fun _ => ⟨hq.trans h, hu⟩, fun g => absurd g (hg q h)⟩

/-- Only the request and UP of the state afterwards count. -/
theorem RequestAfter.andSame {s m n : State} {u : UpPort} {k : Seg} {goes : FwdRequest → Prop} {freed : Prop}
    (h : RequestAfter s u m k goes freed) (hq : (n.engine k).request = (m.engine k).request) (hu : n.up = m.up) :
    RequestAfter s u n k goes freed := by
  unfold RequestAfter at h ⊢
  rwa [hq, hu]

/-- Only the request of the state before counts. -/
theorem RequestAfter.ofSame {s s' m : State} {u : UpPort} {k : Seg} {goes : FwdRequest → Prop} {freed : Prop}
    (h : RequestAfter s' u m k goes freed) (hq : (s'.engine k).request = (s.engine k).request) :
    RequestAfter s u m k goes freed := by
  unfold RequestAfter at h ⊢
  rwa [hq] at h

theorem RequestAfter.congr {s m : State} {u : UpPort} {k : Seg} {goes goes' : FwdRequest → Prop} {freed : Prop}
    (h : RequestAfter s u m k goes freed) (hg : ∀ q, (s.engine k).request = some q → (goes q ↔ goes' q)) :
    RequestAfter s u m k goes' freed := by
  unfold RequestAfter at h ⊢
  cases hq : (s.engine k).request with
  | none => simpa only [hq] using h
  | some q =>
    simp only [hq] at h ⊢
    rwa [hg q hq] at h

/-- A request withdrawn first is gone; one that waits meets the second withdrawal. -/
theorem RequestAfter.trans {s m n : State} {k : Seg} {goes goes' : FwdRequest → Prop}
    (h : RequestAfter s s.up m k goes False) (g : RequestAfter m m.up n k goes' False) :
    RequestAfter s s.up n k (fun q => goes q ∨ goes' q) False := by
  unfold RequestAfter at h g ⊢
  cases hq : (s.engine k).request with
  | none =>
    simp only [hq] at h ⊢
    obtain ⟨hm, hu⟩ := h
    rw [hm, hu] at g
    exact g
  | some q =>
    simp only [hq] at h ⊢
    obtain ⟨stays, leaves⟩ := h
    by_cases hg : goes q
    · obtain ⟨hm, nak, standIn⟩ := leaves hg
      rw [hm] at g
      obtain ⟨hn, hu⟩ := g
      rw [hu]
      exact ⟨fun c => absurd (.inl hg) c, fun _ => ⟨hn, nak, standIn⟩⟩
    · obtain ⟨hm, hu⟩ := stays hg
      rw [hm, hu] at g
      exact ⟨fun c => g.1 fun hg' => c (.inr hg'), fun c => g.2 (c.resolve_left hg)⟩

/-- A withdrawal for slot `i` ends the request that is for it, if one waits. -/
theorem withdrawSlot_requestAfter (k : Seg) (i : Slot) (how : Withdrawal) :
    RequestAfter s s.up (s.withdrawSlot k i how) k (fun w => w.slot = some i) (how = .nak) := by
  unfold State.withdrawSlot
  split
  · rename_i j tg d hq
    split
    · rename_i e
      refine (withdraw_request s k how).congr fun q hq' => ?_
      rw [hq] at hq'
      cases hq'
      simp [e]
    · rename_i ne
      refine .of_same rfl rfl fun q hq' => ?_
      rw [hq] at hq'
      cases hq'
      simpa using ne
  · rename_i hn
    refine .of_same rfl rfl fun q hq hs => ?_
    obtain ⟨sl, tg, d⟩ := q
    cases hs
    exact hn _ _ _ hq

/-! ### A slot becoming FREE, engine by engine (R12) -/

/-- Every engine forgets the slot, and the request for it at its record's segment is withdrawn. -/
theorem freeSlot_engine (i : Slot) (r : Record) (h : s.recAt i = some r) (j : Seg) :
    (s.freeSlot i).engine j = { (s.engine j).forgetSlot i with
      request := if j = r.segment then (s.engine j).request.filter fun q => q.slot != some i
        else (s.engine j).request } := by
  have forgot : ∀ u : State, u.eng = s.eng.map (Engine.forgetSlot i) →
      u.engine j = (s.engine j).forgetSlot i := fun u hu => by
    unfold State.engine
    rw [hu, Quad.get_map]
  unfold State.freeSlot
  rw [h]
  simp only [State.answerProbes, State.answerRetires, engine_settleOps, withdrawSlot_engine]
  split
  · rename_i e
    subst e
    rw [forgot _ rfl]
    rfl
  · rw [forgot _ rfl]
    rfl

/-- A slot that becomes FREE has its request not acknowledged (R12, R42). -/
theorem freeSlot_requestAfter (i : Slot) (r : Record) (h : s.recAt i = some r) :
    RequestAfter s s.up (s.freeSlot i) r.segment (fun w => w.slot = some i) True := by
  unfold State.freeSlot
  rw [h]
  dsimp only
  have w := withdrawSlot_requestAfter ((((s.putRec i none).setDir
      { slots := s.dir.slots.set i.val none
        aliasIndex := s.dir.aliasIndex.set r.aliasAddr.toNat none r.aliasAddr.isLt }).setEng
      (s.eng.map (Engine.forgetSlot i))).markChanged i) r.segment i .nak
  rw [eq_self_iff_true] at w
  refine (w.ofSame ?_).andSame rfl rfl
  simp [State.engine, State.markChanged, Engine.forgetSlot]

/-- What `freeSlot` does depends on the `aliasAddr` and the segment of the record alone. -/
theorem freeSlot_putRec (i : Slot) {r q : Record} (hr : s.recAt i = some r) (ha : q.aliasAddr = r.aliasAddr)
    (hk : q.segment = r.segment) : (s.putRec i (some q)).freeSlot i = s.freeSlot i := by
  unfold State.freeSlot
  rw [hr, recAt_putRec_self]
  simp only [State.putRec, State.setDir, ha, hk, Vector.set_set]

theorem freeSlot_pool (i : Slot) : (s.freeSlot i).pool = s.pool := by simp

/-- The PROBEs whose note is with the probe on the bus are answered RETIRED too (R145). -/
theorem freeSlot_busProbes (i : Slot) (r : Record) (h : s.recAt i = some r) :
    Answered s (s.freeSlot i) (fun w => w = .probe i true) fun op => ⟨.probe, op.tag, .retired, []⟩ := by
  unfold State.freeSlot
  rw [h]
  refine Answered.of_dc ?_ (Answered.after_settleOps _ ?_ (settleOps_answers _ _ _ _ ?_))
  · simp [State.markChanged]
  · intro op hw
    simp [hw]
  · intro op hw
    simp [hw, plainResponse]

/-! ### A change of one record, with the effects of R11 -/

/-- The record `r` of slot `i` has become `q`: no other record, nothing of the `aliasIndex` and no long operation has
changed; leaving BOUND has withdrawn the request that waited for it and, except into RETIRING, purged its entries. -/
structure Moved (s m : State) (i : Slot) (r q : Record) : Prop where
  here : m.recAt i = some q
  others : OtherRecords s m i
  index : m.dir.aliasIndex = s.dir.aliasIndex
  engines : ∀ j, m.engine j = { s.engine j with
    request := if j = r.segment then (m.engine j).request else (s.engine j).request }
  request : RequestAfter s s.up m r.segment (LeavesFor i r q) False
  stays : ¬(r.state = .bound ∧ q.state ≠ .bound ∧ q.state ≠ .retiring) → m.pool = s.pool
  purged : r.state = .bound → q.state ≠ .bound → q.state ≠ .retiring → PurgedOf s m r.segment i
  queues : ∀ j, j ≠ r.segment → m.poolSeg j = s.poolSeg j
  dc : m.dc = s.dc
  rest : KeepsRest s m
  changed : q.state ≠ r.state → m.au.changed[i.val] = true

variable {s}

theorem Moved.refl {i : Slot} {r : Record} (h : s.recAt i = some r) : Moved s s i r r where
  here := h
  others _ _ := rfl
  index := rfl
  engines j := by split <;> rfl
  request := .of_same rfl rfl fun _ _ hl => hl.2.2 hl.2.1
  stays _ := rfl
  purged hb hn := absurd hb hn
  queues _ _ := rfl
  dc := rfl
  rest := .refl s
  changed h := absurd rfl h

theorem Moved.elsewhere {m : State} {i : Slot} {r q : Record} (h : Moved s m i r q) {j : Seg} (hj : j ≠ r.segment) :
    m.engine j = s.engine j := by
  have e := h.engines j
  rw [if_neg hj] at e
  exact e

theorem Moved.tx {m : State} {i : Slot} {r q : Record} (h : Moved s m i r q) (j : Seg) :
    (m.engine j).tx = (s.engine j).tx := by rw [h.engines j]

/-- Fields of the record may change in place. -/
theorem Moved.put {m : State} {i : Slot} {r q p : Record} (h : Moved s m i r q) (hp : p.state = q.state) :
    Moved s (m.putRec i (some p)) i r p where
  here := recAt_putRec_self m i _
  others j hj := (recAt_putRec_other m (Ne.symm hj) _).trans (h.others j hj)
  index := h.index
  engines := h.engines
  request := (h.request.congr fun _ _ => by unfold LeavesFor; rw [hp]).andSame rfl rfl
  stays hn := h.stays (hp ▸ hn)
  purged hb hn hr := h.purged hb (hp ▸ hn) (hp ▸ hr)
  queues := h.queues
  dc := h.dc
  rest := h.rest.trans (putRec_keepsRest m i _)
  changed hn := h.changed (hp ▸ hn)

theorem Moved.mark {m : State} {i : Slot} {r q : Record} (h : Moved s m i r q) : Moved s (m.markChanged i) i r q :=
  { h with
    request := h.request.andSame rfl rfl
    rest := h.rest.trans (markChanged_keepsRest m i)
    changed := fun _ => markChanged_self m i }

theorem leaveBound_eng (s : State) (i : Slot) (k : Seg) (purges : Bool) :
    (s.leaveBound i k purges).eng = (s.withdrawSlot k i .standIn).eng ∧
    (s.leaveBound i k purges).up = (s.withdrawSlot k i .standIn).up ∧ (s.leaveBound i k purges).dc = s.dc := by
  unfold State.leaveBound
  dsimp only
  split <;> simp

theorem leaveBound_engine (s : State) (i : Slot) (k j : Seg) (purges : Bool) :
    (s.leaveBound i k purges).engine j =
      if j = k then { s.engine k with request := (s.engine k).request.filter fun q => q.slot != some i }
      else s.engine j :=
  (engine_of_eng (leaveBound_eng s i k purges).1 j).trans (withdrawSlot_engine s k j i .standIn)

theorem leaveBound_requestAfter (s : State) (i : Slot) (k : Seg) (purges : Bool) :
    RequestAfter s s.up (s.leaveBound i k purges) k (fun w => w.slot = some i) False := by
  obtain ⟨heng, hup, -⟩ := leaveBound_eng s i k purges
  have w := withdrawSlot_requestAfter s k i .standIn
  rw [show (Withdrawal.standIn = .nak) = False by simp] at w
  exact w.andSame (congrArg Engine.request (engine_of_eng heng k)) hup

theorem leaveBound_stays (s : State) (i : Slot) (k : Seg) : (s.leaveBound i k false).pool = s.pool := by
  simp [State.leaveBound]

theorem leaveBound_purgedOf (s : State) (i : Slot) (k : Seg) : PurgedOf s (s.leaveBound i k true) k i := by
  have p := purge_slot_purgedOf (s.withdrawSlot k i .standIn) k i
  have pool := poolSeg_of_pool (s := s) (t := s.withdrawSlot k i .standIn) (by simp) k
  have tx := withdrawSlot_tx s k k i .standIn
  unfold PurgedOf at p ⊢
  rwa [pool, waitingEntries_of tx (congrArg PoolSeg.queue pool), busEntries_of tx (congrArg PoolSeg.queue pool)] at p

theorem leaveBound_queues (s : State) (i : Slot) (k : Seg) (purges : Bool) {j : Seg} (h : j ≠ k) :
    (s.leaveBound i k purges).poolSeg j = s.poolSeg j := by
  have pool := poolSeg_of_pool (s := s) (t := s.withdrawSlot k i .standIn) (by simp) j
  unfold State.leaveBound
  dsimp only
  split
  · rw [purge_poolSeg, if_neg h, pool]
  · exact pool

/-- A change of state is made with the effects of R11, and the slot joins the changed-slot set (R10, R175). -/
theorem moveRec_moved (i : Slot) (f : Record → Record) (r q : Record) (hr : s.recAt i = some r)
    (hq : (s.moveRec i f).recAt i = some q) (hst : q.state = (f r).state) :
    Moved s (s.moveRec i f) i r q ∧ (s.moveRec i f).au.changed[i.val] = true := by
  have marked : KeepsRest s ((s.putRec i (some (f r))).markChanged i) :=
    (putRec_keepsRest s i _).trans (markChanged_keepsRest _ i)
  have index := moveRec_aliasIndex s i f
  have others := moveRec_others s i f
  by_cases leaves : r.state = .bound ∧ (f r).state ≠ .bound
  · have e : s.moveRec i f = ((s.putRec i (some (f r))).markChanged i).leaveBound i r.segment
        (decide ((f r).state ≠ .retiring)) := by
      unfold State.moveRec
      rw [hr]
      exact if_pos leaves
    have rest := leaveBound_keepsRest ((s.putRec i (some (f r))).markChanged i) i r.segment
      (decide ((f r).state ≠ .retiring))
    have mark := rest.changed i (markChanged_self _ i)
    rw [e] at hq index others ⊢
    refine ⟨⟨hq, others, index, fun j => ?_, ?_, fun hn => ?_, fun _ _ hret => ?_,
      fun j hj => leaveBound_queues _ i r.segment _ hj, (leaveBound_eng _ i r.segment _).2.2, marked.trans rest,
      fun _ => mark⟩, mark⟩
    · rw [leaveBound_engine]
      split
      · rename_i ej; subst ej; rfl
      · rfl
    · have goes : ∀ w : FwdRequest, w.slot = some i ↔ LeavesFor i r q w := fun w =>
        ⟨fun h => ⟨h, leaves.1, hst ▸ leaves.2⟩, fun h => h.1⟩
      have left := leaveBound_requestAfter ((s.putRec i (some (f r))).markChanged i) i r.segment
        (decide ((f r).state ≠ .retiring))
      exact (left.ofSame (s := s) rfl).congr fun w _ => goes w
    · have ret : (f r).state = .retiring := by
        by_contra c
        exact hn ⟨leaves.1, hst ▸ leaves.2, hst ▸ c⟩
      rw [ret]
      exact leaveBound_stays _ i r.segment
    · rw [decide_eq_true (hst ▸ hret)]
      exact leaveBound_purgedOf _ i r.segment
  · have e : s.moveRec i f = (s.putRec i (some (f r))).markChanged i := by
      unfold State.moveRec
      rw [hr]
      exact if_neg leaves
    have mark := markChanged_self (s.putRec i (some (f r))) i
    rw [e] at hq index others ⊢
    refine ⟨⟨hq, others, index, fun j => by split <;> rfl, ?_, fun _ => rfl, fun hb hn => ?_, fun _ _ => rfl, rfl,
      marked, fun _ => mark⟩, mark⟩
    · exact .of_same rfl rfl fun w _ hl => leaves ⟨hl.2.1, hst ▸ hl.2.2⟩
    · exact absurd ⟨hb, hst ▸ hn⟩ leaves

/-! ### What follows the end of a transaction (R24, R26, R58, R73) -/

/-- The held expiry claim of the record would be taken now (R26). -/
abbrev State.expires (s : State) (i : Slot) (q : Record) : Prop :=
  q.expiryHeld = true ∧ q.state = .absent ∧ q.cls = .dynamic ∧ s.isProtected i = false

/-- The record ends with its transaction: a retirement that owes nothing more, or an expiry that was held (R24, R26). -/
abbrev State.endsWith (s : State) (i : Slot) (q : Record) : Prop :=
  q.marker = .none ∧ ((q.state = .retiring ∧ s.hasQueued q.segment i = false) ∨ s.expires i q)

theorem absenceExpiry_eq (s : State) (i : Slot) (q : Record) (h : s.recAt i = some q) : s.absenceExpiry i =
    if q.state = .absent ∧ q.cls = .dynamic ∧ s.isProtected i = false then
      if q.marker = .none then s.freeSlot i else s.putRec i (some { q with expiryHeld := true })
    else s := by
  unfold State.absenceExpiry
  rw [h]

theorem afterEnd_frees (s : State) (i : Slot) (q : Record) (h : s.recAt i = some q) (he : s.endsWith i q) :
    s.afterEnd i = s.freeSlot i := by
  obtain ⟨hm, ⟨hr, hq⟩ | ⟨held, ha, hc, hp⟩⟩ := he
  · have check : s.retireCheck i = s.freeSlot i := by
      unfold State.retireCheck
      rw [h]
      exact if_pos ⟨hr, hm, hq⟩
    unfold State.afterEnd
    dsimp only
    rw [check, freeSlot_recAt, if_pos rfl]
  · have check : s.retireCheck i = s := by
      unfold State.retireCheck
      rw [h]
      exact if_neg fun g => by simp [ha] at g
    unfold State.afterEnd
    dsimp only
    rw [check, h]
    dsimp only
    rw [if_pos held, absenceExpiry_eq _ i _ (recAt_putRec_self s i _), if_pos ⟨ha, hc, hp⟩]
    exact (if_pos hm).trans (freeSlot_putRec s i h rfl rfl)

/-- A record that does not end keeps its held expiry only while it would still be taken (log entry 12). -/
theorem afterEnd_stays (s : State) (i : Slot) (q : Record) (h : s.recAt i = some q) (he : ¬s.endsWith i q) :
    s.afterEnd i = s.putRec i (some { q with expiryHeld := decide (q.marker ≠ .none ∧ s.expires i q) }) := by
  have check : s.retireCheck i = s := by
    unfold State.retireCheck
    rw [h]
    exact if_neg fun g => he ⟨g.2.1, .inl ⟨g.1, g.2.2⟩⟩
  unfold State.afterEnd
  dsimp only
  rw [check, h]
  dsimp only
  by_cases held : q.expiryHeld = true
  · rw [if_pos held, absenceExpiry_eq _ i _ (recAt_putRec_self s i _)]
    by_cases takes : q.state = .absent ∧ q.cls = .dynamic ∧ s.isProtected i = false
    · have marked : q.marker ≠ .none := fun c => he ⟨c, .inr ⟨held, takes⟩⟩
      rw [decide_eq_true ⟨marked, held, takes⟩]
      refine (if_pos takes).trans ((if_neg marked).trans ?_)
      simp [State.putRec, State.setDir]
    · rw [decide_eq_false fun g => takes g.2.2]
      exact if_neg takes
  · rw [if_neg held, decide_eq_false fun g => held g.2.1]
    exact (putRec_same s i _ (by rw [h, ← Bool.not_eq_true _ |>.mp held])).symm

/-- The engine whose transaction is off the bus (R58, R73). -/
theorem releaseBus_engine (s : State) (k j : Seg) : (s.releaseBus k).engine j =
    if j = k then { s.engine k with
      state := if (s.engine k).pausePending then .paused else .idle
      pausePending := false
      tx := none
      stall := none
      attempt := if (s.engine k).pausePending then none else (s.engine k).attempt
      request := if (s.engine k).pausePending then none else (s.engine k).request }
    else s.engine j := by
  unfold State.releaseBus
  by_cases hp : (s.engine k).pausePending = true
  · simp only [hp, if_true]
    unfold State.enterPaused
    simp only [withdraw_engine, State.answerPause, engine_settleOps, engine_modEngine_self]
    split
    · rfl
    · rename_i h; exact engine_modEngine_other s h _
  · have off : (s.engine k).pausePending = false := by simpa using hp
    rw [if_neg hp]
    simp only [off]
    rw [engine_modEngine]
    split
    · rename_i h; subst h; simp [off]
    · rfl

theorem releaseBus_requestAfter (s : State) (k : Seg) :
    RequestAfter s s.up (s.releaseBus k) k (fun _ => (s.engine k).pausePending = true) False := by
  unfold State.releaseBus
  by_cases hp : (s.engine k).pausePending = true
  · rw [if_pos hp]
    have w := withdraw_request ((s.modEngine k fun e =>
      { e with state := .paused, pausePending := false, tx := none, stall := none, attempt := none }).answerPause k .done)
      k .standIn
    rw [show (Withdrawal.standIn = .nak) = False by simp] at w
    refine ((w.congr fun _ _ => ?_).ofSame (s := s) ?_)
    · simp [hp]
    · simp [State.answerPause]
  · rw [if_neg hp]
    exact .of_same (by simp) rfl fun _ _ => hp

theorem enterPaused_dc (s : State) (k : Seg) : (s.enterPaused k).dc = (s.answerPause k .done).dc := by
  unfold State.enterPaused
  simp [State.answerPause, State.settleOps]

/-- Only the waiting PAUSE of the engine is answered (R73). -/
theorem releaseBus_kept (s : State) (k : Seg) :
    OpsKept s (s.releaseBus k) fun op => op.answer ≠ none ∨ op.work ≠ .pause k := by
  unfold State.releaseBus
  split
  · exact ((settleOps_kept s _).imp fun op h => h.imp_right fun hw => if_neg hw).trans (.of_dc (enterPaused_dc s k) _)
  · exact .of_dc rfl _

theorem releaseBus_answers (s : State) (k : Seg) (h : (s.engine k).pausePending = true) :
    Answered s (s.releaseBus k) (fun w => w = .pause k) fun op => ⟨.pause, op.tag, .done, []⟩ := by
  unfold State.releaseBus
  rw [if_pos h]
  refine Answered.kept (m := s.answerPause k .done) ?_ (.of_dc (enterPaused_dc s k) _)
  exact settleOps_answers s _ _ _ fun op hw => if_pos hw

/-- The engine is off the bus, whatever the end of its transaction did to records (R58, R73). -/
theorem releaseBus_released {s u : State} (k : Seg) (hs : (u.engine k).rate = (s.engine k).rate ∧
      (u.engine k).resumeWaiting = (s.engine k).resumeWaiting ∧
      (u.engine k).pausePending = (s.engine k).pausePending)
    (kept : OpsKept s u fun op => op.work = .pause k ∧ op.answer = none) : Released s (u.releaseBus k) k := by
  obtain ⟨rate, resume, pause⟩ := hs
  have e := releaseBus_engine u k k
  rw [if_pos rfl] at e
  refine ⟨by rw [e], by rw [e], by rw [e]; exact rate, by rw [e]; exact resume, by rw [e], fun h => ?_, fun h => ?_⟩
  · rw [e]
    simp [pause, h]
  · refine ⟨by rw [e]; simp [pause, h], by rw [e]; simp [pause, h], ?_⟩
    exact Answered.after kept (releaseBus_answers u k (pause.trans h))

end Sys2Proof.Machine
end

section
namespace Sys2Proof.Machine

variable {s : State}

/-! ### What the end of a transaction leaves in its slot (R24, R26, R88) -/

theorem State.isProtected_of_pu {s t : State} (h : t.pu = s.pu) (i : Slot) : t.isProtected i = s.isProtected i := by
  unfold State.isProtected
  rw [h]

theorem State.hasQueued_of_pool {s t : State} (h : t.pool = s.pool) (k : Seg) (i : Slot) :
    t.hasQueued k i = s.hasQueued k i := by
  unfold State.hasQueued
  rw [poolSeg_of_pool h]

/-- The long operations that a slot's becoming FREE answers wait on. -/
def Freeable (i : Slot) (op : LongOp) : Prop :=
  op.answer = none ∧ ((∃ n, op.work = .retire i n) ∨ op.work = .probe i false)

theorem FreedFrom.before {s u m : State} {i : Slot} {r q : Record} (h : FreedFrom u m i q)
    (ha : q.aliasAddr = r.aliasAddr) (waits : OpsKept s u (Freeable i)) : FreedFrom s m i r := by
  obtain ⟨here, index, changed, queues, retires, probes⟩ := h
  exact ⟨here, ha ▸ index, changed, queues,
    fun n => Answered.after (waits.imp fun _ g => ⟨g.2, .inl ⟨n, g.1⟩⟩) (retires n),
    Answered.after (waits.imp fun _ g => ⟨g.2, .inr g.1⟩) probes⟩

/-- A later part of the event that keeps the directory, the changed slots and the answers given. -/
structure KeepsEnd (m n : State) : Prop where
  dir : n.dir = m.dir
  pool : n.pool = m.pool
  changed : ∀ i : Slot, m.au.changed[i.val] = true → n.au.changed[i.val] = true
  queues : ∀ k, (n.engine k).probeQueue = (m.engine k).probeQueue
  answered : OpsKept m n fun op => op.answer ≠ none

theorem FreedFrom.kept {s m n : State} {i : Slot} {r : Record} (h : FreedFrom s m i r) (g : KeepsEnd m n) :
    FreedFrom s n i r := by
  obtain ⟨here, index, changed, queues, retires, probes⟩ := h
  exact ⟨(recAt_of_dir g.dir i).trans here,
    (lookupAlias_of_index (congrArg Directory.aliasIndex g.dir) _).trans index, g.changed i changed,
    fun k => by rw [g.queues]; exact queues k, fun n => (retires n).kept g.answered, probes.kept g.answered⟩

theorem LeftBehind.kept {s m n : State} {i : Slot} {r q : Record} (h : LeftBehind s m i r q) (g : KeepsEnd m n) :
    LeftBehind s n i r q := by
  unfold LeftBehind at h ⊢
  dsimp only at h ⊢
  rw [State.hasQueued_of_pool g.pool, g.dir, recAt_of_dir g.dir i]
  split
  · rename_i he
    rw [if_pos he] at h
    exact ⟨h.1.kept g, h.2⟩
  · rename_i he
    rw [if_neg he] at h
    exact ⟨fun hq => g.changed i (h.1 hq), h.2⟩

theorem releaseBus_keepsEnd (s : State) (k : Seg) : KeepsEnd s (s.releaseBus k) where
  dir := by simp
  pool := by simp
  changed := (releaseBus_keepsRest s k).changed
  queues j := by
    rw [releaseBus_engine]
    split
    · rename_i e; rw [e]
    · rfl
  answered := (releaseBus_kept s k).imp fun _ h => .inl h

/-- The record `q` of slot `i`, with the claims its purged entries passed, meets the end of its transaction. -/
theorem afterEnd_leftBehind {s u : State} {i : Slot} {r q : Record}
    (here : u.recAt i = some { q with
      undelivered := if r.state = .bound ∧ q.state ≠ .bound
        then moreLost q.undelivered (s.purged r.segment i).length else q.undelivered })
    (ha : q.aliasAddr = r.aliasAddr) (index : u.dir.aliasIndex = s.dir.aliasIndex) (pu : u.pu = s.pu)
    (changed : q.state ≠ r.state → u.au.changed[i.val] = true) (waits : OpsKept s u (Freeable i)) :
    LeftBehind s (u.afterEnd i) i r q := by
  have prot := State.isProtected_of_pu pu i
  have pool : (u.afterEnd i).pool = u.pool := by simp
  unfold LeftBehind
  dsimp only
  rw [State.hasQueued_of_pool pool, ← prot]
  split
  · rename_i he
    rw [afterEnd_frees u i _ here he]
    exact ⟨(freeSlot_freedFrom u i _ here).before ha waits, by rw [freeSlot_aliasIndex u i _ here, index, ha]⟩
  · rename_i he
    refine ⟨fun hq => (afterEnd_keepsRest u i).changed i (changed hq), ?_⟩
    rw [afterEnd_stays u i _ here he, recAt_putRec_self]

/-! ### Requests for a slot that becomes FREE (R42, R55) -/

/-- No forward request waits for slot `i`. -/
def State.Unasked (s : State) (i : Slot) : Prop := ∀ k w, (s.engine k).request = some w → w.slot ≠ some i

theorem State.RequestLaw.unasked (h : s.RequestLaw) {i : Slot} (hi : ∀ r, s.recAt i = some r → r.state ≠ .bound) :
    s.Unasked i := fun k w hw hs => by
  obtain ⟨r, hr, -, hb⟩ := h k w i hw hs
  exact hi r hr hb

/-- A record that is not BOUND afterwards has no request waiting for it, since leaving BOUND withdraws it (R11). -/
theorem Moved.unasked {m : State} {i : Slot} {r q : Record} (h : Moved s m i r q) (hr : s.recAt i = some r)
    (law : s.RequestLaw) (hq : q.state ≠ .bound) : m.Unasked i := by
  intro k w hw hs
  by_cases hk : k = r.segment
  · subst hk
    have after := h.request
    unfold RequestAfter at after
    cases hv : (s.engine r.segment).request with
    | none => simp only [hv] at after; simp [after.1] at hw
    | some v =>
      simp only [hv] at after
      obtain ⟨stays, leaves⟩ := after
      by_cases hl : LeavesFor i r q v
      · simp [(leaves hl).1] at hw
      · rw [(stays hl).1] at hw
        cases hw
        obtain ⟨p, hp, -, hb⟩ := law _ _ i hv hs
        exact hl ⟨hs, by cases hr.symm.trans hp; exact hb, hq⟩
  · rw [h.elsewhere hk] at hw
    obtain ⟨p, hp, hpk, -⟩ := law _ _ i hw hs
    exact hk (by cases hr.symm.trans hp; exact hpk.symm)

theorem freeSlot_unasked {i : Slot} (h : s.Unasked i) :
    (s.freeSlot i).up = s.up ∧ ∀ k, ((s.freeSlot i).engine k).request = (s.engine k).request := by
  cases hr : s.recAt i with
  | none =>
    have e : s.freeSlot i = s := by unfold State.freeSlot; rw [hr]
    rw [e]
    exact ⟨rfl, fun _ => rfl⟩
  | some r =>
    have after := freeSlot_requestAfter s i r hr
    have same : (s.freeSlot i).up = s.up ∧
        ((s.freeSlot i).engine r.segment).request = (s.engine r.segment).request := by
      unfold RequestAfter at after
      cases hq : (s.engine r.segment).request with
      | none => simp only [hq] at after; exact after.symm
      | some q => simp only [hq] at after; exact (after.1 (h _ _ hq)).symm
    refine ⟨same.1, fun k => ?_⟩
    by_cases hk : k = r.segment
    · rw [hk, same.2]
    · rw [freeSlot_engine s i r hr k]
      exact if_neg hk

/-- What follows the end leaves the requests and UP alone, when no request waits for a slot that becomes FREE. -/
theorem afterEnd_unasked {u : State} {i : Slot} {q : Record} (here : u.recAt i = some q)
    (h : q.state ≠ .bound → u.Unasked i) :
    (u.afterEnd i).up = u.up ∧ ∀ k, ((u.afterEnd i).engine k).request = (u.engine k).request := by
  by_cases he : u.endsWith i q
  · rw [afterEnd_frees u i q here he]
    refine freeSlot_unasked (h fun hb => ?_)
    rcases he.2 with ⟨g, -⟩ | ⟨-, g, -⟩ <;> simp [hb] at g
  · rw [afterEnd_stays u i q here he]
    exact ⟨rfl, fun _ => rfl⟩

end Sys2Proof.Machine
end

section
namespace Sys2Proof.Machine

variable {s : State}

/-! ### A probe's outcome, applied to its record (R17, R99) -/

/-- A change made after a change in place. -/
theorem Moved.afterPut {m : State} {i : Slot} {r p q : Record} (hs : p.state = r.state)
    (hk : p.segment = r.segment) (h : Moved (s.putRec i (some p)) m i p q) : Moved s m i r q where
  here := h.here
  others j hj := (h.others j hj).trans (recAt_putRec_other s (Ne.symm hj) _)
  index := h.index
  engines := hk ▸ h.engines
  request := by
    have after := (h.request.ofSame (s := s) rfl).congr (goes' := LeavesFor i r q) fun _ _ => by
      unfold LeavesFor; rw [hs]
    rwa [hk] at after
  stays hn := h.stays (hs ▸ hn)
  purged hb hn hret := hk ▸ h.purged (hs ▸ hb) hn hret
  queues := hk ▸ h.queues
  dc := h.dc
  rest := (putRec_keepsRest s i _).trans h.rest
  changed hn := h.changed (hs ▸ hn)

/-- The claims a record passes when it leaves BOUND for a state other than RETIRING (R11, R88). -/
def State.lostOnMove (s : State) (i : Slot) (r q : Record) : Nat :=
  if r.state = .bound ∧ q.state ≠ .bound then moreLost q.undelivered (s.purged r.segment i).length else q.undelivered

/-- A change of state to a state that is not RETIRING (R10, R11). -/
theorem moveRec_lost (i : Slot) (f : Record → Record) (r : Record) (hr : s.recAt i = some r)
    (hf : (f r).state ≠ .retiring) :
    Moved s (s.moveRec i f) i r { f r with undelivered := s.lostOnMove i r (f r) } ∧
      (s.moveRec i f).au.changed[i.val] = true := by
  refine moveRec_moved i f r _ hr ?_ rfl
  rw [moveRec_recAt s i f r hr]
  simp [State.lostOnMove, hf]

theorem Moved.storeIdentity {m : State} {i : Slot} {r q : Record} (h : Moved s m i r q) (byte : Option Byte) :
    Moved s (m.storeIdentity i byte) i r (q.seen byte) ∧
      (byte.isSome = true → q.identity ≠ byte → (m.storeIdentity i byte).au.changed[i.val] = true) := by
  unfold State.storeIdentity
  cases byte with
  | none => exact ⟨h, fun c => by simp at c⟩
  | some b =>
    rw [h.here]
    dsimp only
    by_cases e : q.identity = some b
    · rw [if_pos e]
      have same : q.seen (some b) = q := by
        unfold Record.seen
        rw [Option.isSome_some, if_pos rfl, ← e]
      exact ⟨same ▸ h, fun _ c => absurd e c⟩
    · rw [if_neg e]
      exact ⟨(h.put (p := q.seen (some b)) rfl).mark, fun _ _ => markChanged_self _ i⟩

/-- The lines of R17's table. -/
theorem applyOutcome_present (s : State) (i : Slot) (r : Record) (byte : Option Byte) (hret : r.state ≠ .retiring) :
    s.applyOutcome i r .present byte =
      if r.state = .bound then s.storeIdentity i byte else (s.moveRec i Record.toBound).storeIdentity i byte := by
  unfold State.applyOutcome
  cases h : r.state <;> simp_all

theorem applyOutcome_mismatch (s : State) (i : Slot) (r : Record) (byte : Option Byte) (hret : r.state ≠ .retiring) :
    s.applyOutcome i r .mismatch byte =
      if r.state = .quarantined then s.reprobeFailed i r .mismatch
      else s.moveRec i (Record.toQuarantined .mismatch s.hm.holdOff) := by
  unfold State.applyOutcome
  cases h : r.state <;> simp_all

theorem applyOutcome_notPresent (s : State) (i : Slot) (r : Record) (byte : Option Byte) (hret : r.state ≠ .retiring) :
    s.applyOutcome i r .notPresent byte =
      if r.state = .quarantined then s.reprobeFailed i r .notPresent
      else if r.state = .absent then s else s.moveRec i Record.toAbsent := by
  unfold State.applyOutcome
  cases h : r.state <;> simp_all

theorem Record.stillQuarantined_kept (n : Nat) (o : ProbeOutcome) (r : Record) (hq : r.state = .quarantined) :
    (r.stillQuarantined n o).state ≠ .retiring ∧ (r.stillQuarantined n o).identity = r.identity ∧
    (r.stillQuarantined n o).undelivered = r.undelivered ∧
    (¬3 ≤ r.reprobeFailures + 1 → (r.stillQuarantined n o).state = r.state) := by
  unfold Record.stillQuarantined
  split
  · exact ⟨nofun, rfl, rfl, fun h => absurd ‹_› h⟩
  · exact ⟨by simp [hq], rfl, rfl, fun _ => rfl⟩

/-- Nothing is lost where the record does not leave BOUND. -/
theorem State.lostOnMove_of_not {i : Slot} {r q : Record} (h : ¬(r.state = .bound ∧ q.state ≠ .bound)) :
    s.lostOnMove i r q = q.undelivered := if_neg h

theorem reprobeFailed_moved {i : Slot} {r : Record} (hr : s.recAt i = some r) (hq : r.state = .quarantined)
    (o : ProbeOutcome) : Moved s (s.reprobeFailed i r o) i r (r.stillQuarantined s.hm.holdOff o) := by
  obtain ⟨ret, -, -, stays⟩ := Record.stillQuarantined_kept s.hm.holdOff o r hq
  unfold State.reprobeFailed
  split
  · have mv := (moveRec_lost i (Record.failedReprobe s.hm.holdOff o) r hr ret).1
    rwa [State.lostOnMove_of_not (by simp [hq])] at mv
  · rename_i h
    have e : s.modRec i (Record.failedReprobe s.hm.holdOff o) =
        s.putRec i (some (r.stillQuarantined s.hm.holdOff o)) := by
      unfold State.modRec
      rw [hr]
      rfl
    rw [e]
    exact (Moved.refl hr).put (stays h)

/-- DIR applies a judged outcome to a record that is not RETIRING by R17's table, with the effects of R11. -/
theorem applyOutcome_moved {i : Slot} {r : Record} (hr : s.recAt i = some r) (hret : r.state ≠ .retiring)
    (o : ProbeOutcome) (byte : Option Byte) :
    Moved s (s.applyOutcome i r o byte) i r { r.probed s.hm.holdOff o byte with
      undelivered := s.lostOnMove i r (r.probed s.hm.holdOff o byte) } ∧
    ((r.probed s.hm.holdOff o byte).identity ≠ r.identity → (s.applyOutcome i r o byte).au.changed[i.val] = true) := by
  cases o with
  | present =>
    rw [applyOutcome_present s i r byte hret]
    have stored : ∀ (p : Record) {m : State}, Moved s m i r p → p.identity = r.identity → p.state = .bound →
        r.probed s.hm.holdOff .present byte = p.seen byte →
        Moved s (m.storeIdentity i byte) i r { r.probed s.hm.holdOff .present byte with
          undelivered := s.lostOnMove i r (r.probed s.hm.holdOff .present byte) } ∧
        ((r.probed s.hm.holdOff .present byte).identity ≠ r.identity →
          (m.storeIdentity i byte).au.changed[i.val] = true) := fun p m h hi hb e => by
      obtain ⟨mv, chg⟩ := h.storeIdentity byte
      have same : s.lostOnMove i r (p.seen byte) = (p.seen byte).undelivered :=
        State.lostOnMove_of_not fun c => c.2 hb
      rw [e, same]
      refine ⟨mv, fun hne => ?_⟩
      cases byte with
      | none => exact absurd hi hne
      | some b => exact chg rfl fun c => hne (by rw [← hi, c]; rfl)
    split
    · rename_i hb
      exact stored r (.refl hr) rfl hb (if_pos hb)
    · rename_i hb
      have mv := (moveRec_lost i Record.toBound r hr (by simp [Record.toBound])).1
      rw [State.lostOnMove_of_not (by simp [Record.toBound])] at mv
      exact stored r.toBound mv rfl rfl (if_neg hb)
  | mismatch =>
    rw [applyOutcome_mismatch s i r byte hret]
    split
    · rename_i hq
      have e : r.probed s.hm.holdOff .mismatch byte = r.stillQuarantined s.hm.holdOff .mismatch := if_pos hq
      rw [e, State.lostOnMove_of_not (by simp [hq])]
      exact ⟨reprobeFailed_moved hr hq _, fun c => absurd (Record.stillQuarantined_kept _ _ r hq).2.1 c⟩
    · rename_i hq
      have e : r.probed s.hm.holdOff .mismatch byte = r.toQuarantined .mismatch s.hm.holdOff := if_neg hq
      rw [e]
      exact ⟨(moveRec_lost i _ r hr (by simp [Record.toQuarantined])).1, fun c => absurd rfl c⟩
  | notPresent =>
    rw [applyOutcome_notPresent s i r byte hret]
    split
    · rename_i hq
      have e : r.probed s.hm.holdOff .notPresent byte = r.stillQuarantined s.hm.holdOff .notPresent := if_pos hq
      rw [e, State.lostOnMove_of_not (by simp [hq])]
      exact ⟨reprobeFailed_moved hr hq _, fun c => absurd (Record.stillQuarantined_kept _ _ r hq).2.1 c⟩
    · rename_i hq
      split
      · rename_i ha
        have e : r.probed s.hm.holdOff .notPresent byte = r := (if_neg hq).trans (if_pos ha)
        rw [e, State.lostOnMove_of_not (by simp [ha])]
        exact ⟨.refl hr, fun c => absurd rfl c⟩
      · rename_i ha
        have e : r.probed s.hm.holdOff .notPresent byte = r.toAbsent := (if_neg hq).trans (if_neg ha)
        rw [e]
        exact ⟨(moveRec_lost i _ r hr (by simp [Record.toAbsent])).1, fun c => absurd rfl c⟩

theorem Record.probed_kept (n : Nat) (o : ProbeOutcome) (byte : Option Byte) (r : Record) :
    (r.probed n o byte).aliasAddr = r.aliasAddr ∧ (r.probed n o byte).segment = r.segment ∧
    (r.probed n o byte).state ≠ .retiring := by
  have still : ∀ o, r.state = .quarantined → (r.stillQuarantined n o).aliasAddr = r.aliasAddr ∧
      (r.stillQuarantined n o).segment = r.segment ∧ (r.stillQuarantined n o).state ≠ .retiring := fun o hq => by
    unfold Record.stillQuarantined
    split <;> simp [hq]
  cases o <;> unfold Record.probed <;> dsimp only
  · split <;> simp_all [Record.seen]
  · split
    · exact still _ ‹_›
    · simp
  · split
    · exact still _ ‹_›
    · split <;> simp_all

end Sys2Proof.Machine
end

section
namespace Sys2Proof.Machine

variable {s : State}

/-! ### The end of a probe (R17, R97, R99, R144, R145) -/

theorem clearProbeMarker_eq (x : Tx) (i : Slot) (r : Record) (hr : s.recAt i = some r) :
    s.clearProbeMarker x i = s.putRec i (some (r.probeOff x)) := by
  unfold State.clearProbeMarker Record.probeOff
  split
  · unfold State.clearMarker State.modRec
    rw [hr]
  · rw [putRec_same s i _ hr]

theorem appliesTo_iff (x : Tx) (k : Seg) (r : Record) : x.appliesTo k (r.probeOff x) = true ↔ ProbeApplies x k r := by
  unfold Tx.appliesTo ProbeApplies Record.probeOff
  simp [and_assoc]

/-- HM's judgement is the outcome the answer and the identity give (R99). -/
theorem judge_eq (r : Record) (answer : ProbeAnswer) (byte : Option Byte) (o : ProbeOutcome)
    (hn : o = .notPresent ↔ answer = .notAnswered)
    (hm : o = .mismatch ↔ r.frozen = true ∧ ∃ b v, byte = some b ∧ r.identity = some v ∧ b ≠ v)
    (hb : answer = .notAnswered → byte = none) : judge r answer byte = o := by
  cases answer with
  | notAnswered => exact (hn.mpr rfl).symm
  | answered a =>
    have present : o ≠ .notPresent := fun c => by simp [hn] at c
    unfold judge
    cases byte with
    | none => cases o <;> simp_all
    | some b =>
      cases hv : r.identity with
      | none => cases o <;> simp_all
      | some v =>
        dsimp only
        by_cases differs : r.frozen = true ∧ b ≠ v
        · rw [if_pos differs, hm.mpr ⟨differs.1, b, v, rfl, hv, differs.2⟩]
        · rw [if_neg differs]
          cases o <;> simp_all

/-- A probe of a FREE slot changes nothing there (R17). -/
theorem probeOver_free (k : Seg) (x : Tx) (i : Slot) (answer : ProbeAnswer) (h : s.recAt i = none) :
    s.probeOver k x i answer = s := by
  have e : s.clearProbeMarker x i = s := by
    unfold State.clearProbeMarker State.clearMarker State.modRec
    rw [h, ite_self]
  unfold State.probeOver
  simp only [e, h]

theorem probeOver_discarded (k : Seg) (x : Tx) (i : Slot) (answer : ProbeAnswer) (r : Record)
    (hr : s.recAt i = some r) (ha : ¬ProbeApplies x k r) :
    s.probeOver k x i answer = (s.putRec i (some (r.probeOff x))).afterEnd i := by
  unfold State.probeOver
  simp only [clearProbeMarker_eq x i r hr, recAt_putRec_self]
  exact if_neg fun c => ha ((appliesTo_iff x k r).mp c)

/-- The record with its outcome applied, before what the end of the probe brings. -/
def State.probeJudged (s : State) (x : Tx) (i : Slot) (r : Record) (o : ProbeOutcome) (byte : Option Byte) : State :=
  ((s.putRec i (some (r.probeOff x))).applyOutcome i (r.probeOff x) o byte).answerBusProbes i o byte

theorem probeOver_applied (k : Seg) (x : Tx) (i : Slot) (answer : ProbeAnswer) (r : Record) (o : ProbeOutcome)
    (hr : s.recAt i = some r) (ha : ProbeApplies x k r) (ho : judge r answer (x.byteRead answer) = o) :
    s.probeOver k x i answer = (s.probeJudged x i r o (x.byteRead answer)).afterEnd i := by
  unfold State.probeOver
  simp only [clearProbeMarker_eq x i r hr, recAt_putRec_self]
  refine (if_pos ((appliesTo_iff x k r).mpr ha)).trans ?_
  subst ho
  rfl

/-- The PROBEs whose note the probe carries are answered with the outcome and the resulting state (R144, R187). -/
theorem answerBusProbes_eq (i : Slot) (r : Record) (o : ProbeOutcome) (byte : Option Byte) (hr : s.recAt i = some r) :
    s.answerBusProbes i o byte = s.settleOps fun op =>
      if op.work = .probe i true then some ⟨.probe, op.tag, .done, probeResults o byte r.state⟩ else none := by
  unfold State.answerBusProbes
  rw [hr]

/-- An outcome is applied with the effects of R11, and the PROBEs that wait for it are answered. -/
theorem probeJudged_moved (x : Tx) (i : Slot) (r : Record) (o : ProbeOutcome) (byte : Option Byte)
    (hret : r.state ≠ .retiring) :
    let q := (r.probeOff x).probed s.hm.holdOff o byte
    ∃ v, Moved s v i r { q with undelivered := s.lostOnMove i r q } ∧
      s.probeJudged x i r o byte = (v.settleOps fun op =>
        if op.work = .probe i true then some ⟨.probe, op.tag, .done, probeResults o byte q.state⟩ else none) ∧
      (q.identity ≠ r.identity → v.au.changed[i.val] = true) := by
  obtain ⟨mv, changed⟩ := applyOutcome_moved (s := s.putRec i (some (r.probeOff x))) (i := i) (r := r.probeOff x)
    (recAt_putRec_self s i _) hret o byte
  have lost : ∀ q, (s.putRec i (some (r.probeOff x))).lostOnMove i (r.probeOff x) q = s.lostOnMove i r q := fun _ => rfl
  have hm : (s.putRec i (some (r.probeOff x))).hm = s.hm := rfl
  rw [lost, hm] at mv
  exact ⟨_, Moved.afterPut (p := r.probeOff x) rfl rfl mv, answerBusProbes_eq i
    { (r.probeOff x).probed s.hm.holdOff o byte with
      undelivered := s.lostOnMove i r ((r.probeOff x).probed s.hm.holdOff o byte) } o byte mv.here, changed⟩

/-- Of each engine the end of a transaction leaves its state, its flags and its rate to the release of the bus. -/
theorem afterEnd_engine (u : State) (i : Slot) (q : Record) (here : u.recAt i = some q) (j : Seg) :
    ((u.afterEnd i).engine j).rate = (u.engine j).rate ∧
    ((u.afterEnd i).engine j).resumeWaiting = (u.engine j).resumeWaiting ∧
    ((u.afterEnd i).engine j).pausePending = (u.engine j).pausePending := by
  by_cases he : u.endsWith i q
  · rw [afterEnd_frees u i q here he, freeSlot_engine u i q here]
    exact ⟨rfl, rfl, rfl⟩
  · rw [afterEnd_stays u i q here he]
    exact ⟨rfl, rfl, rfl⟩

theorem afterEnd_kept (u : State) (i : Slot) (q : Record) (here : u.recAt i = some q) :
    OpsKept u (u.afterEnd i) fun op => op.answer ≠ none ∨ ((∀ n, op.work ≠ .retire i n) ∧ ∀ b, op.work ≠ .probe i b) := by
  by_cases he : u.endsWith i q
  · rw [afterEnd_frees u i q here he]
    exact freeSlot_kept u i
  · rw [afterEnd_stays u i q here he]
    exact .of_dc rfl _

/-- A slot that keeps its record has met nothing that answers (R24). -/
theorem afterEnd_keeps (u : State) (i : Slot) (q : Record) (here : u.recAt i = some q)
    (h : ((u.afterEnd i).recAt i).isSome = true) : (u.afterEnd i).dc = u.dc ∧ (u.afterEnd i).eng = u.eng ∧
      (u.afterEnd i).dir.aliasIndex = u.dir.aliasIndex := by
  by_cases he : u.endsWith i q
  · rw [afterEnd_frees u i q here he, freeSlot_recAt, if_pos rfl] at h
    simp at h
  · rw [afterEnd_stays u i q here he]
    exact ⟨rfl, rfl, rfl⟩

/-- The frame of a transaction's end, with the release of the bus. -/
theorem releaseBus_endFrame {u : State} {i : Slot} {q : Record} {k : Seg} (here : u.recAt i = some q)
    (others : OtherRecords s u i) (index : u.dir.aliasIndex = s.dir.aliasIndex) (rest : KeepsRest s u)
    (engs : ∀ j, j ≠ k → u.engine j = s.engine j) (queues : ∀ j, j ≠ k → u.poolSeg j = s.poolSeg j) :
    EndFrame s ((u.afterEnd i).releaseBus k) k i := by
  have ends := (rest.trans (afterEnd_keepsRest u i)).trans (releaseBus_keepsRest (u.afterEnd i) k)
  have at_ : ∀ j, ((u.afterEnd i).releaseBus k).recAt j = (u.afterEnd i).recAt j := recAt_of_dir (by simp)
  have pool : ((u.afterEnd i).releaseBus k).pool = u.pool := by simp
  refine ⟨fun j hj => ?_, fun j hj => ?_, ends.share k, ends.reservation, fun h => ?_, fun h j hj => ?_, ends.holdLimit,
    ends.catchAll, ends.stallLimit, ends.hm, ends.mp, ends.pu, ends.lines, ends.faults, ends.inReset, ends.pending⟩
  · rw [at_, afterEnd_recAt_other _ (Ne.symm hj), others j hj]
  · rw [poolSeg_of_pool pool, queues j hj]
  · rw [at_] at h
    have dir : ((u.afterEnd i).releaseBus k).dir = (u.afterEnd i).dir := by simp
    rw [dir, (afterEnd_keeps u i q here h).2.2, index]
  · rw [at_] at h
    rw [releaseBus_engine, if_neg hj, engine_of_eng (afterEnd_keeps u i q here h).2.1, engs j hj]

/-- The request that waited at the engine, once the bus is released: it goes with the pause, or as it went before. -/
theorem releaseBus_requestLeft {u : State} {i : Slot} {q : Record} {k : Seg} {goes : FwdRequest → Prop}
    (here : u.recAt i = some q) (request : RequestAfter s s.up u k goes False)
    (unasked : q.state ≠ .bound → u.Unasked i) (pause : (u.engine k).pausePending = (s.engine k).pausePending) :
    RequestAfter s s.up ((u.afterEnd i).releaseBus k) k (fun w => (s.engine k).pausePending = true ∨ goes w) False := by
  obtain ⟨up, requests⟩ := afterEnd_unasked here unasked
  have after := (request.andSame (requests k) up).trans (releaseBus_requestAfter (u.afterEnd i) k)
  rw [(afterEnd_engine u i q here k).2.2, pause] at after
  exact after.congr fun _ _ => or_comm

theorem releaseBus_afterEnd_released {u : State} {i : Slot} {q : Record} {k : Seg} (here : u.recAt i = some q)
    (same : (u.engine k).rate = (s.engine k).rate ∧ (u.engine k).resumeWaiting = (s.engine k).resumeWaiting ∧
      (u.engine k).pausePending = (s.engine k).pausePending)
    (kept : OpsKept s u fun op => op.work = .pause k ∧ op.answer = none) :
    Released s ((u.afterEnd i).releaseBus k) k := by
  obtain ⟨rate, resume, pause⟩ := afterEnd_engine u i q here k
  refine releaseBus_released k ⟨rate.trans same.1, resume.trans same.2.1, pause.trans same.2.2⟩ ?_
  refine kept.trans ((afterEnd_kept u i q here).imp fun op h => .inr ⟨fun n => ?_, fun b => ?_⟩) <;> simp [h.1]

theorem Moved.flags {m : State} {i : Slot} {r q : Record} (h : Moved s m i r q) (j : Seg) :
    (m.engine j).rate = (s.engine j).rate ∧ (m.engine j).resumeWaiting = (s.engine j).resumeWaiting ∧
    (m.engine j).pausePending = (s.engine j).pausePending := by
  rw [h.engines j]
  exact ⟨rfl, rfl, rfl⟩

theorem discarded_moved (x : Tx) {i : Slot} {r : Record} (hr : s.recAt i = some r) :
    Moved s (s.putRec i (some (r.probeOff x))) i r (r.probeOff x) := (Moved.refl hr).put rfl

theorem probe_ends (k : Seg) (x : Tx) (i : Slot) (answer : ProbeAnswer) {r : Record} (hr : s.recAt i = some r) :
    EndFrame s ((s.probeOver k x i answer).releaseBus k) k i ∧
    Released s ((s.probeOver k x i answer).releaseBus k) k := by
  by_cases ha : ProbeApplies x k r
  · have hk : r.segment = k := ha.2.2.1
    obtain ⟨v, mv, e, -⟩ := probeJudged_moved (s := s) x i r (judge r answer (x.byteRead answer)) (x.byteRead answer) ha.2.1
    rw [probeOver_applied k x i answer r _ hr ha rfl, e]
    refine ⟨releaseBus_endFrame mv.here mv.others mv.index (mv.rest.trans (settleOps_keepsRest v _))
      (fun j hj => mv.elsewhere (hk ▸ hj)) (fun j hj => mv.queues j (hk ▸ hj)),
      releaseBus_afterEnd_released mv.here (mv.flags k) ?_⟩
    exact (OpsKept.of_dc mv.dc _).trans ((settleOps_kept v _).imp fun op h => .inr (if_neg (by simp [h.1])))
  · have mv := discarded_moved x hr
    rw [probeOver_discarded k x i answer r hr ha]
    exact ⟨releaseBus_endFrame mv.here mv.others mv.index mv.rest (fun _ _ => rfl) (fun _ _ => rfl),
      releaseBus_afterEnd_released mv.here ⟨rfl, rfl, rfl⟩ (.of_dc rfl _)⟩

theorem probe_ofFreeSlot (k : Seg) : ProbeOfFreeSlot s (s.releaseBus k) k ((s.engine k).pausePending = true) := by
  have engine := releaseBus_engine s k k
  rw [if_pos rfl] at engine
  exact ⟨by simp, by simp, by simp, by simp, by simp, by simp, fun j hj => by rw [releaseBus_engine, if_neg hj],
    by rw [engine], by rw [engine],
    fun op ho hw => releaseBus_kept s k op ho (.inr hw), releaseBus_requestAfter s k⟩

theorem probe_discarded (k : Seg) (x : Tx) (i : Slot) (answer : ProbeAnswer) {r : Record} (hr : s.recAt i = some r)
    (ha : ¬ProbeApplies x k r) :
    ProbeDiscarded s ((s.probeOver k x i answer).releaseBus k) k x i r ((s.engine k).pausePending = true) := by
  have mv := discarded_moved x hr
  rw [probeOver_discarded k x i answer r hr ha]
  generalize hu : s.putRec i (some (r.probeOff x)) = u at mv
  have here := mv.here
  have dc : u.dc = s.dc := mv.dc
  have request : RequestAfter s s.up u k (fun _ => False) False := by
    subst hu
    exact .of_same rfl rfl fun _ _ => id
  have pause : (u.engine k).pausePending = (s.engine k).pausePending := by subst hu; rfl
  have pool : u.pool = s.pool := by subst hu; rfl
  have recAfter := recAt_of_dir (s := u.afterEnd i) (t := (u.afterEnd i).releaseBus k) (by simp) i
  refine ⟨LeftBehind.kept (afterEnd_leftBehind ?_ rfl mv.index mv.rest.pu mv.changed (.of_dc dc _))
    (releaseBus_keepsEnd _ k), ?_, fun h => ?_, fun h op ho hw => ?_, fun law => ?_⟩
  · rw [here, if_neg fun c => c.2 c.1]
  · have ended : ((u.afterEnd i).releaseBus k).pool = u.pool := by simp
    rw [ended, pool]
  · have ends : u.endsWith i (r.probeOff x) := by
      by_contra c
      rw [recAfter, afterEnd_stays u i _ here c, recAt_putRec_self] at h
      cases h
    rw [afterEnd_frees u i _ here ends]
    exact ((freeSlot_busProbes u i _ here).of_dc dc).kept (releaseBus_keepsEnd _ k).answered
  · refine releaseBus_kept _ k op ?_ (.inr (by simp [hw]))
    rw [recAfter] at h
    rw [(afterEnd_keeps u i _ here h).1, dc]
    exact ho
  · have unasked : (r.probeOff x).state ≠ .bound → u.Unasked i := mv.unasked hr law.2.2.2.2.1
    exact (releaseBus_requestLeft here request unasked pause).congr fun _ _ => (or_false _).to_iff

theorem probe_applied (k : Seg) (x : Tx) (i : Slot) (answer : ProbeAnswer) {r : Record} (o : ProbeOutcome)
    (hr : s.recAt i = some r) (ha : ProbeApplies x k r) (ho : judge r answer (x.byteRead answer) = o) :
    ProbeApplied s ((s.probeOver k x i answer).releaseBus k) k x i r o (x.byteRead answer)
      ((s.engine k).pausePending = true) := by
  obtain ⟨-, hret, hk, -⟩ := id ha
  obtain ⟨sameAlias, -, qret⟩ := Record.probed_kept s.hm.holdOff o (x.byteRead answer) (r.probeOff x)
  obtain ⟨v, mv, e, identity⟩ := probeJudged_moved (s := s) x i r o (x.byteRead answer) hret
  rw [probeOver_applied k x i answer r o hr ha ho, e]
  unfold ProbeApplied
  dsimp only
  generalize (r.probeOff x).probed s.hm.holdOff o (x.byteRead answer) = q at *
  generalize hu : (v.settleOps fun op => if op.work = .probe i true then
    some ⟨.probe, op.tag, .done, probeResults o (x.byteRead answer) q.state⟩ else none) = u
  have here : u.recAt i = some { q with undelivered := s.lostOnMove i r q } := by rw [← hu]; exact mv.here
  have waits : OpsKept s u fun op => op.answer = none ∧ op.work ≠ .probe i true := by
    rw [← hu]
    exact (OpsKept.of_dc mv.dc _).trans ((settleOps_kept v _).imp fun op h => .inr (if_neg h.2))
  have rest : KeepsRest v u := by rw [← hu]; exact settleOps_keepsRest v _
  have ended : ((u.afterEnd i).releaseBus k).pool = v.pool := by
    rw [← hu]
    simp
  have au : ∀ j : Slot, v.au.changed[j.val] = true → ((u.afterEnd i).releaseBus k).au.changed[j.val] = true := fun j h =>
    ((rest.trans (afterEnd_keepsRest u i)).trans (releaseBus_keepsRest _ k)).changed j h
  have answered : Answered s u (fun w => w = .probe i true) fun op =>
      ⟨.probe, op.tag, .done, probeResults o (x.byteRead answer) q.state⟩ := by
    rw [← hu]
    exact Answered.of_dc mv.dc (settleOps_answers v _ _ _ fun op hw => if_pos hw)
  refine ⟨LeftBehind.kept (afterEnd_leftBehind here ?_ ?_ ?_ (fun h => rest.changed i (mv.changed h)) ?_)
    (releaseBus_keepsEnd _ k), fun h => ?_, fun hb hn => ?_, fun law => ?_, fun h => ?_, ?_⟩
  · exact sameAlias
  · rw [← hu]; exact mv.index
  · rw [← hu]; exact mv.rest.pu
  · refine waits.imp fun op h => ⟨h.1, ?_⟩
    rcases h.2 with ⟨n, hw⟩ | hw <;> simp [hw]
  · rw [ended, mv.stays]
    rintro ⟨hb, hn, -⟩
    exact h.elim (fun c => c hb) hn
  · have purge := mv.purged hb hn qret
    unfold PurgedOf at purge ⊢
    rw [poolSeg_of_pool ended, ← hk]
    exact purge
  · have request : RequestAfter s s.up u k (LeavesFor i r q) False := by
      rw [← hu, ← hk]
      exact mv.request.andSame rfl rfl
    refine releaseBus_requestLeft here request (fun hn => ?_) ?_
    · rw [← hu]
      exact mv.unasked hr law.2.2.2.2.1 hn
    · rw [← hu]
      exact (mv.flags k).2.2
  · exact au i (h.elim mv.changed identity)
  · have last := (answered.kept ((afterEnd_kept u i _ here).imp fun _ h => .inl h)).kept
      (releaseBus_keepsEnd _ k).answered
    revert last
    generalize x.byteRead answer = byte
    cases o <;> cases byte <;> exact id

/-- Settles O46: a probe's end frees the bus, and its outcome is applied, discarded, or of no record. -/
theorem probeEnds : Obligations.ProbeEnds := by
  intro k answer low s x i hres ⟨hx, hsil⟩ hprobe hslot
  have run : exec (.probeEnd k answer low) s =
      .next (((s.probeOver k x i answer).releaseBus k).settle low) := by
    have ends : s.endProbe k answer low = ((s.probeOver k x i answer).releaseBus k).settle low := by
      unfold State.endProbe
      simp only [hx, hslot]
      exact if_pos ⟨hprobe, hsil⟩
    have live : s.live (fun s => s.endProbe k answer low) = s.endProbe k answer low := by
      unfold State.live
      rw [hres]
      rfl
    exact congrArg Host.Outcome.next (live.trans ends)
  have byte : x.byteRead answer = _ := rfl
  refine ⟨(s.probeOver k x i answer).releaseBus k, run, ?_, fun hr => ?_, fun r hr => ⟨(probe_ends k x i answer hr).1,
    fun ha => probe_discarded k x i answer hr ha, fun o ha hn hm => ?_⟩⟩
  · cases hr : s.recAt i with
    | none =>
      rw [probeOver_free k x i answer hr]
      exact releaseBus_released k ⟨rfl, rfl, rfl⟩ (.of_dc rfl _)
    | some r => exact (probe_ends k x i answer hr).2
  · rw [probeOver_free k x i answer hr]
    exact probe_ofFreeSlot k
  · have applied := probe_applied k x i answer o hr ha (judge_eq r answer _ o hn ?_ ?_)
    · cases answer <;> exact applied
    · cases answer <;> exact hm
    · rintro rfl; rfl

end Sys2Proof.Machine
end

section
namespace Sys2Proof.Machine

variable {s : State}

/-! ### The end of an event, for the responses (R132) -/

theorem conclude_ops (s : State) : s.conclude.dc.ops = s.dc.ops.filter fun o => o.answer.isNone := rfl

/-- An answer given in the event is in the response queue at its end. -/
theorem Answered.concluded {m : State} {work : LongWork → Prop} {answer : LongOp → Response}
    (h : Answered s m work answer) {op : LongOp} (ho : op ∈ s.dc.ops) (hw : work op.work) (ha : op.answer = none) :
    answer op ∈ m.mp.responses ++ m.dc.ops.filterMap fun o => o.answer :=
  List.mem_append_right _ (List.mem_filterMap.mpr ⟨_, h op ho hw ha, rfl⟩)

/-! ### The claim of a RETIRE (R21, R22, R141) -/

theorem answerProbes_answers (s : State) (i : Slot) (code : ResultCode) (b : Bool) :
    Answered s (s.answerProbes i code) (fun w => w = .probe i b) fun op => ⟨.probe, op.tag, code, []⟩ :=
  settleOps_answers s _ _ _ fun op hw => if_pos (by cases b <;> simp [hw])

theorem answerProbes_kept (s : State) (i : Slot) (code : ResultCode) :
    OpsKept s (s.answerProbes i code) fun op => op.answer ≠ none ∨ ∀ b, op.work ≠ .probe i b :=
  (settleOps_kept s _).imp fun _ h => h.imp_right fun hw => if_neg fun c => c.elim (hw true) (hw false)

theorem retireCheck_free (i : Slot) (h : s.recAt i = none) : s.retireCheck i = s := by
  unfold State.retireCheck
  rw [h]

theorem retireChecks_of_check {es : List Entry} (i : Slot) (h : ∀ e ∈ es, e.slot = i) (hc : s.retireCheck i = s) :
    s.retireChecks es = s := by
  induction es with
  | nil => rfl
  | cons e rest ih =>
    have here : s.retireCheck e.slot = s := by rw [h e (by simp), hc]
    exact (congrArg (State.retireChecks · rest) here).trans (ih fun x hx => h x (by simp [hx]))

/-- Retirement checks for entries of one slot free that slot or do nothing (R24). -/
theorem retireChecks_cases {es : List Entry} (i : Slot) (h : ∀ e ∈ es, e.slot = i) :
    s.retireChecks es = s ∨ s.retireChecks es = s.freeSlot i := by
  rcases retireCheck_cases s i with hc | hc
  · cases es with
    | nil => exact .inl rfl
    | cons e rest =>
      right
      have here : s.retireCheck e.slot = s.freeSlot i := by rw [h e (by simp), hc]
      exact (congrArg (State.retireChecks · rest) here).trans (retireChecks_of_check i (fun x hx => h x (by simp [hx]))
        (retireCheck_free i (by rw [freeSlot_recAt, if_pos rfl])))
  · exact .inl (retireChecks_of_check i h hc)

/-- The claim before it is judged: the PROBEs of the slot answered, and with DISCARD its entries purged (R21). -/
def State.retireClaim (s : State) (i : Slot) (r : Record) (discard : Bool) : State :=
  if discard then (s.answerProbes i .retired).purge r.segment (ofSlot i) else s.answerProbes i .retired

/-- The entries the claim has removed (R141). -/
def State.claimed (s : State) (i : Slot) (r : Record) (discard : Bool) : Nat :=
  if discard then (s.purged r.segment i).length else 0

/-- The record after its claim. -/
def State.claimedFrom (s : State) (i : Slot) (r : Record) (discard : Bool) : Record :=
  { r with undelivered := if discard then moreLost r.undelivered (s.purged r.segment i).length else r.undelivered }

theorem applyRetire_eq (c : Command) (i : Slot) (r : Record) (discard : Bool) :
    ∃ u, (u = s.retireClaim i r discard ∨ u = (s.retireClaim i r discard).freeSlot i) ∧
      (((s.retireClaim i r discard).retireCheck i = s.retireClaim i r discard) → u = s.retireClaim i r discard) ∧
      s.applyRetire c i r discard = u.finishRetire c i (s.claimed i r discard) := by
  unfold State.applyRetire State.retireClaim State.claimed
  cases discard with
  | false => exact ⟨_, .inl rfl, fun _ => rfl, rfl⟩
  | true =>
    have slots : ∀ e ∈ (s.answerProbes i .retired).purgeable r.segment (ofSlot i), e.slot = i := fun e he => by
      simpa [ofSlot] using (List.mem_filter.mp he).2
    exact ⟨_, retireChecks_cases i slots, retireChecks_of_check i slots, rfl⟩

@[simp] theorem retireClaim_blocks (s : State) (i : Slot) (r : Record) (discard : Bool) :
    (s.retireClaim i r discard).up = s.up ∧ (s.retireClaim i r discard).eng = s.eng ∧
    (s.retireClaim i r discard).mp = s.mp ∧ (s.retireClaim i r discard).dc = (s.answerProbes i .retired).dc ∧
    (s.retireClaim i r discard).dir.aliasIndex = s.dir.aliasIndex := by
  unfold State.retireClaim
  split <;> simp

theorem retireClaim_keepsRest (s : State) (i : Slot) (r : Record) (discard : Bool) :
    KeepsRest s (s.retireClaim i r discard) := by
  have answered := settleOps_keepsRest s fun o =>
    if o.work = .probe i true ∨ o.work = .probe i false then some (plainResponse .probe o.tag .retired) else none
  unfold State.retireClaim
  split
  · exact answered.trans (purge_keepsRest _ r.segment (ofSlot i))
  · exact answered

theorem retireClaim_recAt (i : Slot) (r : Record) (discard : Bool) (hr : s.recAt i = some r) :
    (s.retireClaim i r discard).recAt i = some (s.claimedFrom i r discard) := by
  unfold State.retireClaim State.claimedFrom
  cases discard with
  | false => exact hr
  | true =>
    refine (purge_slot_recAt_self _ r.segment i).trans ?_
    have here : (s.answerProbes i .retired).recAt i = some r := hr
    rw [here]
    rfl

theorem retireClaim_others (i : Slot) (r : Record) (discard : Bool) : OtherRecords s (s.retireClaim i r discard) i := by
  intro j hj
  unfold State.retireClaim
  split
  · exact purge_slot_recAt_other _ r.segment (Ne.symm hj)
  · rfl

theorem retireClaim_purgedOf (i : Slot) (r : Record) : PurgedOf s (s.retireClaim i r true) r.segment i :=
  purge_slot_purgedOf (s.answerProbes i .retired) r.segment i

theorem retireClaim_queues (i : Slot) (r : Record) (discard : Bool) {k : Seg} (hk : k ≠ r.segment) :
    (s.retireClaim i r discard).poolSeg k = s.poolSeg k := by
  unfold State.retireClaim
  split
  · rw [purge_poolSeg, if_neg hk]
    rfl
  · rfl

/-! ### The entries of a slot in its queue -/

theorem bus_waiting_append (s : State) (k : Seg) : s.busEntries k ++ s.waitingEntries k = (s.poolSeg k).queue := by
  unfold State.busEntries State.waitingEntries
  split
  · exact List.take_append_drop 1 _
  · rfl

theorem hasQueued_iff (s : State) (k : Seg) (i : Slot) :
    s.hasQueued k i = true ↔ (s.poolSeg k).queue.filter (fun e => e.slot == i) ≠ [] := by
  simp [State.hasQueued, List.filter_eq_nil_iff]

/-- With no entry of the slot on the bus, the queue's entries of the slot are those a purge removes. -/
theorem queued_eq_purged {k : Seg} {i : Slot} (hb : ∀ e ∈ s.busEntries k, e.slot ≠ i) :
    (s.poolSeg k).queue.filter (fun e => e.slot == i) = s.purged k i := by
  have none : (s.busEntries k).filter (fun e => e.slot == i) = [] :=
    List.filter_eq_nil_iff.mpr fun e he => by simpa using hb e he
  rw [← bus_waiting_append s k, List.filter_append, none]
  rfl

theorem purgedOf_queue {m : State} {k : Seg} {i : Slot} (hb : ∀ e ∈ s.busEntries k, e.slot ≠ i) (h : PurgedOf s m k i) :
    (m.poolSeg k).queue = (s.poolSeg k).queue.filter fun e => e.slot != i := by
  have all : (s.busEntries k).filter (fun e => e.slot != i) = s.busEntries k :=
    List.filter_eq_self.mpr fun e he => by simpa using hb e he
  rw [h, ← bus_waiting_append s k, List.filter_append, all]

/-- The claim of a record that owes nothing leaves its queue without the slot's entries. -/
theorem retireClaim_queue {i : Slot} {r : Record} {discard : Bool} (hb : ∀ e ∈ s.busEntries r.segment, e.slot ≠ i)
    (hq : (s.poolSeg r.segment).queue.filter (fun e => e.slot == i) = [] ∨ discard = true) :
    ((s.retireClaim i r discard).poolSeg r.segment).queue =
      (s.poolSeg r.segment).queue.filter fun e => e.slot != i := by
  cases discard with
  | true => exact purgedOf_queue hb (retireClaim_purgedOf i r)
  | false =>
    have empty := List.filter_eq_nil_iff.mp (hq.resolve_right (by simp))
    exact (List.filter_eq_self.mpr fun e he => by simpa using empty e he).symm

/-! ### A RETIRE that frees the slot, and one that waits -/

theorem applyRetire_frees (c : Command) {i : Slot} {r : Record} {discard : Bool} (hr : s.recAt i = some r)
    (hm : r.marker = .none) (hq : (s.retireClaim i r discard).hasQueued r.segment i = false) :
    s.applyRetire c i r discard =
      ((s.retireClaim i r discard).freeSlot i).answerDone c (twoBytes (s.claimed i r discard)) := by
  obtain ⟨u, hu, -, e⟩ := applyRetire_eq (s := s) c i r discard
  rw [e]
  unfold State.finishRetire
  rcases hu with rfl | rfl
  · have owes : (s.retireClaim i r discard).owes i (s.claimedFrom i r discard) = false := by
      simp [State.owes, State.claimedFrom, hm, hq]
    rw [retireClaim_recAt i r discard hr]
    exact if_neg (by rw [owes]; simp)
  · rw [freeSlot_recAt, if_pos rfl]

theorem applyRetire_waits (c : Command) {i : Slot} {r : Record} {discard : Bool} (hr : s.recAt i = some r)
    (ho : r.marker ≠ .none ∨ ((s.poolSeg r.segment).queue.filter (fun e => e.slot == i) ≠ [] ∧ discard = false)) :
    s.applyRetire c i r discard = (((s.retireClaim i r discard).enterRetiring i).addOp
      (.retire i (s.claimed i r discard)) c.tag).conclude := by
  obtain ⟨u, -, stays, e⟩ := applyRetire_eq (s := s) c i r discard
  have here := retireClaim_recAt i r discard hr
  have owes : (s.retireClaim i r discard).owes i (s.claimedFrom i r discard) = true := by
    rcases ho with h | ⟨h, rfl⟩
    · simp [State.owes, State.claimedFrom, h]
    · have queued : (s.retireClaim i r false).hasQueued r.segment i = true := (hasQueued_iff _ _ _).mpr h
      simp [State.owes, State.claimedFrom, queued]
  have unchanged : (s.retireClaim i r discard).retireCheck i = s.retireClaim i r discard := by
    unfold State.retireCheck
    rw [here]
    refine if_neg fun ⟨_, hm, hq⟩ => ?_
    simp [State.owes, hm, hq] at owes
  rw [e, stays unchanged]
  unfold State.finishRetire
  rw [here]
  exact if_pos owes

/-- The record enters RETIRING, unless it is RETIRING already (R21, R22). -/
def Record.retired (r : Record) : Record := if r.state = .retiring then r else r.toRetiring

theorem enterRetiring_moved {i : Slot} {r : Record} (hr : s.recAt i = some r) :
    Moved s (s.enterRetiring i) i r r.retired ∧ (s.enterRetiring i).pool = s.pool ∧
      (r.state ≠ .retiring → (s.enterRetiring i).au.changed[i.val] = true) := by
  unfold State.enterRetiring Record.retired
  rw [hr]
  dsimp only
  split
  · rename_i h
    exact ⟨.refl hr, rfl, fun c => absurd h c⟩
  · obtain ⟨mv, changed⟩ := moveRec_moved i Record.toRetiring r r.toRetiring hr
      (by rw [moveRec_recAt s i _ r hr]; simp [Record.toRetiring]) rfl
    exact ⟨mv, mv.stays (by simp [Record.toRetiring]), fun _ => changed⟩

end Sys2Proof.Machine
end

section
namespace Sys2Proof.Machine

variable {s : State}

theorem runRetire_refused (c : Command) {i : Slot} {discard : Bool} (hd : decodeRetire c.args = some (i, discard)) :
    (s.recAt i = none → s.runRetire c = s.answer c .slotFree) ∧
    ∀ r, s.recAt i = some r → (s.isProtected i = true → s.runRetire c = s.answer c .protectedSlot) ∧
      (s.isProtected i = false → s.runRetire c = s.applyRetire c i r discard) := by
  unfold State.runRetire
  rw [hd]
  refine ⟨fun hr => ?_, fun r hr => ⟨fun hp => ?_, fun hp => ?_⟩⟩ <;> dsimp only <;> rw [hr]
  · exact if_pos hp
  · exact if_neg (by rw [hp]; simp)

/-- The answers the claim itself gives stand until they are queued (R145). -/
theorem retireClaim_overtakes (i : Slot) (r : Record) (discard : Bool) (b : Bool) :
    Answered s (s.retireClaim i r discard) (fun w => w = .probe i b) fun op => ⟨.probe, op.tag, .retired, []⟩ :=
  (answerProbes_answers s i .retired b).kept (.of_dc (retireClaim_blocks s i r discard).2.2.2.1 _)

theorem retireClaim_kept (i : Slot) (r : Record) (discard : Bool) :
    OpsKept s (s.retireClaim i r discard) fun op => op.answer ≠ none ∨ ∀ b, op.work ≠ .probe i b :=
  (answerProbes_kept s i .retired).trans (.of_dc (retireClaim_blocks s i r discard).2.2.2.1 _)

/-- At the end of the event the answers given are in the response queue. -/
theorem Answered.answeredDone {m : State} {work : LongWork → Prop} {answer : LongOp → Response}
    (h : Answered s m work answer) (r : Response) {op : LongOp} (ho : op ∈ s.dc.ops) (hw : work op.work)
    (ha : op.answer = none) : answer op ∈ (m.concludeWith r).mp.responses :=
  List.mem_append_left _ (h.concluded ho hw ha)

/-! What answering the command in its event leaves. -/

section
variable (u : State) (c : Command) (results : List Byte)

theorem answerDone_last : (u.answerDone c results).mp.responses.getLast? = some ⟨c.kind, c.tag, .done, results⟩ :=
  List.getLast?_concat

theorem answerDone_commands : (u.answerDone c results).mp.commands = u.mp.commands := rfl

theorem answerDone_recAt (i : Slot) : (u.answerDone c results).recAt i = u.recAt i :=
  recAt_of_dir (concludeWith_frame u _).2.1 i

theorem answerDone_index : (u.answerDone c results).dir.aliasIndex = u.dir.aliasIndex :=
  congrArg Directory.aliasIndex (concludeWith_frame u _).2.1

theorem answerDone_engine (k : Seg) : (u.answerDone c results).engine k = u.engine k :=
  engine_of_eng (concludeWith_frame u _).2.2.1 k

theorem answerDone_poolSeg (k : Seg) : (u.answerDone c results).poolSeg k = u.poolSeg k :=
  poolSeg_of_pool (concludeWith_frame u _).2.2.2.1 k

theorem answerDone_keepsRest (h : s.mp = u.mp) (k : KeepsRest s u) : (u.answerDone c results).hm = s.hm ∧
    (u.answerDone c results).pu = s.pu ∧ (u.answerDone c results).au.lines = s.au.lines ∧
    (u.answerDone c results).pool.reservation = s.pool.reservation ∧
    (u.answerDone c results).mp.commands = s.mp.commands :=
  ⟨k.hm, k.pu, k.lines, k.reservation, by rw [answerDone_commands, h]⟩

end

theorem addOp_ops (work : LongWork) (tag : Byte) : (s.addOp work tag).dc.ops = s.dc.ops ++ [⟨work, tag, none⟩] := rfl

theorem Answered.addOp {m : State} {work : LongWork → Prop} {answer : LongOp → Response}
    (h : Answered s m work answer) (w : LongWork) (tag : Byte) : Answered s (m.addOp w tag) work answer :=
  fun op ho hw ha => List.mem_append_left _ (h op ho hw ha)

/-! What a command that waits leaves at the event's end. -/

theorem addOp_conclude_last (work : LongWork) (tag : Byte) :
    (s.addOp work tag).conclude.dc.ops.getLast? = some ⟨work, tag, none⟩ := by
  rw [conclude_ops, addOp_ops, List.filter_append]
  exact List.getLast?_concat

theorem addOp_conclude_frame (work : LongWork) (tag : Byte) : (s.addOp work tag).conclude.up = s.up ∧
    (s.addOp work tag).conclude.dir = s.dir ∧ (s.addOp work tag).conclude.eng = s.eng ∧
    (s.addOp work tag).conclude.pool = s.pool := by
  simp [State.addOp]

theorem Record.retired_eq (r : Record) : (r.state = .retiring → r.retired = r) ∧
    (r.state ≠ .retiring → r.retired = r.toRetiring) ∧ r.retired.undelivered = r.undelivered :=
  ⟨fun h => if_pos h, fun h => if_neg h, by unfold Record.retired; split <;> rfl⟩

/-- Settles O26: the claim is refused in the order of R141, frees the slot, or leaves the record RETIRING. -/
theorem retireFreesOrWaits : Obligations.RetireFreesOrWaits := by
  unfold Obligations.RetireFreesOrWaits
  intro s tag args rest hq refused
  have run : exec .retire s = .next ((s.taken rest).runRetire ⟨.retire, tag, args⟩) :=
    congrArg _ (taking_of_queues s hq _)
  refine ⟨fun hn => ?_, fun i discard hd => ?_⟩
  · rw [run]
    simp only [State.runRetire, hn]
    rfl
  obtain ⟨free, held⟩ := runRetire_refused (s := s.taken rest) ⟨.retire, tag, args⟩ hd
  refine ⟨fun hr => by rw [run, free hr]; rfl, fun r hr => ?_⟩
  intro queued overtaken
  obtain ⟨guarded, taken⟩ := held r hr
  have here := retireClaim_recAt (s := s.taken rest) i r discard hr
  have others := retireClaim_others (s := s.taken rest) i r discard
  have queues := fun k => retireClaim_queues (s := s.taken rest) i r discard (k := k)
  have claim := retireClaim_keepsRest (s.taken rest) i r discard
  have overtakes := retireClaim_overtakes (s := s.taken rest) i r discard
  have kept := retireClaim_kept (s := s.taken rest) i r discard
  obtain ⟨up, eng, -, -, index⟩ := retireClaim_blocks (s.taken rest) i r discard
  refine ⟨fun hp => by rw [run, guarded hp]; rfl, fun hp hm hb hq => ?_, fun hp ho => ?_⟩
  · have queue := retireClaim_queue (s := s.taken rest) hb hq
    have unqueued : ((s.taken rest).retireClaim i r discard).hasQueued r.segment i = false := by
      unfold State.hasQueued
      rw [queue]
      simp
    have removed : (s.taken rest).claimed i r discard = if discard then queued.length else 0 :=
      congrArg (fun es : List Entry => if discard then es.length else 0) (queued_eq_purged hb).symm
    have e := (run.trans (congrArg _ (taken hp))).trans
      (congrArg _ (applyRetire_frees (s := s.taken rest) ⟨.retire, tag, args⟩ hr hm unqueued))
    rw [removed] at e
    generalize (s.taken rest).retireClaim i r discard = v at *
    obtain ⟨freed, -, changed, probes, retires, -⟩ := freeSlot_freedFrom v i _ here
    have answered := freeSlot_kept v i
    have keeps := claim.trans (freeSlot_keepsRest v i)
    have pool := freeSlot_pool v i
    have engine := freeSlot_engine v i _ here
    have request := freeSlot_requestAfter v i _ here
    have segment : ((s.taken rest).claimedFrom i r discard).segment = r.segment := rfl
    rw [segment] at request engine
    obtain ⟨hm', pu, lines, reservation, commands⟩ := answerDone_keepsRest (v.freeSlot i) ⟨.retire, tag, args⟩
      (twoBytes (if discard then queued.length else 0)) keeps.mp.symm keeps
    refine ⟨_, e, (answerDone_recAt _ _ _ i).trans freed, fun j hj => ?_, (answerDone_index _ _ _).trans ?_, fun k => ?_,
      changed, ?_, answerDone_last _ _ _, commands, hm', pu, lines, fun k hk => ?_, reservation,
      fun op ho b hw ha => ?_, fun op ho n hw ha => ?_, ?_, fun k => ?_⟩
    · rw [answerDone_recAt, freeSlot_recAt, if_neg (Ne.symm hj), others j hj]
      rfl
    · rw [freeSlot_aliasIndex v i _ here, index]
      rfl
    · rw [answerDone_engine]
      exact probes k
    · rw [answerDone_poolSeg, poolSeg_of_pool pool, queue]
      rfl
    · rw [answerDone_poolSeg, poolSeg_of_pool pool, queues k hk]
      rfl
    · exact ((overtakes b).kept (answered.imp fun _ h => .inl h)).answeredDone _ ho hw ha
    · refine (Answered.after (s := s) (kept.imp fun _ h => .inr fun b => ?_) (retires n)).answeredDone _ ho hw ha
      rw [h.1]
      nofun
    · rw [up] at request
      exact (request.ofSame (s := s) (congrArg Engine.request (engine_of_eng eng _))).andSame
        (congrArg Engine.request (answerDone_engine _ _ _ _)) (concludeWith_frame _ _).1
    · rw [answerDone_engine, engine k, engine_of_eng eng k]
      by_cases hk : k = r.segment
      · simp only [if_pos hk]
        rfl
      · simp only [if_neg hk]
        rfl
  · have e := (run.trans (congrArg _ (taken hp))).trans
      (congrArg _ (applyRetire_waits (s := s.taken rest) ⟨.retire, tag, args⟩ hr ho))
    have stays : discard = false → ((s.taken rest).retireClaim i r discard).pool = s.pool := by rintro rfl; rfl
    have purge : discard = true → PurgedOf (s.taken rest) ((s.taken rest).retireClaim i r discard) r.segment i := by
      rintro rfl; exact retireClaim_purgedOf i r
    obtain ⟨mv, pool, changed⟩ := enterRetiring_moved here
    obtain ⟨asWas, entered, lost⟩ := Record.retired_eq ((s.taken rest).claimedFrom i r discard)
    have keeps := claim.trans mv.rest
    have segment : ((s.taken rest).claimedFrom i r discard).segment = r.segment := rfl
    have engines := mv.engines
    have request := mv.request
    rw [segment] at engines request
    generalize ((s.taken rest).claimedFrom i r discard).retired = q at *
    generalize (s.taken rest).retireClaim i r discard = v at *
    generalize v.enterRetiring i = w at *
    obtain ⟨endUp, endDir, endEng, endPool⟩ := addOp_conclude_frame (s := w)
      (.retire i ((s.taken rest).claimed i r discard)) tag
    refine ⟨_, q, e, (recAt_of_dir endDir i).trans mv.here, fun j hj => ?_, fun h => ?_, fun h => ⟨changed h, ?_⟩, lost,
      ?_, addOp_conclude_last _ _, fun h => ?_, fun h => ?_, fun op hop b hw ha => ?_, ?_, congrArg Port.commands keeps.mp,
      keeps.hm, keeps.pu, keeps.lines, fun k hk => ?_, keeps.reservation, fun k => ?_⟩
    · exact (recAt_of_dir endDir j).trans ((mv.others j hj).trans (others j hj))
    · rw [asWas h]
      rfl
    · rw [entered h]
      rfl
    · rw [endDir, mv.index, index]
      rfl
    · rw [endPool, pool, stays h]
    · have purged := purge h
      unfold PurgedOf at purged ⊢
      rw [poolSeg_of_pool endPool, poolSeg_of_pool pool]
      exact purged
    · exact (((overtakes b).kept (.of_dc mv.dc _)).addOp _ tag).concluded hop hw ha
    · rw [up] at request
      exact ((request.ofSame (s := s) (congrArg Engine.request (engine_of_eng eng _))).congr fun _ _ => Iff.rfl).andSame
        (congrArg Engine.request (engine_of_eng endEng _)) endUp
    · rw [poolSeg_of_pool endPool, poolSeg_of_pool pool, queues k hk]
      rfl
    · rw [engine_of_eng endEng, engines k, engine_of_eng eng k]
      by_cases hk : k = r.segment
      · simp only [if_pos hk]
        rfl
      · simp only [if_neg hk]
        rfl

end Sys2Proof.Machine
end

section
namespace Sys2Proof.Machine

variable {s : State}

/-! ### REBIND, part by part (R20) -/

/-- A record moved to another pair no longer owns the probe on a bus (R17, R20). -/
theorem rebindMarker_engine (s : State) (i : Slot) (same : Bool) (j : Seg) :
    (s.rebindMarker i same).engine j = { s.engine j with
      tx := (s.engine j).tx.map fun x =>
        if x.slot = some i ∧ ¬same = true then { x with ownsMarker := false, sameRecord := false } else x } := by
  unfold State.rebindMarker
  cases same with
  | true => simp
  | false =>
    rw [if_neg (by simp), engine_of_eng (s := s.setEng (s.eng.map (Engine.disown i))) (by simp)]
    simp [State.engine, Engine.disown]

theorem rebindMarker_recAt (s : State) (i : Slot) (same : Bool) :
    (s.rebindMarker i same).recAt i =
      (s.recAt i).map fun r => { r with marker := if same then r.marker else .none } := by
  unfold State.rebindMarker
  cases same with
  | true => simp
  | false =>
    rw [if_neg (by simp), clearMarker_recAt, if_pos rfl]
    rfl

theorem rebindMarker_others (s : State) (i : Slot) (same : Bool) : OtherRecords s (s.rebindMarker i same) i := by
  intro j hj
  unfold State.rebindMarker
  split
  · rfl
  · rw [clearMarker_recAt, if_neg (Ne.symm hj)]
    rfl

@[simp] theorem rebindMarker_blocks (s : State) (i : Slot) (same : Bool) :
    (s.rebindMarker i same).up = s.up ∧ (s.rebindMarker i same).pool = s.pool ∧
    (s.rebindMarker i same).dc = s.dc := by
  unfold State.rebindMarker
  split <;> simp

/-- The slot leaves the probe queue of a segment its record leaves, and no other (log entry 34). -/
theorem leaveQueue_engine (s : State) (i : Slot) (old new j : Seg) :
    (s.leaveQueue i old new).engine j = { s.engine j with
      probeQueue := if j = old ∧ j ≠ new then (s.engine j).probeQueue.filter fun x => x != i
        else (s.engine j).probeQueue } := by
  unfold State.leaveQueue
  by_cases h : old = new
  · rw [if_pos h, if_neg fun c => c.2 (c.1.trans h)]
  · rw [if_neg h, engine_modEngine]
    by_cases hj : j = old
    · subst hj
      rw [if_pos rfl, if_pos ⟨rfl, h⟩]
    · rw [if_neg hj, if_neg fun c => hj c.1]

theorem rebindMarker_keepsRest (s : State) (i : Slot) (same : Bool) : KeepsRest s (s.rebindMarker i same) := by
  unfold State.rebindMarker
  split
  · exact .refl s
  · exact (setEng_keepsRest s _).trans (modRec_keepsRest _ i _)

theorem leaveQueue_keepsRest (s : State) (i : Slot) (old new : Seg) : KeepsRest s (s.leaveQueue i old new) := by
  unfold State.leaveQueue
  split
  · exact .refl s
  · exact modEngine_keepsRest s old _

theorem moveNotes_ops (s : State) (i : Slot) : (s.moveNotes i false).dc.ops = s.dc.ops.map fun op =>
    if op.work = .probe i true then { op with work := .probe i false } else op := by
  refine List.map_congr_left fun op _ => ?_
  obtain ⟨w, tag, answer⟩ := op
  cases w with
  | probe j b =>
    by_cases e : j = i
    · subst e
      cases b <;> simp
    · simp [e]
  | _ => simp

/-- The record at its new pair (R10, R20), with the claims its purged entries passed (R11); its marker stays only where
the pair does. -/
def State.reboundRecord (s : State) (i : Slot) (r : Record) (k : Seg) (a : Addr) : Record :=
  { r.toRebound k a with
    undelivered := if r.state = .bound then moreLost r.undelivered (s.purged r.segment i).length else r.undelivered
    marker := if r.segment = k ∧ r.target = a then r.marker else .none }

/-- The probe queue of segment `j` once the record has left its old segment. -/
def State.queueLeft (s : State) (i : Slot) (r : Record) (k j : Seg) : List Slot :=
  if j = r.segment ∧ j ≠ k then (s.engine j).probeQueue.filter (fun x => x != i) else (s.engine j).probeQueue

/-- A REBIND claim taken, but for the request of its probe. -/
def State.rebound (s : State) (i : Slot) (r : Record) (k : Seg) (a : Addr) : State :=
  (((s.moveRec i (Record.toRebound k a)).rebindMarker i (decide (r.segment = k ∧ r.target = a))).leaveQueue i r.segment
    k).moveNotes i false

theorem applyRebind_eq (s : State) (i : Slot) (r : Record) (k : Seg) (a : Addr) :
    s.applyRebind i r k a = (s.rebound i r k a).requestProbe i := rfl

/-- What a REBIND leaves, but for the probe queues and the long operations (R20). -/
structure Rebound (s m : State) (i : Slot) (r : Record) (k : Seg) (a : Addr) : Prop where
  here : m.recAt i = some (s.reboundRecord i r k a)
  others : OtherRecords s m i
  index : m.dir.aliasIndex = s.dir.aliasIndex
  request : RequestAfter s s.up m r.segment (fun w => w.slot = some i ∧ r.state = .bound) False
  purged : r.state = .bound → PurgedOf s m r.segment i
  stays : r.state ≠ .bound → m.pool = s.pool
  queues : ∀ j, j ≠ r.segment → m.poolSeg j = s.poolSeg j
  engines : ∀ j, m.engine j = { s.engine j with
    tx := (s.engine j).tx.map fun x =>
      if x.slot = some i ∧ ¬(r.segment = k ∧ r.target = a) then { x with ownsMarker := false, sameRecord := false } else x
    request := if j = r.segment then (m.engine j).request else (s.engine j).request
    probeQueue := (m.engine j).probeQueue }
  rest : KeepsRest s m
  changed : m.au.changed[i.val] = true

theorem rebound_engine {i : Slot} {r : Record} {k : Seg} {a : Addr} {v : State}
    (hv : v = s.moveRec i (Record.toRebound k a)) (j : Seg) : (s.rebound i r k a).engine j = { v.engine j with
      tx := (v.engine j).tx.map fun x =>
        if x.slot = some i ∧ ¬(r.segment = k ∧ r.target = a) then { x with ownsMarker := false, sameRecord := false } else x
      probeQueue := v.queueLeft i r k j } := by
  subst hv
  unfold State.rebound
  simp only [engine_moveNotes, leaveQueue_engine, rebindMarker_engine, decide_eq_true_eq]
  rfl

theorem rebound_rebound {i : Slot} {r : Record} (hr : s.recAt i = some r) (k : Seg) (a : Addr) :
    Rebound s (s.rebound i r k a) i r k a ∧
    (∀ j, ((s.rebound i r k a).engine j).probeQueue = s.queueLeft i r k j) ∧
    (s.rebound i r k a).dc.ops = s.dc.ops.map fun op =>
      if op.work = .probe i true then { op with work := .probe i false } else op := by
  obtain ⟨mv, changed⟩ := moveRec_lost i (Record.toRebound k a) r hr (by simp [Record.toRebound])
  have engine := rebound_engine (s := s) (i := i) (r := r) (k := k) (a := a) rfl
  have up : (s.rebound i r k a).up = (s.moveRec i (Record.toRebound k a)).up := by simp [State.rebound]
  have pool : (s.rebound i r k a).pool = (s.moveRec i (Record.toRebound k a)).pool := by simp [State.rebound]
  have index : (s.rebound i r k a).dir.aliasIndex = (s.moveRec i (Record.toRebound k a)).dir.aliasIndex := by
    simp [State.rebound]
  have records : ∀ j, (s.rebound i r k a).recAt j = ((s.moveRec i (Record.toRebound k a)).rebindMarker i
      (decide (r.segment = k ∧ r.target = a))).recAt j := recAt_of_dir (by simp [State.rebound])
  have ops : (s.rebound i r k a).dc.ops = _ := moveNotes_ops _ i
  have rest : KeepsRest (s.moveRec i (Record.toRebound k a)) (s.rebound i r k a) :=
    ((rebindMarker_keepsRest _ i _).trans (leaveQueue_keepsRest _ i r.segment k)).trans (setDc_keepsRest _ _)
  have dc : (((s.moveRec i (Record.toRebound k a)).rebindMarker i
      (decide (r.segment = k ∧ r.target = a))).leaveQueue i r.segment k).dc = s.dc := by simp
  rw [dc] at ops
  generalize s.rebound i r k a = u at *
  generalize s.moveRec i (Record.toRebound k a) = v at *
  have probeQueue : ∀ j, (u.engine j).probeQueue = s.queueLeft i r k j := fun j => by
    rw [engine j]
    unfold State.queueLeft
    rw [mv.engines j]
  have leaves : ∀ w : FwdRequest, LeavesFor i r (s.reboundRecord i r k a) w ↔ w.slot = some i ∧ r.state = .bound :=
    fun w => and_congr_right fun _ => and_iff_left (by simp [State.reboundRecord, Record.toRebound])
  refine ⟨⟨?_, fun j hj => ?_, index.trans mv.index, ?_, fun hb => ?_, fun hb => ?_, fun j hj => ?_, fun j => ?_,
    mv.rest.trans rest, rest.changed i changed⟩, probeQueue, ops⟩
  · rw [records, rebindMarker_recAt, mv.here]
    unfold State.reboundRecord State.lostOnMove
    simp only [Option.map_some, decide_eq_true_eq]
    simp [Record.toRebound]
  · rw [records, rebindMarker_others _ i _ j hj, mv.others j hj]
  · refine (mv.request.congr fun w _ => ?_).andSame (by rw [engine]) up
    exact leaves w
  · have p := mv.purged hb (by simp [Record.toRebound]) (by simp [Record.toRebound])
    unfold PurgedOf at p ⊢
    rwa [poolSeg_of_pool pool]
  · rw [pool, mv.stays fun c => hb c.1]
  · rw [poolSeg_of_pool pool, mv.queues j hj]
  · rw [engine j, mv.engines j]
    by_cases hj : j = r.segment
    · simp only [if_pos hj]
    · simp only [if_neg hj]

/-- The probe asked for at the new pair: queued on a segment that has not failed, refused on one that has (R96, R98). -/
theorem applyRebind_rebound {i : Slot} {r : Record} (hr : s.recAt i = some r) (k : Seg) (a : Addr) :
    Rebound s (s.applyRebind i r k a) i r k a := by
  obtain ⟨rb, -, -⟩ := rebound_rebound hr k a
  have state : ((s.rebound i r k a).engine k).state = (s.engine k).state := by rw [rb.engines k]
  have segment : (s.reboundRecord i r k a).segment = k := rfl
  rw [applyRebind_eq]
  by_cases hk : (s.engine k).state = .failed
  · rw [requestProbe_failed _ i _ rb.here (by rw [segment, state, hk]) (by simp [State.reboundRecord, Record.toRebound])]
    exact { rb with
      request := rb.request.andSame rfl rfl
      rest := rb.rest.trans (settleOps_keepsRest _ _) }
  · rw [requestProbe_eq _ i _ rb.here (by rw [segment, state]; exact hk), segment]
    have engine := engine_modEngine (s.rebound i r k a) k
    refine { rb with
      request := rb.request.andSame ?_ rfl
      engines := fun j => ?_
      rest := rb.rest.trans (modEngine_keepsRest _ k _) }
    · rw [engine]
      split
      · rename_i e; rw [e]; rfl
      · rfl
    · have old := rb.engines j
      rw [engine]
      split
      · rename_i e
        subst e
        rw [old]
        by_cases hj : j = r.segment
        · simp only [if_pos hj]
          rfl
        · simp only [if_neg hj]
          rfl
      · exact old

theorem applyRebind_probeQueue {i : Slot} {r : Record} (hr : s.recAt i = some r) (k : Seg) (a : Addr) (j : Seg) :
    ((s.applyRebind i r k a).engine j).probeQueue =
      if j = k ∧ (s.engine k).state ≠ .failed ∧ i ∉ s.queueLeft i r k j then s.queueLeft i r k j ++ [i]
      else s.queueLeft i r k j := by
  obtain ⟨rb, queue, -⟩ := rebound_rebound hr k a
  have state : ((s.rebound i r k a).engine k).state = (s.engine k).state := by rw [rb.engines k]
  have segment : (s.reboundRecord i r k a).segment = k := rfl
  rw [applyRebind_eq]
  by_cases hk : (s.engine k).state = .failed
  · rw [requestProbe_failed _ i _ rb.here (by rw [segment, state, hk]) (by simp [State.reboundRecord, Record.toRebound]),
      if_neg fun c => c.2.1 hk]
    exact queue j
  · rw [requestProbe_eq _ i _ rb.here (by rw [segment, state]; exact hk), segment, engine_modEngine]
    by_cases hj : j = k
    · subst hj
      rw [if_pos rfl]
      unfold Engine.enqueueProbe
      rw [queue j]
      by_cases hi : i ∈ s.queueLeft i r j j
      · rw [if_pos hi, if_neg fun c => c.2.2 hi]
      · rw [if_neg hi, if_pos ⟨rfl, hk, hi⟩]
    · rw [if_neg hj, if_neg fun c => hj c.1]
      exact queue j

theorem applyRebind_ops {i : Slot} {r : Record} (hr : s.recAt i = some r) (k : Seg) (a : Addr) :
    ((s.engine k).state ≠ .failed → (s.applyRebind i r k a).dc.ops = s.dc.ops.map fun op =>
      if op.work = .probe i true then { op with work := .probe i false } else op) ∧
    ((s.engine k).state = .failed → ∀ op ∈ s.dc.ops, ∀ b, op.work = .probe i b → op.answer = none →
      { op with work := .probe i false, answer := some ⟨.probe, op.tag, .segmentFault, []⟩ } ∈
        (s.applyRebind i r k a).dc.ops) := by
  obtain ⟨rb, -, ops⟩ := rebound_rebound hr k a
  have state : ((s.rebound i r k a).engine k).state = (s.engine k).state := by rw [rb.engines k]
  have segment : (s.reboundRecord i r k a).segment = k := rfl
  rw [applyRebind_eq]
  refine ⟨fun hk => ?_, fun hk op ho b hw ha => ?_⟩
  · rw [requestProbe_eq _ i _ rb.here (by rw [segment, state]; exact hk)]
    exact ops
  · rw [requestProbe_failed _ i _ rb.here (by rw [segment, state, hk]) (by simp [State.reboundRecord, Record.toRebound])]
    have noted : { op with work := .probe i false } ∈ (s.rebound i r k a).dc.ops := by
      rw [ops]
      refine List.mem_map.mpr ⟨op, ho, ?_⟩
      cases b with
      | true => rw [if_pos hw]
      | false => rw [if_neg (by simp [hw]), ← hw]
    exact settleOps_answers _ _ (fun w => w = .probe i false) (fun op => ⟨.probe, op.tag, .segmentFault, []⟩)
      (fun _ h => if_pos h) _ noted rfl ha

end Sys2Proof.Machine
end

section
namespace Sys2Proof.Machine

variable {s : State}

/-! ### Probe queues through the arbiters' choices (R54, R56) -/

/-- A start takes the request it serves, or the slot it probes, from its engine (R56, R58). -/
theorem beginWork_engine_self (s : State) (k : Seg) (w : Work) : (s.beginWork k w).engine k =
    match w with
    | .forward _ => { s.engine k with request := none }
    | .delivery _ _ => s.engine k
    | .probe i _ => { s.engine k with probeQueue := (s.engine k).probeQueue.erase i } := by
  cases w with
  | forward q =>
    simp only [State.beginWork]
    split <;> simp
  | delivery e r => simp [State.beginWork]
  | probe i r => simp [State.beginWork]

theorem beginWork_probeQueue (s : State) (k : Seg) (w : Work) :
    ((s.beginWork k w).engine k).probeQueue.Sublist (s.engine k).probeQueue := by
  rw [beginWork_engine_self]
  cases w with
  | probe i r => exact List.erase_sublist
  | _ => exact .refl _

/-- An arbiter's choice adds nothing to a probe queue. -/
theorem arbitrate_probeQueue (s : State) (low : LowLines) (k j : Seg) :
    ((s.arbitrate low k).engine j).probeQueue.Sublist (s.engine j).probeQueue := by
  by_cases hj : j = k
  · subst hj
    unfold State.arbitrate
    split
    · split
      · split
        · simp only [State.enterRecovering, engine_modEngine_self]
          exact .refl _
        · simp only [State.putOnBus, engine_modEngine_self]
          exact beginWork_probeQueue s j _
      · rw [(offerDiscovery_keeps s j j low).2]
    · exact .refl _
  · rw [arbitrate_engine_other s low hj]

theorem arbitrateAll_probeQueue (s : State) (low : LowLines) (j : Seg) :
    ((s.arbitrateAll low).engine j).probeQueue.Sublist (s.engine j).probeQueue :=
  (arbitrate_probeQueue _ low 3 j).trans ((arbitrate_probeQueue _ low 2 j).trans
    ((arbitrate_probeQueue _ low 1 j).trans (arbitrate_probeQueue _ low 0 j)))

/-! ### What the end of a command's event leaves, with arbiters choosing -/

theorem settleWith_recAt (m : State) (low : LowLines) (r : Response) (i : Slot) :
    ((m.settleWith low r).recAt i).map Record.unmarked = (m.recAt i).map Record.unmarked := by
  rw [show (m.settleWith low r).recAt i = (m.arbitrateAll low).recAt i from
    recAt_of_dir (concludeWith_frame _ r).2.1 i]
  exact (arbitrateAll_onlyArbiters m low).1 i

theorem settleWith_engine (m : State) (low : LowLines) (r : Response) (k : Seg) (h : (m.engine k).state ≠ .idle) :
    (m.settleWith low r).engine k = m.engine k := by
  obtain ⟨-, -, -, -, -, -, engines, -⟩ := arbitrateAll_onlyArbiters m low
  exact (engine_of_eng (concludeWith_frame _ r).2.2.1 k).trans (engines k h)

theorem settleWith_probeQueue (m : State) (low : LowLines) (r : Response) (k : Seg) :
    ((m.settleWith low r).engine k).probeQueue.Sublist (m.engine k).probeQueue := by
  rw [show (m.settleWith low r).engine k = (m.arbitrateAll low).engine k from
    engine_of_eng (concludeWith_frame _ r).2.2.1 k]
  exact arbitrateAll_probeQueue m low k

theorem concludeWith_au (u : State) (r : Response) :
    (u.concludeWith r).au.changed = u.au.changed ∧ (u.concludeWith r).au.lines = u.au.lines := ⟨rfl, rfl⟩

theorem concludeWith_mp (u : State) (r : Response) :
    (u.concludeWith r).mp.responses.getLast? = some r ∧ (u.concludeWith r).mp.commands = u.mp.commands :=
  ⟨List.getLast?_concat, rfl⟩

theorem settleWith_au (m : State) (low : LowLines) (r : Response) :
    (m.settleWith low r).au.changed = m.au.changed ∧ (m.settleWith low r).au.lines = m.au.lines := by
  have au : (m.arbitrateAll low).au = m.au := by simp
  have given := concludeWith_au (m.arbitrateAll low) r
  rwa [au] at given

theorem settleWith_mp (m : State) (low : LowLines) (r : Response) :
    (m.settleWith low r).mp.responses.getLast? = some r ∧ (m.settleWith low r).mp.commands = m.mp.commands := by
  have mp : (m.arbitrateAll low).mp = m.mp := by simp
  have given := concludeWith_mp (m.arbitrateAll low) r
  rwa [mp] at given

/-! ### The checks of a REBIND in their order (R20, R140) -/

theorem runRebind_checked (low : LowLines) (c : Command) {i : Slot} {k : Seg} {a : Addr} {code : ResultCode}
    (hd : decodeRebind c.args = some (i, k, a)) (h : s.rebindRefusal i k a = some code) :
    s.runRebind low c = s.answer c code := by
  unfold State.runRebind
  rw [hd]
  dsimp only
  rw [h]

theorem runRebind_taken (low : LowLines) (c : Command) {i : Slot} {k : Seg} {a : Addr} {r : Record}
    (hd : decodeRebind c.args = some (i, k, a)) (hr : s.recAt i = some r) (h : s.rebindRefusal i k a = none) :
    s.runRebind low c = (s.applyRebind i r k a).settleDone low c [] := by
  unfold State.runRebind
  rw [hd]
  dsimp only
  rw [h, hr]

theorem rebindRefusal_some (s : State) (i : Slot) (k : Seg) (a : Addr) {r : Record} (hr : s.recAt i = some r) :
    let busy := r.state = .retiring ∨ r.marker = .forward ∨ r.marker = .delivery
    (s.isProtected i = true → s.rebindRefusal i k a = some .protectedSlot) ∧
    (s.isProtected i = false → busy → s.rebindRefusal i k a = some .busy) ∧
    (s.isProtected i = false → ¬busy → s.pairTakenByOther i k a = true → s.rebindRefusal i k a = some .targetInUse) := by
  intro busy
  unfold State.rebindRefusal
  rw [hr]
  dsimp only
  refine ⟨fun hp => if_pos hp, fun hp hb => ?_, fun hp hb ht => ?_⟩
  · rw [if_neg (by simp [hp]), if_pos hb]
  · rw [if_neg (by simp [hp]), if_neg hb, if_pos ht]

theorem State.queueLeft_not_mem {i : Slot} {r : Record} {k : Seg} (h : r.segment ≠ k) :
    i ∉ s.queueLeft i r k r.segment := by
  unfold State.queueLeft
  rw [if_pos ⟨rfl, h⟩]
  simp

/-- A record that only arbiters have reached is the same but for its in-flight marker. -/
theorem recAt_of_unmarked {o : Option Record} {p : Record} (h : o.map Record.unmarked = (some p).map Record.unmarked) :
    ∃ q, o = some q ∧ q = { p with marker := q.marker } := by
  obtain ⟨q, rfl, hq⟩ := Option.map_eq_some_iff.mp h
  exact ⟨q, rfl, Record.eq_of_unmarked hq⟩

/-- Settles O25: the checks one after the other; then the record at its new pair, and the arbiters choose. -/
theorem rebindMovesARecord : Obligations.RebindMovesARecord := by
  unfold Obligations.RebindMovesARecord
  intro s low tag args rest hq refused
  have run : exec (.rebind low) s = .next ((s.taken rest).runRebind low ⟨.rebind, tag, args⟩) :=
    congrArg _ (taking_of_queues s hq _)
  refine ⟨fun hn => ?_, fun i k a hd => ?_⟩
  · rw [run]
    simp only [State.runRebind, hn]
    rfl
  have refuse : ∀ code, (s.taken rest).rebindRefusal i k a = some code → exec (.rebind low) s = refused code :=
    fun code h => by
      rw [run, runRebind_checked low ⟨.rebind, tag, args⟩ hd h]
      rfl
  refine ⟨fun hr => refuse _ ?_, fun r hr => ?_⟩
  · unfold State.rebindRefusal
    rw [taken_recAt, hr]
  intro busy inUse
  obtain ⟨guarded, held, used⟩ := rebindRefusal_some (s.taken rest) i k a hr
  have taken := pairTakenByOther_iff (s.taken rest) i k a
  refine ⟨fun hp => refuse _ (guarded hp), fun hp hb => refuse _ (held hp hb),
    fun hp hb hu => refuse _ (used hp hb (taken.mpr hu)), fun hp hb hu => ?_⟩
  have free : (s.taken rest).rebindRefusal i k a = none :=
    (rebindRefusal_none _ i k a r hr).mpr ⟨hp, hb, Bool.eq_false_iff.mpr (mt taken.mp hu)⟩
  have e := run.trans (congrArg _ (runRebind_taken low ⟨.rebind, tag, args⟩ hd hr free))
  have rb := applyRebind_rebound (s := s.taken rest) hr k a
  have queue := applyRebind_probeQueue (s := s.taken rest) hr k a
  have ops := applyRebind_ops (s := s.taken rest) hr k a
  generalize (s.taken rest).applyRebind i r k a = m at *
  let answer : Response := ⟨.rebind, tag, .done, []⟩
  obtain ⟨q, hq, same⟩ := recAt_of_unmarked ((settleWith_recAt m low answer i).trans (by rw [rb.here]))
  obtain ⟨changed, lines⟩ := settleWith_au m low answer
  obtain ⟨last, commands⟩ := settleWith_mp m low answer
  obtain ⟨pool, hm, pu, stall, -, -, index⟩ := settleWith_frame m low answer
  have state : ∀ j, (m.engine j).state = (s.engine j).state := fun j => by rw [rb.engines j]; rfl
  refine ⟨m, m.settleWith low answer, q, e, rfl, hq, ?_, ?_, ⟨?_, rb.purged, ?_, fun j => ?_, ops.1, ops.2⟩,
    fun j hj => ?_, index.trans rb.index, (congrArg (·[i.val]) changed).trans rb.changed, fun hf hi => ?_, fun hk => ?_,
    fun j hk hj hi hx => ?_, fun j hj => ?_, fun hb => pool.trans (rb.stays hb), last,
    commands.trans (congrArg Port.commands rb.rest.mp), hm.trans rb.rest.hm, pu.trans rb.rest.pu,
    lines.trans rb.rest.lines, stall.trans rb.rest.stallLimit⟩
  · rw [same]
    rfl
  · rw [same]
    rfl
  · rw [rb.here, same]
    rfl
  · refine rb.request.congr fun w _ => and_congr_right fun _ => (and_iff_left ?_).symm
    rw [same]
    simp [State.reboundRecord, Record.toRebound]
  · have engine := rb.engines j
    rw [queue j] at engine
    exact engine
  · rw [settleWith_recAt, rb.others j hj]
    rfl
  · rw [settleWith_engine m low _ k (by rw [state]; exact hi), queue k]
    by_cases hmem : i ∈ (s.taken rest).queueLeft i r k k
    · rw [if_neg fun c => c.2.2 hmem]
      exact hmem
    · rw [if_pos ⟨rfl, hf, hmem⟩]
      simp
  · intro hmem
    have before := (settleWith_probeQueue m low answer r.segment).subset hmem
    rw [queue, if_neg fun c => hk c.1] at before
    exact State.queueLeft_not_mem hk before
  · have left : (s.taken rest).queueLeft i r k j = (s.engine j).probeQueue := if_neg fun c => hj c.1
    have tx : ((s.taken rest).engine j).tx.map (fun x =>
        if x.slot = some i ∧ ¬(r.segment = k ∧ r.target = a) then { x with ownsMarker := false, sameRecord := false }
        else x) = (s.engine j).tx := by
      rw [taken_engine]
      cases htx : (s.engine j).tx with
      | none => rfl
      | some x => exact congrArg some (if_neg fun c => hx x htx c.1)
    rw [settleWith_engine m low _ j (by rw [state]; exact hi), rb.engines j, if_neg hj, queue j,
      if_neg fun c => hk c.1, left, tx]
    rfl
  · exact (poolSeg_of_pool pool j).trans (rb.queues j hj)

end Sys2Proof.Machine
end

section
namespace Sys2Proof.Machine

/-! ### The laws of work, inside an event (R53 to R56, R81, R87)

Between the end of a transaction and the release of its bus an engine still shows the transaction whose marker the record
has lost. `Sound` states the laws of work with that engine's bus, `off`, taken as empty, and RestLaw where the event
needs it (`quiet`): an event that ends with the arbiters' choice does not. -/

/-- The transaction on the bus of engine `k`, the bus of engine `off` being taken as empty. -/
def State.busTx (s : State) (off : Option Seg) (k : Seg) : Option Tx := if off = some k then none else (s.engine k).tx

/-- Transaction `x` stands for the in-flight marker `m` of slot `i`. -/
structure Tx.Carries (x : Tx) (i : Slot) (m : Marker) : Prop where
  slot : x.slot = some i
  owns : x.ownsMarker = true
  loud : x.silent = false
  kind : x.kind.marker = m

structure State.Sound (s : State) (off : Option Seg) (quiet : Prop) : Prop where
  active : ∀ k, off ≠ some k → ((s.engine k).tx.isSome = true ↔ (s.engine k).state = .active)
  clear : ∀ k, off = some k → s.deliveryOnBus k = false
  slots : ∀ k x, s.busTx off k = some x → (x.slot = none ↔ x.kind = .catchAll ∨ x.kind = .discoveryProbe)
  marks : ∀ i r, s.recAt i = some r → ∀ k m, m ≠ .none →
    ((∃ x, s.busTx off k = some x ∧ x.Carries i m) ↔ r.segment = k ∧ r.marker = m)
  owners : ∀ k x, s.busTx off k = some x → x.ownsMarker = true → ∃ i r, x.slot = some i ∧ s.recAt i = some r
  owning : ∀ k x, s.busTx off k = some x → x.silent = false → x.kind = .forward ∨ x.kind = .delivery →
    x.ownsMarker = true
  entries : s.EntriesLaw
  requests : s.RequestLaw
  homes : s.ProbeHomeLaw
  nodup : s.ProbeQueuesLaw
  rest : quiet → s.RestLaw

variable {s : State}

theorem busTx_none (k : Seg) : s.busTx none k = (s.engine k).tx := if_neg (by simp)

theorem busTx_off (k : Seg) : s.busTx (some k) k = none := if_pos rfl

theorem busTx_other {k j : Seg} (h : j ≠ k) : s.busTx (some k) j = (s.engine j).tx :=
  if_neg fun c => h (Option.some.inj c).symm

/-- Between events `Sound` is the three laws of the obligation. -/
theorem sound_iff : s.Sound none True ↔ s.WorkLaw ∧ s.RestLaw ∧ s.ProbeQueuesLaw := by
  constructor
  · intro h
    have slots := h.slots
    have marks := h.marks
    have owners := h.owners
    have owning := h.owning
    simp only [busTx_none] at slots marks owners owning
    refine ⟨⟨fun k => h.active k (by simp), slots, ⟨fun i r hr k m hm => ?_, owners, owning⟩, h.entries, h.requests,
      h.homes⟩, h.rest trivial, h.nodup⟩
    refine Iff.trans ?_ (marks i r hr k m hm)
    exact exists_congr fun x => and_congr_right fun _ => ⟨fun ⟨a, b, c, d⟩ => ⟨a, b, c, d⟩, fun ⟨a, b, c, d⟩ => ⟨a, b, c, d⟩⟩
  · rintro ⟨⟨active, slots, ⟨marks, owners, owning⟩, entries, requests, homes⟩, rest, nodup⟩
    refine ⟨fun k _ => active k, nofun, ?_, fun i r hr k m hm => ?_, ?_, ?_, entries, requests, homes, nodup, fun _ => rest⟩
    · simp only [busTx_none]
      exact slots
    · simp only [busTx_none]
      refine Iff.trans ?_ (marks i r hr k m hm)
      exact exists_congr fun x => and_congr_right fun _ => ⟨fun ⟨a, b, c, d⟩ => ⟨a, b, c, d⟩, fun ⟨a, b, c, d⟩ => ⟨a, b, c, d⟩⟩
    · simp only [busTx_none]
      exact owners
    · simp only [busTx_none]
      exact owning

theorem State.Sound.weaken {off : Option Seg} {quiet : Prop} (h : s.Sound off quiet) : s.Sound off False :=
  { h with rest := False.elim }

/-! ### Changes that leave no more work -/

/-- What the laws of work read of a transaction. -/
def Tx.core (x : Tx) : TxKind × Option Slot × Bool × Bool := (x.kind, x.slot, x.ownsMarker, x.silent)

/-- What the laws of work read of a record. -/
def Record.work (r : Record) : RecState × Seg × Marker := (r.state, r.segment, r.marker)

/-- An engine that keeps its state and its transaction, and gets no work. -/
structure Engine.Fewer (e e' : Engine) : Prop where
  state : e'.state = e.state
  tx : e'.tx.map Tx.core = e.tx.map Tx.core
  request : e'.request = e.request ∨ e'.request = none
  discovery : e.discovery = none → e'.discovery = none
  probes : e'.probeQueue.Sublist e.probeQueue

/-- From `s` to `t` no engine, queue or record has got work, and the records and transactions are the same to the laws. -/
structure Fewer (s t : State) : Prop where
  engines : ∀ k, (s.engine k).Fewer (t.engine k)
  waiting : ∀ k, t.waitingEntries k ⊆ s.waitingEntries k
  head : ∀ k, s.deliveryOnBus k = true → (t.poolSeg k).queue.head? = (s.poolSeg k).queue.head?
  empty : ∀ k, (s.poolSeg k).queue = [] → (t.poolSeg k).queue = []
  marked : ∀ k, (s.poolSeg k).purgeMark = true → (t.poolSeg k).purgeMark = true
  unmarked : ∀ k, (t.poolSeg k).purgeMark = true → (s.poolSeg k).purgeMark = true ∨ s.deliveryOnBus k = true
  records : ∀ i, (t.recAt i).map Record.work = (s.recAt i).map Record.work

theorem Engine.Fewer.refl (e : Engine) : e.Fewer e := ⟨rfl, rfl, .inl rfl, id, .refl _⟩

theorem Engine.Fewer.trans {a b c : Engine} (h : a.Fewer b) (g : b.Fewer c) : a.Fewer c where
  state := g.state.trans h.state
  tx := g.tx.trans h.tx
  request := g.request.elim (fun e => h.request.imp e.trans e.trans) .inr
  discovery := g.discovery ∘ h.discovery
  probes := g.probes.trans h.probes

theorem core_eq {x y : Tx} : x.core = y.core ↔
    x.kind = y.kind ∧ x.slot = y.slot ∧ x.ownsMarker = y.ownsMarker ∧ x.silent = y.silent := by
  simp [Tx.core]

theorem some_of_core {o o' : Option Tx} (h : o'.map Tx.core = o.map Tx.core) {x : Tx} (hx : o' = some x) :
    ∃ y, o = some y ∧ x.core = y.core := by
  subst hx
  obtain ⟨y, hy, e⟩ := Option.map_eq_some_iff.mp h.symm
  exact ⟨y, hy, e.symm⟩

theorem isSome_of_core {o o' : Option Tx} (h : o'.map Tx.core = o.map Tx.core) : o'.isSome = o.isSome := by
  have := congrArg Option.isSome h
  simpa using this

theorem some_of_work {o o' : Option Record} (h : o'.map Record.work = o.map Record.work) {r : Record} (hr : o' = some r) :
    ∃ q, o = some q ∧ r.state = q.state ∧ r.segment = q.segment ∧ r.marker = q.marker := by
  subst hr
  obtain ⟨q, hq, e⟩ := Option.map_eq_some_iff.mp h.symm
  refine ⟨q, hq, ?_⟩
  simpa [Record.work, eq_comm] using e

/-- A delivery is on the bus, by its transaction. -/
theorem deliveryOnBus_iff (k : Seg) : s.deliveryOnBus k = true ↔
    ∃ x, (s.engine k).tx = some x ∧ x.kind = .delivery ∧ x.silent = false := by
  unfold State.deliveryOnBus
  cases (s.engine k).tx with
  | none => simp
  | some x => simp

theorem deliveryOnBus_of_core {s t : State} {k : Seg}
    (h : (t.engine k).tx.map Tx.core = (s.engine k).tx.map Tx.core) : t.deliveryOnBus k = s.deliveryOnBus k := by
  refine Bool.eq_iff_iff.mpr ?_
  rw [deliveryOnBus_iff, deliveryOnBus_iff]
  constructor
  · rintro ⟨x, hx, hk, hs⟩
    obtain ⟨y, hy, e⟩ := some_of_core h hx
    obtain ⟨ek, -, -, es⟩ := core_eq.mp e
    exact ⟨y, hy, ek ▸ hk, es ▸ hs⟩
  · rintro ⟨x, hx, hk, hs⟩
    obtain ⟨y, hy, e⟩ := some_of_core h.symm hx
    obtain ⟨ek, -, -, es⟩ := core_eq.mp e
    exact ⟨y, hy, ek ▸ hk, es ▸ hs⟩

theorem waitingEntries_of_core {s t : State} {k : Seg} (h : (t.engine k).tx.map Tx.core = (s.engine k).tx.map Tx.core)
    (hq : (t.poolSeg k).queue = (s.poolSeg k).queue) : t.waitingEntries k = s.waitingEntries k := by
  unfold State.waitingEntries
  rw [deliveryOnBus_of_core h, hq]

theorem Fewer.of_engines {s t : State} (engines : ∀ k, (s.engine k).Fewer (t.engine k)) (pool : t.pool = s.pool)
    (records : ∀ i, (t.recAt i).map Record.work = (s.recAt i).map Record.work) : Fewer s t where
  engines := engines
  waiting k := by rw [waitingEntries_of_core (engines k).tx (by rw [poolSeg_of_pool pool])]; exact fun _ => id
  head k _ := by rw [poolSeg_of_pool pool]
  empty k h := by rw [poolSeg_of_pool pool]; exact h
  marked k h := by rw [poolSeg_of_pool pool]; exact h
  unmarked k h := by rw [poolSeg_of_pool pool] at h; exact .inl h
  records := records

theorem Fewer.of_blocks {s t : State} (eng : t.eng = s.eng) (pool : t.pool = s.pool) (dir : t.dir = s.dir) : Fewer s t :=
  .of_engines (fun k => by rw [engine_of_eng eng]; exact .refl _) pool fun i => by rw [recAt_of_dir dir]

theorem Fewer.refl (s : State) : Fewer s s := .of_blocks rfl rfl rfl

theorem Fewer.trans {a b c : State} (h : Fewer a b) (g : Fewer b c) : Fewer a c where
  engines k := (h.engines k).trans (g.engines k)
  waiting k := List.Subset.trans (g.waiting k) (h.waiting k)
  head k hd := (g.head k (by rwa [deliveryOnBus_of_core (h.engines k).tx])).trans (h.head k hd)
  empty k := g.empty k ∘ h.empty k
  marked k := g.marked k ∘ h.marked k
  unmarked k hm := (g.unmarked k hm).elim (h.unmarked k) fun hd =>
    .inr (by rwa [deliveryOnBus_of_core (h.engines k).tx] at hd)
  records i := (g.records i).trans (h.records i)

theorem Fewer.modEngine (s : State) (k : Seg) (f : Engine → Engine) (h : (s.engine k).Fewer (f (s.engine k))) :
    Fewer s (s.modEngine k f) := by
  refine .of_engines (fun j => ?_) rfl fun _ => rfl
  rw [engine_modEngine]
  split
  · rename_i e; rw [e]; exact h
  · exact .refl _

theorem Fewer.putRec {i : Slot} {r q : Record} (hr : s.recAt i = some r) (hw : q.work = r.work) :
    Fewer s (s.putRec i (some q)) := by
  refine .of_engines (fun _ => .refl _) rfl fun j => ?_
  rw [recAt_putRec]
  split
  · rename_i e; subst e; rw [hr]; exact congrArg some hw
  · rfl

theorem Fewer.modRec (i : Slot) (f : Record → Record) (hf : ∀ r, (f r).work = r.work) : Fewer s (s.modRec i f) := by
  unfold State.modRec
  split
  · exact .putRec ‹_› (hf _)
  · exact .refl s

/-- The laws hold where there is only fewer work for the same records. -/
theorem State.Sound.fewer {t : State} {off : Option Seg} {quiet : Prop} (h : s.Sound off quiet) (f : Fewer s t) :
    t.Sound off quiet := by
  have bus : ∀ k, (t.busTx off k).map Tx.core = (s.busTx off k).map Tx.core := fun k => by
    unfold State.busTx
    split
    · rfl
    · exact (f.engines k).tx
  have delivery : ∀ k, t.deliveryOnBus k = s.deliveryOnBus k := fun k => deliveryOnBus_of_core (f.engines k).tx
  have carried : ∀ {a b : State} (_ : ∀ k, (b.busTx off k).map Tx.core = (a.busTx off k).map Tx.core) {k i m},
      (∃ x, b.busTx off k = some x ∧ x.Carries i m) → ∃ x, a.busTx off k = some x ∧ x.Carries i m := by
    rintro a b same k i m ⟨x, hx, hs, ho, hl, hk⟩
    obtain ⟨y, hy, e⟩ := some_of_core (same k) hx
    obtain ⟨ek, es, eo, el⟩ := core_eq.mp e
    exact ⟨y, hy, es ▸ hs, eo ▸ ho, el ▸ hl, ek ▸ hk⟩
  have recs : ∀ {i r}, s.recAt i = some r → ∃ q, t.recAt i = some q ∧ r.state = q.state ∧ r.segment = q.segment ∧
      r.marker = q.marker := fun hr => some_of_work (f.records _).symm hr
  refine ⟨fun k hk => ?_, fun k hk => by rw [delivery, h.clear k hk], fun k x hx => ?_, fun i r hr k m hm => ?_,
    fun k x hx ho => ?_, fun k x hx hl hk => ?_, fun k => ⟨fun e he => ?_, fun hd => ?_, fun hm => ?_⟩,
    fun k q i hq hi => ?_, fun k i hi => ?_, fun k => (h.nodup k).sublist (f.engines k).probes, fun hq k hk => ?_⟩
  · rw [isSome_of_core (f.engines k).tx, (f.engines k).state]
    exact h.active k hk
  · obtain ⟨y, hy, e⟩ := some_of_core (bus k) hx
    obtain ⟨ek, es, -, -⟩ := core_eq.mp e
    rw [ek, es]
    exact h.slots k y hy
  · obtain ⟨q, hq, -, hs, hk⟩ := some_of_work (f.records i) hr
    rw [hs, hk, ← h.marks i q hq k m hm]
    exact ⟨carried bus, carried fun k => (bus k).symm⟩
  · obtain ⟨y, hy, e⟩ := some_of_core (bus k) hx
    obtain ⟨-, es, eo, -⟩ := core_eq.mp e
    obtain ⟨i, r, hs, hr⟩ := h.owners k y hy (eo ▸ ho)
    obtain ⟨q, hq, -⟩ := recs hr
    exact ⟨i, q, es.trans hs, hq⟩
  · obtain ⟨y, hy, e⟩ := some_of_core (bus k) hx
    obtain ⟨ek, -, eo, el⟩ := core_eq.mp e
    rw [eo]
    exact h.owning k y hy (el ▸ hl) (ek ▸ hk)
  · obtain ⟨r, hr, hk, hst⟩ := (h.entries k).1 e (f.waiting k he)
    obtain ⟨q, hq, es, eg, -⟩ := recs hr
    exact ⟨q, hq, eg ▸ hk, es ▸ hst⟩
  · rw [delivery] at hd
    obtain ⟨x, e, rest, r, hx, hqueue, hs, hr, hk, hst⟩ := (h.entries k).2.1 hd
    obtain ⟨y, hy, ec⟩ := some_of_core (f.engines k).tx.symm hx
    obtain ⟨q, hq, es, eg, -⟩ := recs hr
    have head := f.head k hd
    rw [hqueue] at head
    obtain ⟨tail, htail⟩ := List.head?_eq_some_iff.mp head
    refine ⟨y, e, tail, q, hy, htail, (core_eq.mp ec).2.1 ▸ hs, hq, eg ▸ hk, fun hp => es ▸ hst ?_⟩
    exact Bool.eq_false_iff.mpr fun c => by rw [f.marked k c] at hp; cases hp
  · rw [delivery]
    exact (f.unmarked k hm).elim ((h.entries k).2.2 ·) id
  · have waits := (f.engines k).request.resolve_right (by rw [hq]; nofun)
    obtain ⟨r, hr, hk, hb⟩ := h.requests k q i (waits ▸ hq) hi
    obtain ⟨p, hp, es, eg, -⟩ := recs hr
    exact ⟨p, hp, eg ▸ hk, es ▸ hb⟩
  · obtain ⟨r, hr, hk⟩ := h.homes k i ((f.engines k).probes.subset hi)
    obtain ⟨p, hp, -, eg, -⟩ := recs hr
    exact ⟨p, hp, eg ▸ hk⟩
  · rw [(f.engines k).state] at hk
    obtain ⟨hreq, hqueue, hdisc, hprobe⟩ := h.rest hq k hk
    refine ⟨(f.engines k).request.elim (·.trans hreq) id, f.empty k hqueue, (f.engines k).discovery hdisc,
      fun i hi r hr => ?_⟩
    obtain ⟨p, hp, es, -⟩ := some_of_work (f.records i) hr
    rw [es]
    exact hprobe i ((f.engines k).probes.subset hi) p hp

end Sys2Proof.Machine
end

section
namespace Sys2Proof.Machine

variable {s : State} {off : Option Seg} {quiet : Prop}

/-! ### Shared operations that leave no more work -/

theorem Fewer.settleOps (s : State) (f : LongOp → Option Response) : Fewer s (s.settleOps f) := .of_blocks rfl rfl rfl

theorem Fewer.withdraw (s : State) (k : Seg) (how : Withdrawal) : Fewer s (s.withdraw k how) := by
  refine .of_engines (fun j => ?_) (by simp) fun i => congrArg _ (recAt_of_dir (by simp) i)
  rw [withdraw_engine]
  split
  · rename_i e; subst e; exact ⟨rfl, rfl, .inr rfl, id, .refl _⟩
  · exact .refl _

theorem Fewer.withdrawSlot (s : State) (k : Seg) (i : Slot) (how : Withdrawal) : Fewer s (s.withdrawSlot k i how) := by
  refine .of_engines (fun j => ?_) (by simp) fun i => congrArg _ (recAt_of_dir (by simp) i)
  rw [withdrawSlot_engine]
  split
  · rename_i e
    subst e
    refine ⟨rfl, rfl, ?_, id, .refl _⟩
    cases hq : (s.engine j).request with
    | none => exact .inl rfl
    | some q =>
      by_cases hs : q.slot = some i
      · exact .inr (by simp [Option.filter_some, hs])
      · exact .inl (by simp [Option.filter_some, hs])
  · exact .refl _

theorem work_of_uncounted {o o' : Option Record} (h : o'.map Record.uncounted = o.map Record.uncounted) :
    o'.map Record.work = o.map Record.work := by
  have := congrArg (Option.map Record.work) h
  rwa [Option.map_map, Option.map_map] at this

theorem Engine.Fewer.of_eq {e e' : Engine} (h : e' = e) : e.Fewer e' := h ▸ .refl e

theorem Fewer.undeliveredClaims (s : State) (es : List Entry) : Fewer s (s.undeliveredClaims es) :=
  .of_engines (fun j => .of_eq (engine_of_eng (by simp) j)) (by simp)
    fun i => work_of_uncounted (undeliveredClaims_uncounted s es i)

theorem Fewer.undeliveredClaim (s : State) (i : Slot) : Fewer s (s.undeliveredClaim i) :=
  .of_engines (fun j => .of_eq (engine_of_eng (by simp) j)) (by simp)
    fun j => work_of_uncounted (undeliveredClaim_uncounted s i j)

theorem deliveryOnBus_of_eng {t : State} (h : t.eng = s.eng) (k : Seg) : t.deliveryOnBus k = s.deliveryOnBus k := by
  unfold State.deliveryOnBus
  rw [engine_of_eng h]

/-- A purge leaves of the entries that wait those it does not cover (R87). -/
theorem purge_waitingEntries (s : State) (k : Seg) (covers : Entry → Bool) :
    (s.purge k covers).waitingEntries k = (s.waitingEntries k).filter fun e => !covers e := by
  have queue := purge_queue s k covers
  have delivery : (s.purge k covers).deliveryOnBus k = s.deliveryOnBus k := deliveryOnBus_of_eng (by simp) k
  unfold State.waitingEntries State.busEntries at *
  rw [delivery, queue]
  by_cases hd : s.deliveryOnBus k = true
  · simp only [hd, if_true]
    cases (s.poolSeg k).queue <;> simp
  · simp only [hd, if_false, Bool.false_eq_true]
    rfl

theorem purge_busEntries (s : State) (k : Seg) (covers : Entry → Bool) :
    (s.purge k covers).busEntries k = s.busEntries k := by
  have queue := purge_queue s k covers
  have delivery : (s.purge k covers).deliveryOnBus k = s.deliveryOnBus k := deliveryOnBus_of_eng (by simp) k
  unfold State.busEntries State.waitingEntries at *
  rw [delivery, queue]
  by_cases hd : s.deliveryOnBus k = true
  · simp only [hd, if_true]
    cases (s.poolSeg k).queue <;> simp
  · simp only [hd, if_false, Bool.false_eq_true]

theorem Fewer.purge (s : State) (k : Seg) (covers : Entry → Bool) : Fewer s (s.purge k covers) := by
  have pool := purge_poolSeg s k
  have engine : ∀ j, (s.purge k covers).engine j = s.engine j := engine_of_eng (by simp)
  refine ⟨fun j => by rw [engine]; exact .refl _, fun j => ?_, fun j hd => ?_, fun j hq => ?_, fun j hm => ?_,
    fun j hm => ?_, fun i => work_of_uncounted (purge_uncounted s k covers i)⟩
  · by_cases hj : j = k
    · subst hj
      rw [purge_waitingEntries]
      exact fun e he => (List.mem_filter.mp he).1
    · rw [waitingEntries_of (s := s) (congrArg Engine.tx (engine j)) (by rw [pool, if_neg hj])]
      exact fun _ => id
  · rw [pool]
    split
    · rename_i e
      subst e
      simp only [State.busEntries, State.waitingEntries, hd, if_true]
      cases hq : (s.poolSeg j).queue <;> simp
    · rfl
  · rw [pool]
    split
    · rename_i e
      subst e
      simp [State.busEntries, State.waitingEntries, hq]
    · exact hq
  · rw [pool]
    split
    · rename_i e
      subst e
      simp [hm]
    · exact hm
  · rw [pool] at hm
    split at hm
    · rename_i e
      subst e
      refine (Bool.or_eq_true _ _ ▸ hm).imp_right fun hb => ?_
      unfold State.busEntries at hb
      by_contra hd
      simp [hd] at hb
    · exact .inl hm

/-- The queues may be those of another state that has the same engines. -/
theorem Fewer.withQueues {u t : State} (h : Fewer s u) (eng : u.eng = s.eng) (queues : ∀ k, t.poolSeg k = u.poolSeg k)
    (engines : ∀ k, (s.engine k).Fewer (t.engine k))
    (records : ∀ i, (t.recAt i).map Record.work = (s.recAt i).map Record.work) : Fewer s t where
  engines := engines
  waiting k := by
    have same : (t.engine k).tx.map Tx.core = (u.engine k).tx.map Tx.core := by
      rw [(engines k).tx, engine_of_eng eng]
    rw [waitingEntries_of_core same (by rw [queues])]
    exact h.waiting k
  head k hd := by rw [queues]; exact h.head k hd
  empty k hq := by rw [queues]; exact h.empty k hq
  marked k hm := by rw [queues]; exact h.marked k hm
  unmarked k hm := by rw [queues] at hm; exact h.unmarked k hm
  records := records

/-! ### A change of a record's state (R10, R11) -/

/-- The record of slot `i` may change all but its segment and its marker, when what serves it allows its new state. -/
theorem State.Sound.record {t : State} {i : Slot} {r q : Record} (h : s.Sound off quiet) (hr : s.recAt i = some r)
    (hq : t.recAt i = some q) (others : OtherRecords s t i) (eng : t.eng = s.eng) (pool : t.pool = s.pool)
    (hk : q.segment = r.segment) (hm : q.marker = r.marker) (hret : r.state = .retiring → q.state = .retiring)
    (asked : q.state ≠ .bound → s.Unasked i)
    (queued : q.state ≠ .bound → q.state ≠ .retiring → ∀ k, (∀ e ∈ s.waitingEntries k, e.slot ≠ i) ∧
      ∀ e, e ∈ s.busEntries k → e.slot = i → (s.poolSeg k).purgeMark = true) : t.Sound off quiet := by
  have engine : ∀ k, t.engine k = s.engine k := engine_of_eng eng
  have queue : ∀ k, t.poolSeg k = s.poolSeg k := poolSeg_of_pool pool
  have bus : ∀ k, t.busTx off k = s.busTx off k := fun k => by unfold State.busTx; rw [engine]
  have delivery : ∀ k, t.deliveryOnBus k = s.deliveryOnBus k := deliveryOnBus_of_eng eng
  have waiting : ∀ k, t.waitingEntries k = s.waitingEntries k := fun k => waitingEntries_of (by rw [engine]) (by rw [queue])
  have keeps : ∀ {j p}, s.recAt j = some p → ∃ p', t.recAt j = some p' ∧ p'.segment = p.segment ∧
      (j = i → p' = q) ∧ (j ≠ i → p' = p) := fun {j p} hp => by
    by_cases hj : j = i
    · subst hj
      cases hr.symm.trans hp
      exact ⟨q, hq, hk, fun _ => rfl, fun c => absurd rfl c⟩
    · exact ⟨p, (others j hj).trans hp, rfl, fun c => absurd c hj, fun _ => rfl⟩
  refine ⟨fun k => by rw [engine]; exact h.active k, fun k => by rw [delivery]; exact h.clear k,
    fun k => by rw [bus]; exact h.slots k, fun j p hp k m hne => ?_, fun k x hx ho => ?_,
    fun k => by rw [bus]; exact h.owning k, fun k => ⟨fun e he => ?_, fun hd => ?_, ?_⟩, fun k w j hw hj => ?_,
    fun k j hj => ?_, fun k => by rw [engine]; exact h.nodup k, fun hquiet k hidle => ?_⟩
  · rw [bus]
    by_cases hj : j = i
    · subst hj
      cases hq.symm.trans hp
      rw [hk, hm]
      exact h.marks j r hr k m hne
    · exact h.marks j p ((others j hj).symm.trans hp) k m hne
  · rw [bus] at hx
    obtain ⟨j, p, hs, hp⟩ := h.owners k x hx ho
    obtain ⟨p', hp', -⟩ := keeps hp
    exact ⟨j, p', hs, hp'⟩
  · rw [waiting] at he
    obtain ⟨p, hp, hseg, hst⟩ := (h.entries k).1 e he
    obtain ⟨p', hp', hseg', here, there⟩ := keeps hp
    refine ⟨p', hp', hseg'.trans hseg, ?_⟩
    by_cases hj : e.slot = i
    · rw [here hj]
      by_contra c
      obtain ⟨hb, hrt⟩ := not_or.mp c
      exact (queued hb hrt k).1 e he hj
    · rw [there hj]
      exact hst
  · rw [delivery] at hd
    obtain ⟨x, e, rest, p, hx, hqueue, hs, hp, hseg, hst⟩ := (h.entries k).2.1 hd
    obtain ⟨p', hp', hseg', here, there⟩ := keeps hp
    refine ⟨x, e, rest, p', (engine k ▸ hx), (queue k ▸ hqueue), hs, hp', hseg'.trans hseg, fun hpm => ?_⟩
    rw [queue] at hpm
    by_cases hj : e.slot = i
    · rw [here hj]
      by_contra c
      obtain ⟨hb, hrt⟩ := not_or.mp c
      have onBus : e ∈ s.busEntries k := by simp [State.busEntries, hd, hqueue]
      rw [(queued hb hrt k).2 e onBus hj] at hpm
      cases hpm
    · rw [there hj]
      exact hst hpm
  · rw [queue, delivery]
    exact (h.entries k).2.2
  · rw [engine] at hw
    obtain ⟨p, hp, hseg, hb⟩ := h.requests k w j hw hj
    obtain ⟨p', hp', hseg', here, there⟩ := keeps hp
    refine ⟨p', hp', hseg'.trans hseg, ?_⟩
    by_cases hji : j = i
    · rw [here hji]
      by_contra c
      exact asked c k w hw (hji ▸ hj)
    · rw [there hji]
      exact hb
  · rw [engine] at hj
    obtain ⟨p, hp, hseg⟩ := h.homes k j hj
    obtain ⟨p', hp', hseg', -⟩ := keeps hp
    exact ⟨p', hp', hseg'.trans hseg⟩
  · rw [engine] at hidle ⊢
    rw [queue]
    obtain ⟨hreq, hqueue, hdisc, hprobe⟩ := h.rest hquiet k hidle
    refine ⟨hreq, hqueue, hdisc, fun j hj p hp => ?_⟩
    by_cases hji : j = i
    · subst hji
      cases hq.symm.trans hp
      exact hret (hprobe j hj r hr)
    · exact hprobe j hj p ((others j hji).symm.trans hp)

/-- An entry that waits or is on the bus unmarked belongs to a record that is BOUND or RETIRING (R81). -/
theorem State.Sound.unqueued {i : Slot} {r : Record} (h : s.Sound off quiet) (hr : s.recAt i = some r)
    (hb : r.state ≠ .bound) (hret : r.state ≠ .retiring) (k : Seg) : (∀ e ∈ s.waitingEntries k, e.slot ≠ i) ∧
      ∀ e, e ∈ s.busEntries k → e.slot = i → (s.poolSeg k).purgeMark = true := by
  refine ⟨fun e he hi => ?_, fun e he hi => ?_⟩
  · obtain ⟨p, hp, -, hst⟩ := (h.entries k).1 e he
    rw [hi] at hp
    cases hr.symm.trans hp
    exact hst.elim hb hret
  · by_contra c
    have hd : s.deliveryOnBus k = true := by
      by_contra nd
      simp [State.busEntries, nd] at he
    obtain ⟨x, e', rest, p, -, hqueue, -, hp, -, hst⟩ := (h.entries k).2.1 hd
    have same : e = e' := by simpa [State.busEntries, hd, hqueue] using he
    subst same
    rw [hi] at hp
    cases hr.symm.trans hp
    exact (hst (Bool.eq_false_iff.mpr c)).elim hb hret

/-- Entries of a slot stand in the queue of its record's segment alone. -/
theorem State.Sound.elsewhere {i : Slot} {r : Record} (h : s.Sound off quiet) (hr : s.recAt i = some r) {k : Seg}
    (hk : k ≠ r.segment) : ∀ e ∈ s.busEntries k ++ s.waitingEntries k, e.slot ≠ i := by
  intro e he hi
  rcases List.mem_append.mp he with he | he
  · have hd : s.deliveryOnBus k = true := by
      by_contra nd
      simp [State.busEntries, nd] at he
    obtain ⟨x, e', rest, p, -, hqueue, -, hp, hseg, -⟩ := (h.entries k).2.1 hd
    have same : e = e' := by simpa [State.busEntries, hd, hqueue] using he
    subst same
    rw [hi] at hp
    cases hr.symm.trans hp
    exact hk hseg.symm
  · obtain ⟨p, hp, hseg, -⟩ := (h.entries k).1 e he
    rw [hi] at hp
    cases hr.symm.trans hp
    exact hk hseg.symm

/-- A change of state with the effects of R11 leaves no more work, the record apart. -/
theorem Moved.fewer {m : State} {i : Slot} {r q : Record} (mv : Moved s m i r q) : Fewer s { m with dir := s.dir } := by
  have engines : ∀ k, (s.engine k).Fewer (m.engine k) := fun k => by
    have request : (m.engine k).request = (s.engine k).request ∨ (m.engine k).request = none := by
      by_cases hk : k = r.segment
      · subst hk
        have after := mv.request
        unfold RequestAfter at after
        cases hv : (s.engine r.segment).request with
        | none => simp only [hv] at after; exact .inr after.1
        | some v =>
          simp only [hv] at after
          by_cases hl : LeavesFor i r q v
          · exact .inr (after.2 hl).1
          · exact .inl (after.1 hl).1
      · rw [mv.elsewhere hk]
        exact .inl rfl
    have e := mv.engines k
    refine ⟨by rw [e], by rw [e], request, fun h => by rw [e]; exact h, ?_⟩
    rw [e]
  by_cases leaves : r.state = .bound ∧ q.state ≠ .bound ∧ q.state ≠ .retiring
  · refine (Fewer.purge s r.segment fun e => e.slot == i).withQueues (by simp) (fun j => ?_) engines fun _ => rfl
    rw [purge_poolSeg]
    split
    · rename_i e
      rw [e]
      exact mv.purged leaves.1 leaves.2.1 leaves.2.2
    · exact mv.queues j ‹_›
  · exact (Fewer.refl s).withQueues rfl (poolSeg_of_pool (mv.stays leaves)) engines fun _ => rfl

/-- A record changes its state, not its segment or its marker. A RETIRING record stays RETIRING. -/
theorem State.Sound.moved {m : State} {i : Slot} {r q : Record} (h : s.Sound off quiet) (hr : s.recAt i = some r)
    (mv : Moved s m i r q) (hk : q.segment = r.segment) (hm : q.marker = r.marker)
    (hret : r.state = .retiring → q.state = .retiring) : m.Sound off quiet := by
  have before := h.fewer mv.fewer
  refine before.record (i := i) (r := r) hr mv.here mv.others rfl rfl hk hm hret
    (fun hb => mv.unasked hr h.requests hb) fun hb hrt k => ?_
  by_cases hbound : r.state = .bound
  · by_cases hseg : k = r.segment
    · subst hseg
      have purged := mv.purged hbound hb hrt
      have asPurge : m.poolSeg r.segment = (s.purge r.segment fun e => e.slot == i).poolSeg r.segment :=
        purged.trans (purge_slot_purgedOf s r.segment i).symm
      have tx : (m.engine r.segment).tx = ((s.purge r.segment fun e => e.slot == i).engine r.segment).tx :=
        (mv.tx _).trans (congrArg Engine.tx (engine_of_eng (s := s) (by simp) _)).symm
      have waiting := (waitingEntries_of tx (congrArg PoolSeg.queue asPurge)).trans (purge_waitingEntries s r.segment _)
      have bus := (busEntries_of tx (congrArg PoolSeg.queue asPurge)).trans (purge_busEntries s r.segment _)
      refine ⟨fun e he => ?_, fun e he hi => ?_⟩
      · have he' : e ∈ m.waitingEntries r.segment := he
        rw [waiting] at he'
        simpa using (List.mem_filter.mp he').2
      · have he' : e ∈ m.busEntries r.segment := he
        rw [bus] at he'
        have marked : (m.poolSeg r.segment).purgeMark = true := by
          rw [purged]
          exact Bool.or_eq_true _ _ ▸ .inr (List.any_eq_true.mpr ⟨e, he', beq_iff_eq.mpr hi⟩)
        exact marked
    · have none := before.elsewhere (i := i) hr hseg
      exact ⟨fun e he => none e (List.mem_append_right _ he),
        fun e he hi => absurd hi (none e (List.mem_append_left _ he))⟩
  · exact before.unqueued hr hbound (fun c => hrt (hret c)) k

end Sys2Proof.Machine
end

section
namespace Sys2Proof.Machine

variable {s : State} {off : Option Seg} {quiet : Prop}

/-! ### A slot becoming FREE under the laws of work (R12) -/

/-- No transaction on a bus serves a record without a marker: one of its slot is disowned, and no delivery. -/
theorem State.Sound.unserved {i : Slot} {r : Record} (h : s.Sound off quiet) (hr : s.recAt i = some r)
    (hm : r.marker = .none) {k : Seg} {x : Tx} (hx : s.busTx off k = some x) (hs : x.slot = some i)
    (hl : x.silent = false) : x.ownsMarker = false := by
  by_contra c
  have owns : x.ownsMarker = true := by simpa using c
  have named : ¬(x.kind = .catchAll ∨ x.kind = .discoveryProbe) := fun hk => by
    simp [(h.slots k x hx).mpr hk] at hs
  have marks : x.kind.marker ≠ .none := by
    cases hk : x.kind <;> simp_all [TxKind.marker]
  have carried := (h.marks i r hr k x.kind.marker marks).mp ⟨x, hx, hs, owns, hl, rfl⟩
  exact marks (carried.2.symm.trans hm)

theorem State.Sound.busTx_of_delivery (h : s.Sound off quiet) {k : Seg} (hd : s.deliveryOnBus k = true) :
    s.busTx off k = (s.engine k).tx := by
  refine if_neg fun c => ?_
  rw [h.clear k c] at hd
  cases hd

/-- The slot of a record that no transaction and no entry serves may become FREE. -/
theorem State.Sound.freeSlot {i : Slot} {r : Record} (h : s.Sound off quiet) (hr : s.recAt i = some r)
    (hm : r.marker = .none) (hw : ∀ k, ∀ e ∈ s.waitingEntries k, e.slot ≠ i) : (s.freeSlot i).Sound off quiet := by
  have engine := freeSlot_engine s i r hr
  have pool := freeSlot_pool s i
  have queue : ∀ k, (s.freeSlot i).poolSeg k = s.poolSeg k := poolSeg_of_pool pool
  have tx : ∀ k, ((s.freeSlot i).engine k).tx = (s.engine k).tx.map fun x =>
      if x.slot = some i then { x with sameRecord := false, ownsMarker := false } else x := fun k => by
    rw [engine k]; rfl
  have bus : ∀ k, (s.freeSlot i).busTx off k = (s.busTx off k).map fun x =>
      if x.slot = some i then { x with sameRecord := false, ownsMarker := false } else x := fun k => by
    unfold State.busTx
    rw [tx]
    split <;> rfl
  have delivery : ∀ k, (s.freeSlot i).deliveryOnBus k = s.deliveryOnBus k := fun k => by
    unfold State.deliveryOnBus
    rw [tx]
    cases (s.engine k).tx with
    | none => rfl
    | some x => by_cases hs : x.slot = some i <;> simp [hs]
  have waiting : ∀ k, (s.freeSlot i).waitingEntries k = s.waitingEntries k := fun k => by
    unfold State.waitingEntries
    rw [delivery, queue]
  have other : ∀ {j}, j ≠ i → (s.freeSlot i).recAt j = s.recAt j := fun hj => by
    rw [freeSlot_recAt, if_neg (Ne.symm hj)]
  have back : ∀ {j p}, (s.freeSlot i).recAt j = some p → j ≠ i ∧ s.recAt j = some p := fun {j p} hp => by
    rw [freeSlot_recAt] at hp
    split at hp
    · cases hp
    · rename_i c; exact ⟨fun e => c e.symm, hp⟩
  have asWas : ∀ {k x}, (s.freeSlot i).busTx off k = some x → ∃ y, s.busTx off k = some y ∧ x.kind = y.kind ∧
      x.slot = y.slot ∧ x.silent = y.silent ∧ (y.slot = some i → x.ownsMarker = false) ∧ (y.slot ≠ some i → x = y) := by
    intro k x hx
    rw [bus] at hx
    obtain ⟨y, hy, rfl⟩ := Option.map_eq_some_iff.mp hx
    by_cases hs : y.slot = some i
    · rw [if_pos hs]
      exact ⟨y, hy, rfl, rfl, rfl, fun _ => rfl, fun c => absurd hs c⟩
    · rw [if_neg hs]
      exact ⟨y, hy, rfl, rfl, rfl, fun c => absurd c hs, fun _ => rfl⟩
  refine ⟨fun k hk => ?_, fun k hk => by rw [delivery, h.clear k hk], fun k x hx => ?_, fun j p hp k m hne => ?_,
    fun k x hx ho => ?_, fun k x hx hl hk => ?_, fun k => ⟨fun e he => ?_, fun hd => ?_, ?_⟩, fun k w j hq hj => ?_,
    fun k j hj => ?_, fun k => ?_, fun hquiet k hidle => ?_⟩
  · rw [tx, Option.isSome_map, engine k]
    exact h.active k hk
  · obtain ⟨y, hy, ek, es, -⟩ := asWas hx
    rw [ek, es]
    exact h.slots k y hy
  · obtain ⟨hj, hp'⟩ := back hp
    rw [← h.marks j p hp' k m hne, bus]
    constructor
    · rintro ⟨x, hx, hc⟩
      obtain ⟨y, hy, rfl⟩ := Option.map_eq_some_iff.mp hx
      by_cases hs : y.slot = some i
      · rw [if_pos hs] at hc
        exact absurd (hs.symm.trans hc.slot) fun c => hj (Option.some.inj c).symm
      · rw [if_neg hs] at hc
        exact ⟨y, hy, hc⟩
    · rintro ⟨y, hy, hc⟩
      refine ⟨y, Option.map_eq_some_iff.mpr ⟨y, hy, if_neg fun hs => ?_⟩, hc⟩
      exact hj (Option.some.inj (hc.slot.symm.trans hs))
  · obtain ⟨y, hy, -, es, -, gone, same⟩ := asWas hx
    have hs : y.slot ≠ some i := fun c => by rw [gone c] at ho; cases ho
    obtain ⟨j, p, hj, hp⟩ := h.owners k y hy (same hs ▸ ho)
    exact ⟨j, p, es.trans hj, (other fun c => hs (c ▸ hj)).trans hp⟩
  · obtain ⟨y, hy, ek, es, el, -, same⟩ := asWas hx
    have owns := h.owning k y hy (el ▸ hl) (ek ▸ hk)
    have hs : y.slot ≠ some i := fun c => by
      rw [h.unserved hr hm hy c (el ▸ hl)] at owns
      cases owns
    rw [same hs]
    exact owns
  · rw [waiting] at he
    obtain ⟨p, hp, law⟩ := (h.entries k).1 e he
    exact ⟨p, (other (hw k e he)).trans hp, law⟩
  · rw [delivery] at hd
    obtain ⟨x, e, rest, p, hx, hqueue, hs, hp, law⟩ := (h.entries k).2.1 hd
    obtain ⟨y, hy, kind, loud⟩ := (deliveryOnBus_iff k).mp hd
    cases hx.symm.trans hy
    have onBus : s.busTx off k = some x := (h.busTx_of_delivery hd).trans hx
    have hi : e.slot ≠ i := fun c => by
      have gone := h.unserved hr hm onBus (c ▸ hs) loud
      rw [h.owning k x onBus loud (.inr kind)] at gone
      cases gone
    refine ⟨x, e, rest, p, ?_, by rw [queue, hqueue], hs, (other hi).trans hp, by rw [queue]; exact law⟩
    rw [tx, hx]
    exact congrArg some (if_neg (by simp [hs, hi]))
  · rw [queue, delivery]
    exact (h.entries k).2.2
  · rw [engine k] at hq
    have asked : (s.engine k).request = some w := by
      dsimp only at hq
      split at hq
      · exact (Option.filter_eq_some_iff.mp hq).1
      · exact hq
    obtain ⟨p, hp, hseg, hb⟩ := h.requests k w j asked hj
    refine ⟨p, (other fun c => ?_).trans hp, hseg, hb⟩
    subst c
    cases hr.symm.trans hp
    dsimp only at hq
    rw [if_pos hseg.symm] at hq
    simpa [hj] using (Option.filter_eq_some_iff.mp hq).2
  · rw [engine k] at hj
    obtain ⟨hmem, hne⟩ := List.mem_filter.mp hj
    obtain ⟨p, hp, hseg⟩ := h.homes k j hmem
    exact ⟨p, (other (by simpa using hne)).trans hp, hseg⟩
  · rw [engine k]
    exact (h.nodup k).filter _
  · rw [engine k] at hidle ⊢
    obtain ⟨hreq, hqueue, hdisc, hprobe⟩ := h.rest hquiet k hidle
    refine ⟨?_, by rw [queue]; exact hqueue, hdisc, fun j hj p hp => ?_⟩
    · dsimp only
      rw [hreq]
      split <;> rfl
    · exact hprobe j (List.mem_filter.mp hj).1 p (back hp).2

theorem State.Sound.unqueued_retiring {i : Slot} {r : Record} (h : s.Sound off quiet) (hr : s.recAt i = some r)
    (hq : s.hasQueued r.segment i = false) (k : Seg) : ∀ e ∈ s.waitingEntries k, e.slot ≠ i := by
  intro e he
  by_cases hk : k = r.segment
  · subst hk
    intro hi
    have queued : e ∈ (s.poolSeg r.segment).queue := by
      rw [← bus_waiting_append]
      exact List.mem_append_right _ he
    have found : s.hasQueued r.segment i = true := List.any_eq_true.mpr ⟨e, queued, beq_iff_eq.mpr hi⟩
    rw [hq] at found
    cases found
  · exact h.elsewhere hr hk e (List.mem_append_right _ he)

theorem State.Sound.retireCheck (h : s.Sound off quiet) (i : Slot) : (s.retireCheck i).Sound off quiet := by
  unfold State.retireCheck
  cases hr : s.recAt i with
  | none => exact h
  | some r =>
    dsimp only
    split
    · rename_i c
      exact h.freeSlot hr c.2.1 (h.unqueued_retiring hr c.2.2)
    · exact h

theorem State.Sound.retireChecks (h : s.Sound off quiet) (es : List Entry) : (s.retireChecks es).Sound off quiet := by
  induction es generalizing s with
  | nil => exact h
  | cons e rest ih => exact ih (h.retireCheck e.slot)

theorem State.Sound.purgeAndRetire (h : s.Sound off quiet) (k : Seg) (covers : Entry → Bool) :
    (s.purgeAndRetire k covers).Sound off quiet :=
  (h.fewer (.purge s k covers)).retireChecks _

theorem State.Sound.absenceExpiry (h : s.Sound off quiet) (i : Slot) : (s.absenceExpiry i).Sound off quiet := by
  unfold State.absenceExpiry
  cases hr : s.recAt i with
  | none => exact h
  | some r =>
    dsimp only
    split
    · rename_i c
      split
      · exact h.freeSlot hr ‹_› fun k => (h.unqueued hr (by simp [c.1]) (by simp [c.1]) k).1
      · exact h.fewer (.putRec hr rfl)
    · exact h

theorem State.Sound.afterEnd (h : s.Sound off quiet) (i : Slot) : (s.afterEnd i).Sound off quiet := by
  unfold State.afterEnd
  dsimp only
  have checked := h.retireCheck i
  split
  · rename_i r hr
    split
    · exact State.Sound.absenceExpiry (checked.fewer (.putRec hr (by rfl))) i
    · exact checked
  · exact checked

/-! ### Changes of state under the laws of work -/

theorem State.Sound.moveRec (h : s.Sound off quiet) (i : Slot) (f : Record → Record)
    (hf : ∀ r, s.recAt i = some r → (f r).segment = r.segment ∧ (f r).marker = r.marker ∧
      (r.state = .retiring → (f r).state = .retiring)) : (s.moveRec i f).Sound off quiet := by
  cases hr : s.recAt i with
  | none =>
    unfold State.moveRec
    rw [hr]
    exact h
  | some r =>
    obtain ⟨hk, hm, hret⟩ := hf r hr
    exact h.moved hr (moveRec_moved i f r _ hr (moveRec_recAt s i f r hr) rfl).1 hk hm hret

theorem State.Sound.charge (h : s.Sound off quiet) (i : Slot) : (s.charge i).Sound off quiet := by
  unfold State.charge
  cases hr : s.recAt i with
  | none => exact h
  | some r =>
    dsimp only
    split
    · rename_i hb
      split
      · refine h.moveRec i _ fun p hp => ⟨rfl, rfl, fun c => ?_⟩
        cases hr.symm.trans hp
        simp [hb] at c
      · exact h.fewer (.putRec hr rfl)
    · exact h

theorem Fewer.usedClaim (s : State) (i : Slot) : Fewer s (s.usedClaim i) :=
  .modRec i _ fun r => by split <;> rfl

theorem State.Sound.storeIdentity (h : s.Sound off quiet) (i : Slot) (byte : Option Byte) :
    (s.storeIdentity i byte).Sound off quiet := by
  unfold State.storeIdentity
  split
  · rename_i b r hr
    split
    · exact h
    · exact h.fewer ((Fewer.putRec hr (by rfl)).trans (.of_blocks rfl rfl rfl))
  · exact h

theorem State.Sound.applyOutcome (h : s.Sound off quiet) {i : Slot} {r : Record} (hr : s.recAt i = some r)
    (hret : r.state ≠ .retiring) (o : ProbeOutcome) (byte : Option Byte) :
    (s.applyOutcome i r o byte).Sound off quiet := by
  obtain ⟨mv, -⟩ := applyOutcome_moved hr hret o byte
  obtain ⟨-, segment, -⟩ := Record.probed_kept s.hm.holdOff o byte r
  refine h.moved hr mv segment ?_ fun c => absurd c hret
  cases o <;> simp only [Record.probed, Record.stillQuarantined, Record.seen] <;> (repeat' split) <;> rfl

/-! ### Changes of one engine -/

/-- What an event may do to engine `k` between two states that keep the laws of work: a request or a slot that joins
names a record that allows it, and a `quiet` event gives an engine that is IDLE afterwards nothing. -/
structure State.Allows (s : State) (k : Seg) (quiet : Prop) (e e' : Engine) : Prop where
  tx : e'.tx.map Tx.core = e.tx.map Tx.core
  active : e'.state = .active ↔ e.state = .active
  request : ∀ w i, e'.request = some w → w.slot = some i → e.request = some w ∨
    ∃ r, s.recAt i = some r ∧ r.segment = k ∧ r.state = .bound
  probes : ∀ i ∈ e'.probeQueue, i ∈ e.probeQueue ∨ ∃ r, s.recAt i = some r ∧ r.segment = k
  nodup : e.probeQueue.Nodup → e'.probeQueue.Nodup
  idle : quiet → e'.state = .idle → e.state = .idle ∧ (e.request = none → e'.request = none) ∧
    (e.discovery = none → e'.discovery = none) ∧ e'.probeQueue ⊆ e.probeQueue

theorem State.Sound.engine (h : s.Sound off quiet) (k : Seg) (f : Engine → Engine)
    (hf : s.Allows k quiet (s.engine k) (f (s.engine k))) : (s.modEngine k f).Sound off quiet := by
  have tx : ∀ j, ((s.modEngine k f).engine j).tx.map Tx.core = (s.engine j).tx.map Tx.core := fun j => by
    rw [engine_modEngine]
    split
    · rename_i e; rw [e]; exact hf.tx
    · rfl
  have bus : ∀ j, ((s.modEngine k f).busTx off j).map Tx.core = (s.busTx off j).map Tx.core := fun j => by
    unfold State.busTx
    split
    · rfl
    · exact tx j
  have delivery : ∀ j, (s.modEngine k f).deliveryOnBus j = s.deliveryOnBus j := fun j => deliveryOnBus_of_core (tx j)
  have waiting : ∀ j, (s.modEngine k f).waitingEntries j = s.waitingEntries j := fun j => waitingEntries_of_core (tx j) rfl
  have read : ∀ j, j ≠ k → (s.modEngine k f).engine j = s.engine j := fun j hj => engine_modEngine_other s hj f
  have self : (s.modEngine k f).engine k = f (s.engine k) := engine_modEngine_self s k f
  refine ⟨fun j hj => ?_, fun j hj => by rw [delivery, h.clear j hj], fun j x hx => ?_, fun i r hr j m hm => ?_,
    fun j x hx ho => ?_, fun j x hx hl hk => ?_, fun j => ⟨fun e he => (h.entries j).1 e (waiting j ▸ he), fun hd => ?_,
      by rw [delivery]; exact (h.entries j).2.2⟩, fun j w i hw hi => ?_, fun j i hi => ?_, fun j => ?_,
    fun hq j hj => ?_⟩
  · rw [isSome_of_core (tx j)]
    by_cases hjk : j = k
    · subst hjk
      rw [self, hf.active]
      exact h.active j hj
    · rw [read j hjk]
      exact h.active j hj
  · obtain ⟨y, hy, e⟩ := some_of_core (bus j) hx
    obtain ⟨ek, es, -, -⟩ := core_eq.mp e
    rw [ek, es]
    exact h.slots j y hy
  · rw [← h.marks i r hr j m hm]
    constructor
    · rintro ⟨x, hx, hc⟩
      obtain ⟨y, hy, e⟩ := some_of_core (bus j) hx
      obtain ⟨ek, es, eo, el⟩ := core_eq.mp e
      exact ⟨y, hy, es ▸ hc.slot, eo ▸ hc.owns, el ▸ hc.loud, ek ▸ hc.kind⟩
    · rintro ⟨x, hx, hc⟩
      obtain ⟨y, hy, e⟩ := some_of_core (bus j).symm hx
      obtain ⟨ek, es, eo, el⟩ := core_eq.mp e
      exact ⟨y, hy, es ▸ hc.slot, eo ▸ hc.owns, el ▸ hc.loud, ek ▸ hc.kind⟩
  · obtain ⟨y, hy, e⟩ := some_of_core (bus j) hx
    obtain ⟨-, es, eo, -⟩ := core_eq.mp e
    rw [es]
    exact h.owners j y hy (eo ▸ ho)
  · obtain ⟨y, hy, e⟩ := some_of_core (bus j) hx
    obtain ⟨ek, -, eo, el⟩ := core_eq.mp e
    rw [eo]
    exact h.owning j y hy (el ▸ hl) (ek ▸ hk)
  · rw [delivery] at hd
    obtain ⟨x, e, rest, r, hx, hqueue, hs, hr, law⟩ := (h.entries j).2.1 hd
    obtain ⟨y, hy, ec⟩ := some_of_core (tx j).symm hx
    exact ⟨y, e, rest, r, hy, hqueue, (core_eq.mp ec).2.1 ▸ hs, hr, law⟩
  · by_cases hjk : j = k
    · subst hjk
      rw [self] at hw
      exact (hf.request w i hw hi).elim (h.requests j w i · hi) id
    · rw [read j hjk] at hw
      exact h.requests j w i hw hi
  · by_cases hjk : j = k
    · subst hjk
      rw [self] at hi
      exact (hf.probes i hi).elim (h.homes j i) id
    · rw [read j hjk] at hi
      exact h.homes j i hi
  · by_cases hjk : j = k
    · subst hjk
      rw [self]
      exact hf.nodup (h.nodup j)
    · rw [read j hjk]
      exact h.nodup j
  · by_cases hjk : j = k
    · subst hjk
      rw [self] at hj ⊢
      obtain ⟨hidle, request, discovery, probes⟩ := hf.idle hq hj
      obtain ⟨hreq, hqueue, hdisc, hprobe⟩ := h.rest hq j hidle
      exact ⟨request hreq, hqueue, discovery hdisc, fun i hi => hprobe i (probes hi)⟩
    · rw [read j hjk] at hj ⊢
      exact h.rest hq j hj

/-! ### Probe requests and new records (R13, R56) -/

theorem State.Sound.enqueueProbe (h : s.Sound off False) {i : Slot} {r : Record} (hr : s.recAt i = some r) :
    (s.modEngine r.segment (Engine.enqueueProbe i)).Sound off False := by
  refine h.engine _ _ ⟨rfl, Iff.rfl, fun w j hw _ => .inl hw, fun j hj => ?_, enqueueProbe_nodup i _, nofun⟩
  unfold Engine.enqueueProbe at hj
  dsimp only at hj
  split at hj
  · exact .inl hj
  · rcases List.mem_append.mp hj with hj | hj
    · exact .inl hj
    · cases List.mem_singleton.mp hj
      exact .inr ⟨r, hr, rfl⟩

theorem Fewer.refuseProbe (s : State) (i : Slot) : Fewer s (s.refuseProbe i) :=
  (Fewer.modRec i _ fun r => by split <;> rfl).trans (.settleOps _ _)

theorem Fewer.refuseProbes (s : State) (es : List Slot) : Fewer s (s.refuseProbes es) := by
  induction es generalizing s with
  | nil => exact .refl s
  | cons i rest ih => exact (Fewer.refuseProbe s i).trans (ih _)

theorem State.Sound.requestProbe (h : s.Sound off False) (i : Slot) : (s.requestProbe i).Sound off False := by
  unfold State.requestProbe
  cases hr : s.recAt i with
  | none => exact h
  | some r =>
    dsimp only
    split
    · exact h.fewer (.refuseProbe s i)
    · exact h.enqueueProbe hr

theorem State.Sound.requestProbes (h : s.Sound off False) (es : List Slot) : (s.requestProbes es).Sound off False := by
  induction es generalizing s with
  | nil => exact h
  | cons i rest ih => exact ih (h.requestProbe i)

/-- A record is created in a FREE slot without a marker. -/
theorem State.Sound.createRec (h : s.Sound off False) (i : Slot) (r : Record) (hi : s.recAt i = none)
    (hm : r.marker = .none) : (s.createRec i r).Sound off False := by
  have keeps : ∀ {j p}, s.recAt j = some p → (s.createRec i r).recAt j = some p := fun {j p} hp => by
    rw [createRec_recAt, if_neg fun e => by rw [e, hp] at hi; cases hi]
    exact hp
  refine ⟨h.active, h.clear, h.slots, fun j p hp k m hne => ?_, fun k x hx ho => ?_, h.owning,
    fun k => ⟨fun e he => ?_, fun hd => ?_, (h.entries k).2.2⟩, fun k w j hw hj => ?_, fun k j hj => ?_, h.nodup, nofun⟩
  · rw [createRec_recAt] at hp
    split at hp
    · rename_i e
      subst e
      cases hp
      refine iff_of_false (fun ⟨x, hx, hc⟩ => ?_) fun c => hne (c.2.symm.trans hm)
      obtain ⟨j, q, hj, hq⟩ := h.owners k x hx hc.owns
      cases hj.symm.trans hc.slot
      rw [hi] at hq
      cases hq
    · exact h.marks j p hp k m hne
  · obtain ⟨j, p, hj, hp⟩ := h.owners k x hx ho
    exact ⟨j, p, hj, keeps hp⟩
  · obtain ⟨p, hp, law⟩ := (h.entries k).1 e he
    exact ⟨p, keeps hp, law⟩
  · obtain ⟨x, e, rest, p, hx, hqueue, hs, hp, law⟩ := (h.entries k).2.1 hd
    exact ⟨x, e, rest, p, hx, hqueue, hs, keeps hp, law⟩
  · obtain ⟨p, hp, law⟩ := h.requests k w j hw hj
    exact ⟨p, keeps hp, law⟩
  · obtain ⟨p, hp, law⟩ := h.homes k j hj
    exact ⟨p, keeps hp, law⟩

end Sys2Proof.Machine
end

section
namespace Sys2Proof.Machine

variable {s u : State} {k : Seg} {quiet : Prop}

/-! ### A transaction that ends (R17, R18, R58, R69) -/

/-- The record's work once the transaction `x` no longer stands for its marker. -/
def Record.workWithout (x : Tx) (i : Slot) (r : Record) : RecState × Seg × Marker :=
  (r.state, r.segment,
    if x.slot = some i ∧ x.ownsMarker = true ∧ x.silent = false then .none else r.marker)

/-- The bus of engine `k` is taken as empty when the marker its transaction stood for is gone, and its queue holds only
entries that wait. -/
theorem State.Sound.takeOff (h : s.Sound none quiet) {x : Tx} (hx : (s.engine k).tx = some x)
    (records : ∀ i, (u.recAt i).map Record.work = (s.recAt i).map (Record.workWithout x i))
    (others : ∀ j, j ≠ k → u.engine j = s.engine j) (pools : ∀ j, j ≠ k → u.poolSeg j = s.poolSeg j)
    (request : (u.engine k).request = (s.engine k).request)
    (probes : (u.engine k).probeQueue = (s.engine k).probeQueue) (state : (u.engine k).state = (s.engine k).state)
    (clear : u.deliveryOnBus k = false) (unmarked : (u.poolSeg k).purgeMark = false)
    (queue : ∀ e ∈ (u.poolSeg k).queue, ∃ r, s.recAt e.slot = some r ∧ r.segment = k ∧
      (r.state = .bound ∨ r.state = .retiring)) : u.Sound (some k) quiet := by
  have active : (s.engine k).state = .active := (h.active k (by simp)).mp (by rw [hx]; rfl)
  have keeps : ∀ {j p}, s.recAt j = some p → ∃ p', u.recAt j = some p' ∧ p'.state = p.state ∧ p'.segment = p.segment :=
    fun {j p} hp => by
      have e := records j
      rw [hp] at e
      obtain ⟨p', hp', e'⟩ := Option.map_eq_some_iff.mp e
      exact ⟨p', hp', congrArg (·.1) e', congrArg (·.2.1) e'⟩
  have back : ∀ {j p'}, u.recAt j = some p' → ∃ p, s.recAt j = some p ∧ p'.state = p.state ∧ p'.segment = p.segment ∧
      p'.marker = if x.slot = some j ∧ x.ownsMarker = true ∧ x.silent = false then .none else p.marker :=
    fun {j p'} hp => by
      have e := records j
      rw [hp] at e
      obtain ⟨p, hp, e'⟩ := Option.map_eq_some_iff.mp e.symm
      exact ⟨p, hp, (congrArg (·.1) e').symm, (congrArg (·.2.1) e').symm, (congrArg (·.2.2) e').symm⟩
  have delivery : ∀ j, j ≠ k → u.deliveryOnBus j = s.deliveryOnBus j := fun j hj =>
    deliveryOnBus_of_tx (by rw [others j hj])
  have bus : ∀ {j y}, u.busTx (some k) j = some y → j ≠ k ∧ s.busTx none j = some y := fun {j y} hy => by
    by_cases hj : j = k
    · rw [hj, busTx_off] at hy; cases hy
    · rw [busTx_other hj, others j hj] at hy
      exact ⟨hj, (busTx_none j).trans hy⟩
  refine ⟨fun j hj => ?_, fun j hj => ?_, fun j y hy => h.slots j y (bus hy).2, fun i r hr j m hm => ?_,
    fun j y hy ho => ?_, fun j y hy => h.owning j y (bus hy).2, fun j => ?_, fun j w i hw hi => ?_, fun j i hi => ?_,
    fun j => ?_, fun hq j hj => ?_⟩
  · have hjk : j ≠ k := fun e => hj (congrArg some e.symm)
    rw [others j hjk]
    exact h.active j (by simp)
  · cases Option.some.inj hj
    exact clear
  · obtain ⟨p, hp, -, hseg, hmark⟩ := back hr
    have inS := h.marks i p hp j m hm
    rw [hseg, hmark]
    by_cases hjk : j = k
    · subst hjk
      rw [busTx_off]
      refine iff_of_false (by simp) fun ⟨hs, hmk⟩ => ?_
      by_cases served : x.slot = some i ∧ x.ownsMarker = true ∧ x.silent = false
      · rw [if_pos served] at hmk
        exact hm hmk.symm
      · rw [if_neg served] at hmk
        obtain ⟨y, hy, hc⟩ := inS.mpr ⟨hs, hmk⟩
        rw [busTx_none, hx] at hy
        cases hy
        exact served ⟨hc.slot, hc.owns, hc.loud⟩
    · rw [busTx_other hjk, others j hjk, ← busTx_none, inS]
      by_cases served : x.slot = some i ∧ x.ownsMarker = true ∧ x.silent = false
      · rw [if_pos served]
        refine iff_of_false (fun ⟨hs, _⟩ => ?_) fun c => hm c.2.symm
        obtain ⟨hs', ho, hl⟩ := served
        have named : x.kind.marker ≠ .none := by
          have slots := h.slots k x ((busTx_none k).trans hx)
          cases hk : x.kind <;> simp_all [TxKind.marker]
        have here := (h.marks i p hp k x.kind.marker named).mp ⟨x, (busTx_none k).trans hx, hs', ho, hl, rfl⟩
        exact hjk (hs.symm.trans here.1)
      · rw [if_neg served]
  · obtain ⟨i, p, hs, hp⟩ := h.owners j y (bus hy).2 ho
    obtain ⟨p', hp', -⟩ := keeps hp
    exact ⟨i, p', hs, hp'⟩
  · by_cases hjk : j = k
    · subst hjk
      refine ⟨fun e he => ?_, fun c => (by simp [clear] at c), fun c => (by simp [unmarked] at c)⟩
      have he' : e ∈ (u.poolSeg j).queue := by
        unfold State.waitingEntries at he
        rw [clear] at he
        exact he
      obtain ⟨p, hp, hseg, hst⟩ := queue e he'
      obtain ⟨p', hp', es, eg⟩ := keeps hp
      exact ⟨p', hp', eg.trans hseg, es ▸ hst⟩
    · obtain ⟨waiting, onBus, mark⟩ := h.entries j
      refine ⟨fun e he => ?_, fun hd => ?_, ?_⟩
      · rw [waitingEntries_of (s := s) (by rw [others j hjk]) (by rw [pools j hjk])] at he
        obtain ⟨p, hp, hseg, hst⟩ := waiting e he
        obtain ⟨p', hp', es, eg⟩ := keeps hp
        exact ⟨p', hp', eg.trans hseg, es ▸ hst⟩
      · rw [delivery j hjk] at hd
        obtain ⟨y, e, rest, p, hy, hqueue, hs, hp, hseg, hst⟩ := onBus hd
        obtain ⟨p', hp', es, eg⟩ := keeps hp
        exact ⟨y, e, rest, p', by rw [others j hjk, hy], by rw [pools j hjk, hqueue], hs, hp', eg.trans hseg,
          by rw [pools j hjk, es]; exact hst⟩
      · rw [pools j hjk, delivery j hjk]
        exact mark
  · have hw' : (s.engine j).request = some w := by
      by_cases hjk : j = k
      · rw [hjk] at hw ⊢; rw [← request]; exact hw
      · rw [others j hjk] at hw; exact hw
    obtain ⟨p, hp, hseg, hb⟩ := h.requests j w i hw' hi
    obtain ⟨p', hp', es, eg⟩ := keeps hp
    exact ⟨p', hp', eg.trans hseg, es.trans hb⟩
  · have hi' : i ∈ (s.engine j).probeQueue := by
      by_cases hjk : j = k
      · rw [hjk] at hi ⊢; rw [← probes]; exact hi
      · rw [others j hjk] at hi; exact hi
    obtain ⟨p, hp, hseg⟩ := h.homes j i hi'
    obtain ⟨p', hp', -, eg⟩ := keeps hp
    exact ⟨p', hp', eg.trans hseg⟩
  · by_cases hjk : j = k
    · rw [hjk, probes]; exact h.nodup k
    · rw [others j hjk]; exact h.nodup j
  · have hjk : j ≠ k := fun e => by
      rw [e, state, active] at hj
      cases hj
    rw [others j hjk] at hj ⊢
    rw [pools j hjk]
    obtain ⟨hreq, hqueue, hdisc, hprobe⟩ := h.rest hq j hj
    refine ⟨hreq, hqueue, hdisc, fun i hi p' hp' => ?_⟩
    obtain ⟨p, hp, es, -⟩ := back hp'
    exact es.trans (hprobe i hi p hp)

/-- The same where nothing but the marker has changed, and no delivery was on the bus. -/
theorem State.Sound.takeOff_marker (h : s.Sound none quiet) {x : Tx} (hx : (s.engine k).tx = some x)
    (hd : s.deliveryOnBus k = false)
    (records : ∀ i, (u.recAt i).map Record.work = (s.recAt i).map (Record.workWithout x i))
    (eng : u.eng = s.eng) (pool : u.pool = s.pool) : u.Sound (some k) quiet := by
  obtain ⟨waiting, -, mark⟩ := h.entries k
  have unmarked : (s.poolSeg k).purgeMark = false := Bool.eq_false_iff.mpr fun c => by
    rw [mark c] at hd
    cases hd
  refine h.takeOff hx records (fun j _ => engine_of_eng eng j) (fun j _ => poolSeg_of_pool pool j)
    (by rw [engine_of_eng eng]) (by rw [engine_of_eng eng]) (by rw [engine_of_eng eng])
    (by rw [deliveryOnBus_of_eng eng, hd]) (by rw [poolSeg_of_pool pool, unmarked]) fun e he => waiting e ?_
  rw [poolSeg_of_pool pool] at he
  unfold State.waitingEntries
  rw [hd]
  exact he

/-- A transaction that stands for no marker is taken off as it is. -/
theorem State.Sound.takeOff_same (h : s.Sound none quiet) {x : Tx} (hx : (s.engine k).tx = some x)
    (hd : s.deliveryOnBus k = false) (hn : x.slot = none ∨ x.ownsMarker = false ∨ x.silent = true) :
    s.Sound (some k) quiet := by
  refine h.takeOff_marker hx hd (fun i => congrArg (Option.map · (s.recAt i)) (funext fun r => ?_)) rfl rfl
  unfold Record.work Record.workWithout
  rw [if_neg]
  rintro ⟨hs, ho, hl⟩
  rcases hn with c | c | c <;> simp_all

theorem clearMarker_records (s : State) (i : Slot) {x : Tx} (hs : x.slot = some i) (ho : x.ownsMarker = true)
    (hl : x.silent = false) (j : Slot) :
    ((s.clearMarker i).recAt j).map Record.work = (s.recAt j).map (Record.workWithout x j) := by
  rw [clearMarker_recAt]
  by_cases hj : i = j
  · subst hj
    rw [if_pos rfl]
    cases s.recAt i with
    | none => rfl
    | some r => simp [Record.work, Record.workWithout, hs, ho, hl]
  · rw [if_neg hj]
    have ne : x.slot ≠ some j := fun c => hj (Option.some.inj (hs.symm.trans c))
    cases s.recAt j with
    | none => rfl
    | some r => simp [Record.work, Record.workWithout, ne]

/-- A transaction of a record ends with the record's marker cleared, where it stood for it (R17, R18). -/
theorem State.Sound.clearMarker (h : s.Sound none quiet) {x : Tx} (hx : (s.engine k).tx = some x)
    (hd : s.deliveryOnBus k = false) {i : Slot} (hs : x.slot = some i) (hl : x.silent = false)
    (ho : x.ownsMarker = true) : (s.clearMarker i).Sound (some k) quiet :=
  h.takeOff_marker hx hd (clearMarker_records s i hs ho hl) (by simp) (by simp)

/-! ### The bus released (R58, R69) -/

theorem State.Sound.offBus (h : s.Sound (some k) quiet) (f : Engine → Engine) (tx : (f (s.engine k)).tx = none)
    (state : (f (s.engine k)).state ≠ .active) (hidle : quiet → (f (s.engine k)).state ≠ .idle)
    (request : (f (s.engine k)).request = (s.engine k).request)
    (probes : (f (s.engine k)).probeQueue = (s.engine k).probeQueue) : (s.modEngine k f).Sound none quiet := by
  have self : (s.modEngine k f).engine k = f (s.engine k) := engine_modEngine_self s k f
  have read : ∀ j, j ≠ k → (s.modEngine k f).engine j = s.engine j := fun j hj => engine_modEngine_other s hj f
  have bus : ∀ j, (s.modEngine k f).busTx none j = s.busTx (some k) j := fun j => by
    rw [busTx_none]
    by_cases hj : j = k
    · rw [hj, busTx_off, self, tx]
    · rw [busTx_other hj, read j hj]
  have delivery : ∀ j, (s.modEngine k f).deliveryOnBus j = s.deliveryOnBus j := fun j => by
    by_cases hj : j = k
    · subst hj
      rw [h.clear j rfl]
      unfold State.deliveryOnBus
      rw [self, tx]
    · exact deliveryOnBus_of_tx (by rw [read j hj])
  have sameRequest : ∀ j, ((s.modEngine k f).engine j).request = (s.engine j).request := fun j => by
    by_cases hj : j = k
    · rw [hj, self, request]
    · rw [read j hj]
  have sameProbes : ∀ j, ((s.modEngine k f).engine j).probeQueue = (s.engine j).probeQueue := fun j => by
    by_cases hj : j = k
    · rw [hj, self, probes]
    · rw [read j hj]
  refine ⟨fun j _ => ?_, nofun, fun j => by rw [bus]; exact h.slots j, fun i r hr j => by rw [bus]; exact h.marks i r hr j,
    fun j => by rw [bus]; exact h.owners j, fun j => by rw [bus]; exact h.owning j,
    fun j => ⟨fun e he => (h.entries j).1 e ?_, fun hd => ?_, by rw [delivery]; exact (h.entries j).2.2⟩,
    fun j => by rw [sameRequest]; exact h.requests j, fun j => by rw [sameProbes]; exact h.homes j,
    fun j => by rw [sameProbes]; exact h.nodup j, fun hq j hj => ?_⟩
  · by_cases hj : j = k
    · rw [hj, self, tx]
      simp [state]
    · rw [read j hj]
      exact h.active j fun c => hj (Option.some.inj c).symm
  · unfold State.waitingEntries at he ⊢
    rwa [delivery] at he
  · rw [delivery] at hd
    have hj : j ≠ k := fun c => by
      rw [c, h.clear k rfl] at hd
      cases hd
    rw [read j hj]
    exact (h.entries j).2.1 hd
  · have hjk : j ≠ k := fun c => by
      rw [c, self] at hj
      exact hidle hq hj
    rw [read j hjk] at hj ⊢
    exact h.rest hq j hj

theorem State.Sound.enterRecovering (h : s.Sound (some k) quiet) : (s.enterRecovering k).Sound none quiet :=
  h.offBus _ rfl (by simp [Engine.toRecovering]) (fun _ => by simp [Engine.toRecovering]) rfl rfl

theorem State.Sound.enterPaused (h : s.Sound (some k) quiet) : (s.enterPaused k).Sound none quiet := by
  have paused := h.offBus
    (fun e => { e with state := .paused, pausePending := false, tx := none, stall := none, attempt := none }) rfl
    (by simp) (fun _ => by simp) rfl rfl
  exact paused.fewer ((Fewer.settleOps _ _).trans (.withdraw _ k .standIn))

theorem State.Sound.releaseBus (h : s.Sound (some k) False) : (s.releaseBus k).Sound none False := by
  unfold State.releaseBus
  split
  · exact h.enterPaused
  · exact h.offBus _ rfl (by simp) nofun rfl rfl

/-- An engine without a transaction may be taken as having its bus empty. -/
theorem State.Sound.takeOff_none (h : s.Sound none quiet) (hx : (s.engine k).tx = none) : s.Sound (some k) quiet := by
  have bus : ∀ j, s.busTx (some k) j = s.busTx none j := fun j => by
    rw [busTx_none]
    by_cases hj : j = k
    · rw [hj, busTx_off, hx]
    · exact busTx_other hj
  refine { h with
    active := fun j _ => h.active j (by simp)
    clear := fun j hj => ?_
    slots := fun j => by rw [bus]; exact h.slots j
    marks := fun i r hr j => by rw [bus]; exact h.marks i r hr j
    owners := fun j => by rw [bus]; exact h.owners j
    owning := fun j => by rw [bus]; exact h.owning j }
  cases Option.some.inj hj
  unfold State.deliveryOnBus
  rw [hx]

end Sys2Proof.Machine
end

section
namespace Sys2Proof.Machine

variable {s u : State} {k : Seg} {quiet : Prop}

/-! ### A transaction that starts (R54, R58) -/

/-- The record's work once transaction `x` has started and stands for its marker. -/
def Record.workWith (x : Tx) (i : Slot) (r : Record) : RecState × Seg × Marker :=
  (r.state, r.segment, if x.slot = some i then x.kind.marker else r.marker)

/-- A transaction that may start on engine `k`: of no record, or for a record of the segment that it marks; a delivery
carries the head entry. -/
structure State.Starts (s : State) (k : Seg) (x : Tx) : Prop where
  loud : x.silent = false
  slots : x.slot = none ↔ x.kind = .catchAll ∨ x.kind = .discoveryProbe
  owns : x.ownsMarker = true ↔ x.slot ≠ none
  home : ∀ i, x.slot = some i → ∃ r, s.recAt i = some r ∧ r.segment = k
  head : x.kind = .delivery → ∃ e rest, (s.poolSeg k).queue = e :: rest ∧ x.slot = some e.slot

/-- An IDLE engine without a transaction has none on its bus, and its whole queue waits. -/
theorem State.Sound.idle (h : s.Sound none quiet) (hk : (s.engine k).state ≠ .active) :
    (s.engine k).tx = none ∧ s.deliveryOnBus k = false ∧ s.waitingEntries k = (s.poolSeg k).queue := by
  have tx : (s.engine k).tx = none := by
    by_contra c
    exact hk ((h.active k (by simp)).mp (Option.isSome_iff_ne_none.mpr c))
  have delivery : s.deliveryOnBus k = false := by
    unfold State.deliveryOnBus
    rw [tx]
  refine ⟨tx, delivery, ?_⟩
  unfold State.waitingEntries
  rw [delivery]
  rfl

theorem State.Sound.start (h : s.Sound none False) (hk : (s.engine k).state ≠ .active) {x : Tx} (hx : s.Starts k x)
    (records : ∀ i, (u.recAt i).map Record.work = (s.recAt i).map (Record.workWith x i))
    (others : ∀ j, j ≠ k → u.engine j = s.engine j) (pool : u.pool = s.pool)
    (tx : (u.engine k).tx = some x) (state : (u.engine k).state = .active)
    (request : (u.engine k).request = (s.engine k).request ∨ (u.engine k).request = none)
    (probes : (u.engine k).probeQueue.Sublist (s.engine k).probeQueue) : u.Sound none False := by
  obtain ⟨empty, noDelivery, waits⟩ := h.idle hk
  have keeps : ∀ {j p}, s.recAt j = some p → ∃ p', u.recAt j = some p' ∧ p'.state = p.state ∧ p'.segment = p.segment :=
    fun {j p} hp => by
      have e := records j
      rw [hp] at e
      obtain ⟨p', hp', e'⟩ := Option.map_eq_some_iff.mp e
      exact ⟨p', hp', congrArg (·.1) e', congrArg (·.2.1) e'⟩
  have back : ∀ {j p'}, u.recAt j = some p' → ∃ p, s.recAt j = some p ∧ p'.segment = p.segment ∧
      p'.marker = if x.slot = some j then x.kind.marker else p.marker := fun {j p'} hp => by
    have e := records j
    rw [hp] at e
    obtain ⟨p, hp, e'⟩ := Option.map_eq_some_iff.mp e.symm
    exact ⟨p, hp, (congrArg (·.2.1) e').symm, (congrArg (·.2.2) e').symm⟩
  have delivery : ∀ j, j ≠ k → u.deliveryOnBus j = s.deliveryOnBus j := fun j hj =>
    deliveryOnBus_of_tx (by rw [others j hj])
  have queue : ∀ j, u.poolSeg j = s.poolSeg j := poolSeg_of_pool pool
  have bus : ∀ j, u.busTx none j = if j = k then some x else s.busTx none j := fun j => by
    rw [busTx_none, busTx_none]
    split
    · rename_i e; rw [e, tx]
    · rw [others j ‹_›]
  have onBus : ∀ {j y}, u.busTx none j = some y → (j = k ∧ y = x) ∨ (j ≠ k ∧ s.busTx none j = some y) :=
    fun {j y} hy => by
      rw [bus] at hy
      split at hy
      · exact .inl ⟨‹_›, (Option.some.inj hy).symm⟩
      · exact .inr ⟨‹_›, hy⟩
  refine ⟨fun j _ => ?_, nofun, fun j y hy => ?_, fun i r hr j m hm => ?_, fun j y hy ho => ?_, fun j y hy hl hkind => ?_,
    fun j => ?_, fun j w i hw hi => ?_, fun j i hi => ?_, fun j => ?_, nofun⟩
  · by_cases hj : j = k
    · rw [hj, tx, state]; simp
    · rw [others j hj]; exact h.active j (by simp)
  · rcases onBus hy with ⟨-, rfl⟩ | ⟨-, hy⟩
    · exact hx.slots
    · exact h.slots j y hy
  · obtain ⟨p, hp, hseg, hmark⟩ := back hr
    have inS := h.marks i p hp j m hm
    rw [hseg, hmark, bus]
    by_cases served : x.slot = some i
    · rw [if_pos served]
      obtain ⟨p', hp', home⟩ := hx.home i served
      cases hp.symm.trans hp'
      by_cases hj : j = k
      · rw [if_pos hj]
        constructor
        · rintro ⟨y, hy, hc⟩
          cases hy
          exact ⟨home.trans hj.symm, hc.kind⟩
        · rintro ⟨-, hk'⟩
          exact ⟨x, rfl, served, hx.owns.mpr (by simp [served]), hx.loud, hk'⟩
      · rw [if_neg hj, inS]
        exact iff_of_false (fun c => hj (c.1.symm.trans home)) fun c => hj (c.1.symm.trans home)
    · rw [if_neg served]
      by_cases hj : j = k
      · rw [if_pos hj, ← inS]
        refine iff_of_false (fun ⟨y, hy, hc⟩ => ?_) fun ⟨y, hy, _⟩ => ?_
        · cases hy
          exact served hc.slot
        · rw [hj, busTx_none, empty] at hy
          cases hy
      · rw [if_neg hj]
        exact inS
  · rcases onBus hy with ⟨-, rfl⟩ | ⟨-, hy⟩
    · obtain ⟨i, hi⟩ := Option.ne_none_iff_exists'.mp (hx.owns.mp ho)
      obtain ⟨r, hr, -⟩ := hx.home i hi
      obtain ⟨r', hr', -⟩ := keeps hr
      exact ⟨i, r', hi, hr'⟩
    · obtain ⟨i, r, hi, hr⟩ := h.owners j y hy ho
      obtain ⟨r', hr', -⟩ := keeps hr
      exact ⟨i, r', hi, hr'⟩
  · rcases onBus hy with ⟨-, rfl⟩ | ⟨-, hy⟩
    · refine hx.owns.mpr fun c => ?_
      have bare := hx.slots.mp c
      rcases hkind with e | e <;> rw [e] at bare <;> simp at bare
    · exact h.owning j y hy hl hkind
  · obtain ⟨waiting, delivers, mark⟩ := h.entries j
    by_cases hj : j = k
    · subst hj
      rw [waits] at waiting
      have law : ∀ e ∈ (s.poolSeg j).queue, ∃ r, u.recAt e.slot = some r ∧ r.segment = j ∧
          (r.state = .bound ∨ r.state = .retiring) := fun e he => by
        obtain ⟨p, hp, hseg, hst⟩ := waiting e he
        obtain ⟨p', hp', es, eg⟩ := keeps hp
        exact ⟨p', hp', eg.trans hseg, es ▸ hst⟩
      refine ⟨fun e he => law e ?_, fun hd => ?_, fun hm => ?_⟩
      · rw [← queue j, ← bus_waiting_append]
        exact List.mem_append_right _ he
      · obtain ⟨y, hy, hkind, -⟩ := (deliveryOnBus_iff j).mp hd
        rw [tx] at hy
        cases hy
        obtain ⟨e, rest, hqueue, hs⟩ := hx.head hkind
        obtain ⟨r, hr, hseg, hst⟩ := law e (by rw [hqueue]; simp)
        exact ⟨_, e, rest, r, tx, by rw [queue, hqueue], hs, hr, hseg, fun _ => hst⟩
      · rw [queue] at hm
        rw [mark hm] at noDelivery
        cases noDelivery
    · refine ⟨fun e he => ?_, fun hd => ?_, ?_⟩
      · rw [waitingEntries_of (s := s) (by rw [others j hj]) (by rw [queue])] at he
        obtain ⟨p, hp, hseg, hst⟩ := waiting e he
        obtain ⟨p', hp', es, eg⟩ := keeps hp
        exact ⟨p', hp', eg.trans hseg, es ▸ hst⟩
      · rw [delivery j hj] at hd
        obtain ⟨y, e, rest, p, hy, hqueue, hs, hp, hseg, hst⟩ := delivers hd
        obtain ⟨p', hp', es, eg⟩ := keeps hp
        exact ⟨y, e, rest, p', by rw [others j hj, hy], by rw [queue, hqueue], hs, hp', eg.trans hseg,
          by rw [queue, es]; exact hst⟩
      · rw [queue, delivery j hj]
        exact mark
  · have hw' : (s.engine j).request = some w := by
      by_cases hj : j = k
      · rw [hj] at hw ⊢
        rw [← hw]
        exact (request.resolve_right (by rw [hw]; nofun)).symm
      · rw [others j hj] at hw; exact hw
    obtain ⟨p, hp, hseg, hb⟩ := h.requests j w i hw' hi
    obtain ⟨p', hp', es, eg⟩ := keeps hp
    exact ⟨p', hp', eg.trans hseg, es.trans hb⟩
  · have hi' : i ∈ (s.engine j).probeQueue := by
      by_cases hj : j = k
      · rw [hj] at hi ⊢; exact probes.subset hi
      · rw [others j hj] at hi; exact hi
    obtain ⟨p, hp, hseg⟩ := h.homes j i hi'
    obtain ⟨p', hp', -, eg⟩ := keeps hp
    exact ⟨p', hp', eg.trans hseg⟩
  · by_cases hj : j = k
    · rw [hj]; exact (h.nodup k).sublist probes
    · rw [others j hj]; exact h.nodup j

/-! ### The work an arbiter takes (R54) -/

theorem firstProbe_none {es : List Slot} (h : s.firstProbe es = none) :
    ∀ i ∈ es, ∀ r, s.recAt i = some r → r.state = .retiring := by
  induction es with
  | nil => nofun
  | cons i rest ih =>
    unfold State.firstProbe at h
    intro j hj r hr
    cases hi : s.recAt i with
    | none =>
      rw [hi] at h
      rcases List.mem_cons.mp hj with rfl | hj
      · rw [hi] at hr; cases hr
      · exact ih h j hj r hr
    | some p =>
      rw [hi] at h
      dsimp only at h
      split at h
      · rcases List.mem_cons.mp hj with rfl | hj
        · cases hi.symm.trans hr; assumption
        · exact ih h j hj r hr
      · cases h

theorem availableForward_some {q : FwdRequest} (h : s.availableForward k = some q) :
    (s.engine k).request = some q := by
  unfold State.availableForward at h
  cases hr : (s.engine k).request with
  | none => simp [hr] at h
  | some w =>
    rw [hr] at h
    dsimp only at h
    split at h
    · split at h
      · cases h
      · exact h
    · exact h

theorem availableEntry_some {e : Entry} {r : Record} (h : s.availableEntry k = some (e, r)) :
    (∃ rest, (s.poolSeg k).queue = e :: rest) ∧ s.recAt e.slot = some r := by
  unfold State.availableEntry at h
  cases hq : (s.poolSeg k).queue with
  | nil => simp [hq] at h
  | cons e' rest =>
    rw [hq] at h
    dsimp only at h
    split at h
    · rename_i r' hr
      cases h
      exact ⟨⟨rest, rfl⟩, hr⟩
    · cases h

theorem chooseWork_forward {q : FwdRequest} (h : s.chooseWork k = some (.forward q)) :
    (s.engine k).request = some q := by
  unfold State.chooseWork at h
  repeat' split at h
  all_goals cases h
  exact availableForward_some ‹_›

theorem chooseWork_delivery {e : Entry} {r : Record} (h : s.chooseWork k = some (.delivery e r)) :
    (∃ rest, (s.poolSeg k).queue = e :: rest) ∧ s.recAt e.slot = some r := by
  unfold State.chooseWork at h
  repeat' split at h
  all_goals cases h
  exact availableEntry_some ‹_›

theorem chooseWork_probe {i : Slot} {r : Record} (h : s.chooseWork k = some (.probe i r)) :
    s.firstProbe (s.engine k).probeQueue = some (i, r) := by
  unfold State.chooseWork at h
  repeat' split at h
  all_goals simp_all

/-- With nothing to choose there is no request, no entry and no slot to probe: an entry that waits has its record. -/
theorem State.Sound.chooseWork_none (h : s.Sound none quiet) (hk : (s.engine k).state = .idle)
    (hw : s.chooseWork k = none) : (s.engine k).request = none ∧ (s.poolSeg k).queue = [] ∧
      ∀ i ∈ (s.engine k).probeQueue, ∀ r, s.recAt i = some r → r.state = .retiring := by
  obtain ⟨-, -, waits⟩ := h.idle (k := k) (by simp [hk])
  have forward : s.availableForward k = none := by
    unfold State.chooseWork at hw
    split at hw
    · cases hw
    · assumption
  have entry : s.availableEntry k = none := by
    unfold State.chooseWork at hw
    rw [forward] at hw
    dsimp only at hw
    split at hw
    · cases hw
    · assumption
  have probe : s.firstProbe (s.engine k).probeQueue = none := by
    unfold State.chooseWork at hw
    rw [forward, entry] at hw
    dsimp only at hw
    split at hw
    · cases hw
    · assumption
  have queue : (s.poolSeg k).queue = [] := by
    cases hq : (s.poolSeg k).queue with
    | nil => rfl
    | cons e rest =>
      obtain ⟨r, hr, -⟩ := (h.entries k).1 e (by rw [waits, hq]; simp)
      unfold State.availableEntry at entry
      simp [hq, hr] at entry
  refine ⟨?_, queue, firstProbe_none probe⟩
  cases hr : (s.engine k).request with
  | none => rfl
  | some q =>
    unfold State.availableForward State.hasQueued at forward
    rw [hr, queue] at forward
    cases hs : q.slot <;> simp [hs] at forward

end Sys2Proof.Machine
end

section
namespace Sys2Proof.Machine

variable {s u : State} {k : Seg} {off : Option Seg} {quiet : Prop}

/-! ### An arbiter's choice under the laws of work (R54, R66) -/

theorem modRec_records (s : State) (i : Slot) (m : Marker) {x : Tx} (hs : x.slot = some i) (hm : x.kind.marker = m)
    (j : Slot) : ((s.modRec i fun r => { r with marker := m }).recAt j).map Record.work =
      (s.recAt j).map (Record.workWith x j) := by
  rw [recAt_modRec]
  by_cases hj : i = j
  · subst hj
    rw [if_pos rfl]
    cases s.recAt i with
    | none => rfl
    | some r => simp [Record.work, Record.workWith, hs, hm]
  · rw [if_neg hj]
    have ne : x.slot ≠ some j := fun c => hj (Option.some.inj (hs.symm.trans c))
    cases s.recAt j with
    | none => rfl
    | some r => simp [Record.work, Record.workWith, ne]

theorem bare_records (s : State) {x : Tx} (hs : x.slot = none) (j : Slot) :
    (s.recAt j).map Record.work = (s.recAt j).map (Record.workWith x j) := by
  cases s.recAt j with
  | none => rfl
  | some r => simp [Record.work, Record.workWith, hs]

/-- A start sets the marker of the record it serves, and changes no other (R8, R58). -/
theorem beginWork_records (s : State) (k : Seg) (w : Work) (j : Slot) :
    ((s.beginWork k w).recAt j).map Record.work = (s.recAt j).map (Record.workWith w.tx j) := by
  cases w with
  | forward q =>
    simp only [State.beginWork]
    split
    · rename_i i hi
      exact modRec_records _ i .forward hi (by simp [Work.tx, Tx.start, hi, TxKind.marker]) j
    · rename_i hn
      exact bare_records s hn j
  | delivery e r => exact modRec_records s e.slot .delivery rfl rfl j
  | probe i r =>
    refine modRec_records ((s.modEngine k _).moveNotes i true) i .probe (x := (Work.probe i r).tx) rfl ?_ j
    unfold Work.tx Tx.start
    dsimp only
    split <;> rfl

/-- The work an IDLE engine chooses may start there. -/
theorem State.Sound.starts (h : s.Sound none quiet) (hk : (s.engine k).state = .idle) {w : Work}
    (hw : s.chooseWork k = some w) : s.Starts k w.tx := by
  obtain ⟨-, -, waits⟩ := h.idle (k := k) (by simp [hk])
  cases w with
  | forward q =>
    have request := chooseWork_forward hw
    refine ⟨rfl, ?_, ?_, fun i hi => ?_, ?_⟩
    · cases hs : q.slot <;> simp [Work.tx, Tx.start, hs]
    · cases hs : q.slot <;> simp [Work.tx, Tx.start, hs]
    · obtain ⟨r, hr, hseg, -⟩ := h.requests k q i request hi
      exact ⟨r, hr, hseg⟩
    · cases hs : q.slot <;> simp [Work.tx, Tx.start, hs]
  | delivery e r =>
    obtain ⟨⟨rest, hq⟩, hr⟩ := chooseWork_delivery hw
    refine ⟨rfl, by simp [Work.tx, Tx.start], by simp [Work.tx, Tx.start], fun i hi => ?_, fun _ => ⟨e, rest, hq, rfl⟩⟩
    cases Option.some.inj hi
    obtain ⟨p, hp, hseg, -⟩ := (h.entries k).1 e (by rw [waits, hq]; simp)
    exact ⟨p, hp, hseg⟩
  | probe i r =>
    obtain ⟨hi, hr, -⟩ := firstProbe_some s (chooseWork_probe hw)
    refine ⟨rfl, ?_, by simp [Work.tx, Tx.start], fun j hj => ?_, ?_⟩
    · cases hp : r.probeReg <;> simp [Work.tx, Tx.start, hp]
    · cases Option.some.inj hj
      exact h.homes k i hi
    · cases hp : r.probeReg <;> simp [Work.tx, Tx.start, hp]

theorem beginWork_request (s : State) (k : Seg) (w : Work) :
    ((s.beginWork k w).engine k).request = (s.engine k).request ∨ ((s.beginWork k w).engine k).request = none := by
  rw [beginWork_engine_self]
  cases w with
  | forward q => exact .inr rfl
  | delivery e r => exact .inl rfl
  | probe i r => exact .inl rfl

theorem State.Sound.putOnBus (h : s.Sound none False) (hk : (s.engine k).state ≠ .active) {x : Tx}
    (hx : s.Starts k x) (records : ∀ i, (s.recAt i).map Record.work = (s.recAt i).map (Record.workWith x i)) :
    (s.putOnBus k x).Sound none False := by
  have self : (s.putOnBus k x).engine k = _ := engine_modEngine_self s k _
  exact h.start hk hx records (fun j hj => engine_modEngine_other s hj _) rfl (by rw [self]) (by rw [self])
    (.inl (by rw [self])) (by rw [self])

theorem State.Sound.begin (h : s.Sound none False) (hk : (s.engine k).state = .idle) {w : Work}
    (hw : s.chooseWork k = some w) : ((s.beginWork k w).putOnBus k w.tx).Sound none False := by
  have self : ((s.beginWork k w).putOnBus k w.tx).engine k = _ := engine_modEngine_self _ k _
  refine h.start (by simp [hk]) (h.starts hk hw) (beginWork_records s k w) (fun j hj => ?_) (by simp)
    (by rw [self]) (by rw [self]) (by rw [self]; exact beginWork_request s k w)
    (by rw [self]; exact beginWork_probeQueue s k w)
  exact (engine_modEngine_other _ hj _).trans (beginWork_engine _ k j hj w)

theorem Fewer.endDiscovery (s : State) (k : Seg) (code : ResultCode) : Fewer s (s.endDiscovery k code) := by
  unfold State.endDiscovery
  split
  · exact .refl s
  · exact (Fewer.modEngine s k _ ⟨rfl, rfl, .inl rfl, fun _ => rfl, .refl _⟩).trans (.settleOps _ _)

/-- The context of a discovery may change; an engine that gets one is not IDLE in a `quiet` event. -/
theorem State.Sound.discovery (h : s.Sound off quiet) (k : Seg) (d : Discovery)
    (hd : quiet → (s.engine k).discovery ≠ none) : (s.putDiscovery k d).Sound off quiet :=
  h.engine k _ ⟨rfl, Iff.rfl, fun _ _ hw _ => .inl hw, fun _ hi => .inl hi, id,
    fun hq hidle => ⟨hidle, id, fun c => absurd c (hd hq), fun _ => id⟩⟩

theorem State.Sound.offerDiscovery (h : s.Sound none False) (hk : (s.engine k).state = .idle) (low : LowLines) :
    (s.offerDiscovery k low).Sound none False := by
  unfold State.offerDiscovery
  split
  · exact h
  · rename_i d hd
    dsimp only
    split
    · exact (h.discovery k _ nofun).fewer (.endDiscovery _ k .done)
    · rename_i t ht
      split
      · have put := h.discovery k (s.passKnown k 128 d) nofun
        have tx : ((s.putDiscovery k (s.passKnown k 128 d)).engine k).tx = none := by
          unfold State.putDiscovery
          rw [engine_modEngine_self]
          exact (h.idle (by simp [hk])).1
        exact (put.takeOff_none tx).enterRecovering
      · have put := h.discovery k { s.passKnown k 128 d with onBus := some t } nofun
        have state : ((s.putDiscovery k { s.passKnown k 128 d with onBus := some t }).engine k).state ≠ .active := by
          unfold State.putDiscovery
          rw [engine_modEngine_self]
          simp [hk]
        exact put.putOnBus state ⟨rfl, by simp [Tx.start], by simp [Tx.start], nofun, nofun⟩ (bare_records _ rfl)

theorem State.Sound.arbitrate (h : s.Sound none False) (low : LowLines) (k : Seg) :
    (s.arbitrate low k).Sound none False := by
  unfold State.arbitrate
  split
  · rename_i hk
    split
    · rename_i w hw
      split
      · exact (h.takeOff_none (h.idle (k := k) (by simp [hk])).1).enterRecovering
      · exact h.begin hk hw
    · exact h.offerDiscovery hk low
  · exact h

/-- Engine `k` has nothing left to do when it is IDLE: RestLaw, for one engine. -/
def State.QuietAt (s : State) (k : Seg) : Prop := (s.engine k).state = .idle →
  (s.engine k).request = none ∧ (s.poolSeg k).queue = [] ∧ (s.engine k).discovery = none ∧
  ∀ i ∈ (s.engine k).probeQueue, ∀ r, s.recAt i = some r → r.state = .retiring

theorem restLaw_iff : s.RestLaw ↔ ∀ k, s.QuietAt k := Iff.rfl

/-- What an engine is offered of its discovery changes neither its request nor its probe queue. -/
theorem putDiscovery_engine_self (s : State) (k : Seg) (d : Discovery) :
    (s.putDiscovery k d).engine k = { s.engine k with discovery := some d } := engine_modEngine_self s k _

/-- A discovery that ends where there is nothing else to do leaves nothing to do. -/
theorem quietAt_endDiscovery (request : (s.engine k).request = none) (queue : (s.poolSeg k).queue = [])
    (probes : ∀ i ∈ (s.engine k).probeQueue, ∀ r, s.recAt i = some r → r.state = .retiring) (d : Discovery)
    (code : ResultCode) : ((s.putDiscovery k d).endDiscovery k code).QuietAt k := by
  have engine := endDiscovery_engine (s.putDiscovery k d) k k code
  rw [if_pos rfl, putDiscovery_engine_self] at engine
  have pool : ((s.putDiscovery k d).endDiscovery k code).pool = s.pool := by simp [State.putDiscovery]
  have dir : ((s.putDiscovery k d).endDiscovery k code).dir = s.dir := by simp [State.putDiscovery]
  intro _
  rw [engine, poolSeg_of_pool pool]
  exact ⟨request, queue, rfl, fun i hi r hr => probes i hi r ((recAt_of_dir dir i).symm.trans hr)⟩

/-- An arbiter that has chosen leaves its engine with a transaction, in recovery, or with nothing to do. -/
theorem State.Sound.arbitrate_self (h : s.Sound none False) (low : LowLines) (k : Seg) :
    (s.arbitrate low k).QuietAt k := by
  unfold State.arbitrate
  split
  · rename_i hk
    split
    · rename_i w hw
      split
      · intro hidle
        simp [State.enterRecovering, Engine.toRecovering] at hidle
      · intro hidle
        simp [State.putOnBus] at hidle
    · rename_i hw
      obtain ⟨request, queue, probes⟩ := h.chooseWork_none hk hw
      unfold State.offerDiscovery
      split
      · exact fun _ => ⟨request, queue, ‹_›, probes⟩
      · dsimp only
        split
        · exact quietAt_endDiscovery request queue probes _ _
        · split
          · intro hidle
            simp [State.enterRecovering, Engine.toRecovering] at hidle
          · intro hidle
            simp [State.putOnBus] at hidle
  · exact fun hidle => absurd hidle ‹_›

theorem State.QuietAt.arbitrate {j : Seg} (h : s.QuietAt j) (low : LowLines) (hj : j ≠ k) :
    (s.arbitrate low k).QuietAt j := by
  intro hidle
  rw [arbitrate_engine_other s low hj] at hidle ⊢
  have pool : (s.arbitrate low k).pool = s.pool := by simp
  rw [poolSeg_of_pool pool]
  obtain ⟨request, queue, discovery, probes⟩ := h hidle
  refine ⟨request, queue, discovery, fun i hi r hr => ?_⟩
  have records := (arbitrate_onlyArbiters s low k).1 i
  rw [hr] at records
  obtain ⟨p, hp, e⟩ := Option.map_eq_some_iff.mp records.symm
  exact (congrArg Record.state e).symm.trans (probes i hi p hp)

theorem State.Sound.arbitrateAll (h : s.Sound none False) (low : LowLines) : (s.arbitrateAll low).Sound none True := by
  have h1 := h.arbitrate low 0
  have h2 := h1.arbitrate low 1
  have h3 := h2.arbitrate low 2
  have q0 := ((h.arbitrate_self low 0).arbitrate low (k := 1) (by decide)).arbitrate low (k := 2) (by decide)
  have q1 := (h1.arbitrate_self low 1).arbitrate low (k := 2) (by decide)
  refine { h3.arbitrate low 3 with rest := fun _ => restLaw_iff.mpr fun k => ?_ }
  match k with
  | 0 => exact q0.arbitrate low (by decide)
  | 1 => exact q1.arbitrate low (by decide)
  | 2 => exact (h2.arbitrate_self low 2).arbitrate low (by decide)
  | 3 => exact h3.arbitrate_self low 3

/-! ### The ends of events -/

theorem Fewer.conclude (s : State) : Fewer s s.conclude := by
  obtain ⟨-, dir, eng, pool, -⟩ := conclude_frame s
  exact .of_blocks eng pool dir

theorem Fewer.concludeWith (s : State) (r : Response) : Fewer s (s.concludeWith r) := by
  obtain ⟨-, dir, eng, pool, -⟩ := concludeWith_frame s r
  exact .of_blocks eng pool dir

theorem State.Sound.conclude (h : s.Sound off quiet) : s.conclude.Sound off quiet := h.fewer (.conclude s)

theorem State.Sound.concludeWith (h : s.Sound off quiet) (r : Response) : (s.concludeWith r).Sound off quiet :=
  h.fewer (.concludeWith s r)

/-- An event that ends with the arbiters' choice leaves no IDLE engine with anything to do (R54). -/
theorem State.Sound.settle (h : s.Sound none False) (low : LowLines) : (s.settle low).Sound none True :=
  (h.arbitrateAll low).conclude

theorem State.Sound.settleWith (h : s.Sound none False) (low : LowLines) (r : Response) :
    (s.settleWith low r).Sound none True :=
  (h.arbitrateAll low).concludeWith r

end Sys2Proof.Machine
end

section
namespace Sys2Proof.Machine

variable {s : State} {k : Seg} {off : Option Seg} {quiet : Prop}

/-! ### Steps of a transaction that leave it on the bus (R36 to R38, R59, R60) -/

theorem Fewer.setUp (s : State) (u : UpPort) : Fewer s (s.setUp u) := .of_blocks rfl rfl rfl

theorem Fewer.setCtx (s : State) (c : UpContext) : Fewer s (s.setCtx c) := .of_blocks rfl rfl rfl

theorem Fewer.setOut (s : State) (o : UpLines) : Fewer s (s.setOut o) := .of_blocks rfl rfl rfl

theorem Fewer.upNak (s : State) : Fewer s s.upNak := .of_blocks rfl rfl rfl

theorem Fewer.upStandIn (s : State) : Fewer s s.upStandIn := .of_blocks (by simp) (by simp) (by simp)

/-- An engine that keeps its transaction, to the laws, and everything that waits. -/
theorem Fewer.onBus (k : Seg) (f : Engine → Engine) (tx : (f (s.engine k)).tx.map Tx.core = (s.engine k).tx.map Tx.core)
    (rest : ∀ e, (f e).state = e.state ∧ (f e).request = e.request ∧ (f e).discovery = e.discovery ∧
      (f e).probeQueue = e.probeQueue) : Fewer s (s.modEngine k f) := by
  obtain ⟨state, request, discovery, probes⟩ := rest (s.engine k)
  exact .modEngine s k f ⟨state, tx, .inl request, fun h => discovery.trans h, probes ▸ .refl _⟩

theorem Fewer.stepTx (k : Seg) {x t : Tx} (hx : (s.engine k).tx = some x) (ht : t.core = x.core) :
    Fewer s (s.stepTx k t) := by
  refine .onBus k _ ?_ fun _ => ⟨rfl, rfl, rfl, rfl⟩
  rw [hx]
  exact congrArg some ht

theorem Fewer.mapTx (k : Seg) (f : Tx → Tx) (hf : ∀ x, (f x).core = x.core) :
    Fewer s (s.modEngine k fun e => { e with tx := e.tx.map f }) := by
  refine .onBus k _ ?_ fun _ => ⟨rfl, rfl, rfl, rfl⟩
  rw [Option.map_map]
  exact congrArg (Option.map · _) (funext hf)

theorem Fewer.putTx (k : Seg) {x t : Tx} (hx : (s.engine k).tx = some x) (ht : t.core = x.core) :
    Fewer s (s.modEngine k fun e => { e with tx := some t }) := by
  refine .onBus k _ ?_ fun _ => ⟨rfl, rfl, rfl, rfl⟩
  rw [hx]
  exact congrArg some ht

theorem Fewer.fetchByte (s : State) (k : Seg) : Fewer s (s.fetchByte k) :=
  (Fewer.mapTx k (fun t => { t with phase := .data, step := .fetch }) fun _ => rfl).trans (.setCtx _ _)

theorem Fewer.relayAddressAck (s : State) (k : Seg) (t : Tx) : Fewer s (s.relayAddressAck k t) := by
  unfold State.relayAddressAck
  dsimp only
  split
  · exact .setUp s _
  · exact (Fewer.setUp s _).trans (.fetchByte _ k)

theorem Fewer.usedByForward (s : State) (t : Tx) : Fewer s (s.usedByForward t) := by
  unfold State.usedByForward
  split
  · exact .usedClaim s _
  · exact .refl s

theorem usedByForward_engine (s : State) (t : Tx) (k : Seg) : (s.usedByForward t).engine k = s.engine k := by
  unfold State.usedByForward State.usedClaim
  split <;> simp

theorem Fewer.forwardAddressAnswer {x : Tx} (hx : (s.engine k).tx = some x) (ack : Bool) :
    Fewer s (s.forwardAddressAnswer k x ack) := by
  have used := Fewer.usedByForward s x
  have hx' : ((s.usedByForward x).engine k).tx = some x := by rw [usedByForward_engine, hx]
  unfold State.forwardAddressAnswer
  split
  · split
    · exact used.trans (.stepTx k hx' (by rfl))
    · exact .stepTx k hx (by rfl)
  · split
    · have step := used.trans (.stepTx k (t := { x with phase := .data, step := .waitUp }) hx' rfl)
      dsimp only
      split
      · exact step.trans (.relayAddressAck _ k x)
      · exact step
    · have step := Fewer.stepTx k (t := { x with phase := .closing, step := .stop, reason := some .addressNak }) hx rfl
      dsimp only
      split
      · exact step.trans (.upNak _)
      · exact step

theorem Fewer.sendNext {x : Tx} (hx : (s.engine k).tx = some x) (n : Nat) : Fewer s (s.sendNext k x n) := by
  unfold State.sendNext
  split
  · split <;> exact .stepTx k hx (by rfl)
  · exact .refl s

theorem Fewer.addressAnswer (s : State) (k : Seg) (ack : Bool) : Fewer s (s.addressAnswer k ack) := by
  unfold State.addressAnswer
  split
  · rename_i x hx
    split
    · split
      · exact .forwardAddressAnswer hx ack
      · exact .forwardAddressAnswer hx ack
      · split
        · exact .sendNext hx 0
        · exact .stepTx k hx (by rfl)
      · exact .refl s
      · exact .refl s
      · exact .refl s
    · exact .refl s
  · exact .refl s

theorem Fewer.forwardByteAnswer {x : Tx} (hx : (s.engine k).tx = some x) (ack : Bool) :
    Fewer s (s.forwardByteAnswer k x ack) := by
  unfold State.forwardByteAnswer
  dsimp only
  split
  · exact .stepTx k hx (by rfl)
  · split
    · have step := Fewer.stepTx k (t := { x with step := .waitUp, carried := x.carried + 1 }) hx rfl
      split
      · exact step.trans (.setUp _ _)
      · exact step
    · have step := Fewer.stepTx k (t := { x with phase := .closing, step := .stop, reason := some .dataNak }) hx rfl
      split
      · exact step.trans (.upNak _)
      · exact step

theorem Fewer.byteAnswer (s : State) (k : Seg) (ack : Bool) : Fewer s (s.byteAnswer k ack) := by
  unfold State.byteAnswer
  split
  · rename_i x hx
    split
    · split
      · exact .refl s
      · split
        · exact .forwardByteAnswer hx ack
        · exact .forwardByteAnswer hx ack
        · split
          · exact .sendNext hx _
          · exact .stepTx k hx (by rfl)
        · exact .refl s
        · exact .refl s
        · exact .refl s
    · exact .refl s
  · exact .refl s

theorem Fewer.byteArrives (s : State) (k : Seg) (b : Byte) : Fewer s (s.byteArrives k b) := by
  unfold State.byteArrives
  split
  · rename_i x hx
    split
    · split
      · exact .stepTx k hx (by rfl)
      · have step := Fewer.stepTx k (t := { x with step := .hold b }) hx rfl
        dsimp only
        split
        · exact step.trans (.setUp _ _)
        · exact step
    · exact .refl s
  · exact .refl s

theorem Fewer.carryByte (s : State) (k : Seg) (b : Byte) : Fewer s (s.carryByte k b) := by
  unfold State.carryByte
  split
  · rename_i x hx
    split
    · exact (Fewer.putTx k (t := { x with step := .send b }) hx rfl).trans (.setUp _ _)
    · exact .refl s
  · exact .refl s

theorem Fewer.takeByte (s : State) (b : Byte) : Fewer s (s.takeByte b) := by
  unfold State.takeByte
  split
  · split
    · split
      · exact .setUp s _
      · exact .setOut s _
    · exact .setOut s _
    · split
      · exact .carryByte s _ b
      · exact .refl s
    · split
      · exact .carryByte s _ b
      · exact .refl s
    · exact .refl s
    · exact .refl s
  · exact .setOut s _
  · exact .refl s
  · exact .refl s

theorem Fewer.answerByte (s : State) (k : Seg) (ack : Bool) : Fewer s (s.answerByte k ack) := by
  unfold State.answerByte
  split
  · rename_i x hx
    split
    · have step := (Fewer.putTx k (t := { x with step := .nak, carried := x.carried + 1 }) hx rfl).trans (.setOut _ .released)
      dsimp only
      split
      · exact step.trans (.fetchByte _ k)
      · exact step.trans (.setCtx _ _)
    · exact .refl s
  · exact .refl s

theorem Fewer.takeReadAnswer (s : State) (ack : Bool) : Fewer s (s.takeReadAnswer ack) := by
  unfold State.takeReadAnswer
  split
  · split
    · exact .setOut s _
    · split
      · split
        · exact .setOut s _
        · exact .setUp s _
      · split
        · exact .answerByte s _ ack
        · exact .refl s
      · split
        · exact .answerByte s _ ack
        · exact .refl s
      · exact .refl s
      · exact .refl s
      · exact .refl s
  · exact .refl s
  · exact .refl s
  · exact .refl s

/-- A request for the end of a forward leaves it on the bus, in phase CLOSING (R59). -/
theorem Fewer.requestEnd (s : State) (k : Seg) : Fewer s (s.requestEnd k) := by
  refine .modEngine s k _ ?_
  split
  · rename_i x hx
    split
    · exact ⟨rfl, by rw [hx]; rfl, .inl rfl, id, .refl _⟩
    · exact .refl _
  · exact .refl _

theorem Fewer.requestEndOpen (s : State) : Fewer s s.requestEndOpen := by
  unfold State.requestEndOpen
  split
  · exact .requestEnd s _
  · exact .refl s

theorem Fewer.dropRequest (s : State) : Fewer s s.dropRequest := by
  unfold State.dropRequest
  split
  · exact .modEngine s _ _ ⟨rfl, rfl, .inr rfl, id, .refl _⟩
  · exact .refl s

theorem Fewer.answerAsExpired (s : State) : Fewer s s.answerAsExpired := by
  unfold State.answerAsExpired
  split
  · exact .setUp s _
  · split
    · exact .upNak s
    · exact .setCtx s _
  · exact .upNak s
  · exact .refl s

theorem Fewer.holdExpiry (s : State) : Fewer s s.holdExpiry := by
  unfold State.holdExpiry
  split
  · exact ((Fewer.dropRequest s).trans (.requestEndOpen _)).trans (.answerAsExpired _)
  · exact .refl s

theorem Fewer.closeDownstream (s : State) (k : Seg) : Fewer s (s.closeDownstream k) := by
  unfold State.closeDownstream
  split
  · exact .setCtx s _
  · exact .refl s

theorem Fewer.forwardLost (s : State) (k : Seg) (t : Tx) : Fewer s (s.forwardLost k t) := by
  unfold State.forwardLost
  dsimp only
  split
  · exact (Fewer.answerAsExpired s).trans (.closeDownstream _ k)
  · exact .closeDownstream s k

theorem Fewer.clockHeld (s : State) (k : Seg) : Fewer s (s.clockHeld k) := by
  rcases clockHeld_cases s k with e | ⟨-, -, e⟩ <;> rw [e]
  · exact .refl s
  · exact .onBus k _ rfl fun _ => ⟨rfl, rfl, rfl, rfl⟩

theorem Fewer.clockRises (s : State) (k : Seg) : Fewer s (s.clockRises k) := by
  refine .onBus k _ ?_ fun _ => ⟨rfl, rfl, rfl, rfl⟩
  rw [Option.map_map]
  exact congrArg (Option.map · _) (funext fun _ => rfl)

end Sys2Proof.Machine
end

section
namespace Sys2Proof.Machine

variable {s : State} {k : Seg} {off : Option Seg} {quiet : Prop}

/-! ### The ends of transactions under the laws of work (R17, R18, R60, R63, R65, R66) -/

theorem noDelivery {x : Tx} (hx : (s.engine k).tx = some x) (h : x.kind ≠ .delivery ∨ x.silent = true) :
    s.deliveryOnBus k = false := by
  unfold State.deliveryOnBus
  rw [hx]
  rcases h with h | h <;> simp [h]

theorem isForward_iff (x : Tx) : x.isForward = true ↔ x.kind = .forward ∨ x.kind = .catchAll := by
  simp [Tx.isForward]

theorem State.Sound.forwardOver (h : s.Sound none quiet) {x : Tx} (hx : (s.engine k).tx = some x)
    (hf : x.isForward = true) (hl : x.silent = false) (charged : Bool) :
    (s.forwardOver x.slot charged).Sound (some k) quiet := by
  have kind := (isForward_iff x).mp hf
  have noDel : s.deliveryOnBus k = false := noDelivery hx (.inl (by rcases kind with e | e <;> simp [e]))
  have onBus : s.busTx none k = some x := (busTx_none k).trans hx
  unfold State.forwardOver
  cases hs : x.slot with
  | none => exact h.takeOff_same hx noDel (.inl hs)
  | some i =>
    have forward : x.kind = .forward := kind.resolve_right fun c => by
      have bare := (h.slots k x onBus).mpr (.inl c)
      rw [hs] at bare
      cases bare
    have cleared := h.clearMarker hx noDel hs hl (h.owning k x onBus hl (.inl forward))
    dsimp only
    split
    · exact (cleared.charge i).afterEnd i
    · exact cleared.afterEnd i

/-- A delivery is taken off its bus, its queue being left with entries that wait (R60, R81). -/
theorem State.Sound.takeDelivery (h : s.Sound none quiet) {x : Tx} (hx : (s.engine k).tx = some x)
    (hk : x.kind = .delivery) (hl : x.silent = false) {i : Slot} (hs : x.slot = some i) (f : PoolSeg → PoolSeg)
    (unmarked : (f (s.poolSeg k)).purgeMark = false)
    (queue : ∀ e ∈ (f (s.poolSeg k)).queue, ∃ r, s.recAt e.slot = some r ∧ r.segment = k ∧
      (r.state = .bound ∨ r.state = .retiring)) :
    (((s.modPool k f).clearTx k).clearMarker i).Sound (some k) quiet := by
  have owns := h.owning k x ((busTx_none k).trans hx) hl (.inr hk)
  have engine : ∀ j, (((s.modPool k f).clearTx k).clearMarker i).engine j = ((s.modPool k f).clearTx k).engine j :=
    engine_of_eng (by simp)
  have pool : ∀ j, (((s.modPool k f).clearTx k).clearMarker i).poolSeg j = (s.modPool k f).poolSeg j :=
    fun j => poolSeg_of_pool (s := (s.modPool k f).clearTx k) (by simp) j
  have self : ((s.modPool k f).clearTx k).engine k = { s.engine k with tx := none } := engine_modEngine_self _ k _
  refine h.takeOff hx (clearMarker_records ((s.modPool k f).clearTx k) i hs owns hl) (fun j hj => ?_) (fun j hj => ?_)
    (by rw [engine, self]) (by rw [engine, self]) (by rw [engine, self]) ?_ ?_ ?_
  · rw [engine]
    exact engine_modEngine_other _ hj _
  · rw [pool, poolSeg_modPool_other s hj]
  · unfold State.deliveryOnBus
    rw [engine, self]
  · rw [pool, poolSeg_modPool_self, unmarked]
  · rw [pool, poolSeg_modPool_self]
    exact queue

theorem State.Sound.deliveryOver (h : s.Sound none quiet) {x : Tx} (hx : (s.engine k).tx = some x)
    (hk : x.kind = .delivery) (hl : x.silent = false) {i : Slot} (hs : x.slot = some i) (lost charged : Bool) :
    (s.deliveryOver k i lost charged).Sound (some k) quiet := by
  have onBus : s.deliveryOnBus k = true := (deliveryOnBus_iff k).mpr ⟨x, hx, hk, hl⟩
  have off := h.takeDelivery hx hk hl hs (fun p => { p with queue := p.queue.drop 1, purgeMark := false }) rfl
    fun e he => (h.entries k).1 e (by unfold State.waitingEntries; rw [onBus]; exact he)
  have claimed : (if lost then (((s.removeHead k).clearTx k).clearMarker i).undeliveredClaim i
      else (((s.removeHead k).clearTx k).clearMarker i).usedClaim i).Sound (some k) quiet := by
    split
    · exact off.fewer (.undeliveredClaim _ i)
    · exact off.fewer (.usedClaim _ i)
  unfold State.deliveryOver
  dsimp only
  refine State.Sound.afterEnd ?_ i
  split
  · exact claimed.charge i
  · exact claimed

/-- The delivery on the bus carries the head entry. -/
theorem State.Sound.head (h : s.Sound none quiet) {x : Tx} (hx : (s.engine k).tx = some x) (hk : x.kind = .delivery)
    (hl : x.silent = false) : ∃ e rest r, (s.poolSeg k).queue = e :: rest ∧ x.slot = some e.slot ∧
      s.recAt e.slot = some r ∧ r.segment = k ∧
      ((s.poolSeg k).purgeMark = false → r.state = .bound ∨ r.state = .retiring) := by
  obtain ⟨y, e, rest, r, hy, law⟩ := (h.entries k).2.1 ((deliveryOnBus_iff k).mpr ⟨x, hx, hk, hl⟩)
  cases hx.symm.trans hy
  exact ⟨e, rest, r, law⟩

theorem State.Sound.deliveryCut (h : s.Sound none quiet) {x : Tx} (hx : (s.engine k).tx = some x)
    (hk : x.kind = .delivery) (hl : x.silent = false) {i : Slot} (hs : x.slot = some i) :
    (s.deliveryCut k i).Sound (some k) quiet := by
  obtain ⟨e, rest, r, hqueue, -, hr, hseg, hst⟩ := h.head hx hk hl
  have onBus : s.deliveryOnBus k = true := (deliveryOnBus_iff k).mpr ⟨x, hx, hk, hl⟩
  unfold State.deliveryCut
  rw [hqueue]
  dsimp only
  split
  · exact h.deliveryOver hx hk hl hs true false
  · rename_i kept
    have unmarked : (s.poolSeg k).purgeMark = false := Bool.eq_false_iff.mpr fun c => kept (.inr c)
    refine State.Sound.afterEnd (h.takeDelivery hx hk hl hs
      (fun p => { p with queue := { e with retried := true } :: rest }) unmarked fun f hf => ?_) i
    rcases List.mem_cons.mp hf with rfl | hf
    · exact ⟨r, hr, hseg, hst unmarked⟩
    · refine (h.entries k).1 f ?_
      unfold State.waitingEntries
      rw [onBus, hqueue]
      exact hf

theorem isProbe_iff (x : Tx) : x.isProbe = true ↔ x.kind = .quickProbe ∨ x.kind = .identityProbe := by
  simp [Tx.isProbe]

theorem State.Sound.clearProbeMarker (h : s.Sound none quiet) {x : Tx} (hx : (s.engine k).tx = some x)
    (hp : x.isProbe = true) (hl : x.silent = false) {i : Slot} (hs : x.slot = some i) :
    (s.clearProbeMarker x i).Sound (some k) quiet := by
  have noDel : s.deliveryOnBus k = false := noDelivery hx (.inl (by rcases (isProbe_iff x).mp hp with e | e <;> simp [e]))
  unfold State.clearProbeMarker
  split
  · exact h.clearMarker hx noDel hs hl ‹_›
  · rename_i ho
    exact h.takeOff_same hx noDel (.inr (.inl (by simpa using ho)))

theorem Fewer.answerBusProbes (s : State) (i : Slot) (o : ProbeOutcome) (byte : Option Byte) :
    Fewer s (s.answerBusProbes i o byte) := by
  unfold State.answerBusProbes
  split
  · exact .settleOps s _
  · exact .refl s

theorem State.Sound.probeOver (h : s.Sound none quiet) {x : Tx} (hx : (s.engine k).tx = some x)
    (hp : x.isProbe = true) (hl : x.silent = false) {i : Slot} (hs : x.slot = some i) (answer : ProbeAnswer) :
    (s.probeOver k x i answer).Sound (some k) quiet := by
  have off := h.clearProbeMarker hx hp hl hs
  unfold State.probeOver
  dsimp only
  split
  · rename_i r hr
    split
    · rename_i applies
      have bound : r.state ≠ .retiring := fun c => by simp [Tx.appliesTo, c] at applies
      exact State.Sound.afterEnd ((off.applyOutcome hr bound _ _).fewer (.answerBusProbes _ i _ _)) i
    · exact off.afterEnd i
  · exact off

/-- What follows the end of a transaction leaves the states of the engines. -/
theorem afterEnd_engineState (s : State) (i : Slot) (k : Seg) :
    ((s.afterEnd i).engine k).state = (s.engine k).state := by
  cases hr : s.recAt i with
  | none =>
    unfold State.afterEnd
    dsimp only
    rw [retireCheck_free i hr, hr]
  | some r =>
    by_cases he : s.endsWith i r
    · rw [afterEnd_frees s i r hr he, freeSlot_engine s i r hr]
      rfl
    · rw [afterEnd_stays s i r hr he]
      rfl

theorem clearProbeMarker_engine (s : State) (x : Tx) (i : Slot) (k : Seg) :
    (s.clearProbeMarker x i).engine k = s.engine k := by
  unfold State.clearProbeMarker State.clearMarker
  split <;> simp

theorem State.Sound.probeCut (h : s.Sound none quiet) {x : Tx} (hx : (s.engine k).tx = some x)
    (hp : x.isProbe = true) (hl : x.silent = false) {i : Slot} (hs : x.slot = some i) :
    (s.probeCut k x i).Sound (some k) quiet := by
  have off := (h.clearProbeMarker hx hp hl hs).afterEnd i
  have active : (((s.clearProbeMarker x i).afterEnd i).engine k).state = .active := by
    rw [afterEnd_engineState, clearProbeMarker_engine]
    exact (h.active k (by simp)).mp (by rw [hx]; rfl)
  unfold State.probeCut
  dsimp only
  split
  · rename_i r hr
    split
    · rename_i mine
      have queued := off.engine k
        (fun e => { e with probeQueue := if i ∈ e.probeQueue then e.probeQueue else i :: e.probeQueue })
        ⟨rfl, Iff.rfl, fun _ _ hw _ => .inl hw, fun j hj => ?_, fun nodup => ?_, fun _ hidle => ?_⟩
      · exact queued.fewer (.of_blocks rfl rfl rfl)
      · dsimp only at hj
        split at hj
        · exact .inl hj
        · rcases List.mem_cons.mp hj with rfl | hj
          · exact .inr ⟨r, hr, mine.2⟩
          · exact .inl hj
      · dsimp only
        split
        · exact nodup
        · exact List.nodup_cons.mpr ⟨‹_›, nodup⟩
      · rw [active] at hidle
        cases hidle
    · exact off
  · exact off

/-! ### The end of a discovery probe (R16, R121, R122) -/

/-- On a bus taken as empty a discovery goes on with its next address. -/
theorem State.Sound.putDiscovery_active (h : s.Sound off quiet) (hk : (s.engine k).state ≠ .idle) (d : Discovery) :
    (s.putDiscovery k d).Sound off quiet :=
  h.engine k _ ⟨rfl, Iff.rfl, fun _ _ hw _ => .inl hw, fun _ hi => .inl hi, id, fun _ hidle => absurd hidle hk⟩

theorem State.Sound.afterAddress (h : s.Sound off quiet) (hk : (s.engine k).state ≠ .idle) (d : Discovery) :
    (s.afterAddress k d).Sound off quiet := by
  have put := h.putDiscovery_active hk d
  unfold State.afterAddress
  dsimp only
  split
  · exact put.fewer (.endDiscovery _ k _)
  · split
    · exact put.fewer (.endDiscovery _ k _)
    · exact put

theorem State.Sound.creation (h : s.Sound off False) (k : Seg) (t a : Addr) :
    ((s.judgeCreation k t a).records k t a s).Sound off False := by
  unfold State.judgeCreation
  split
  · exact h
  · split
    · exact h
    · split
      · exact h
      · rename_i i hi
        exact h.createRec i _ ((lowestFree_eq_some_iff s i).mp hi).1.1 rfl

theorem creation_engine (s : State) (c : Creation) (k j : Seg) (t a : Addr) :
    (c.records k t a s).engine j = s.engine j := by
  cases c <;> rfl

theorem State.Sound.deviceFound (h : s.Sound off False) (hk : (s.engine k).state ≠ .idle) (d : Discovery) (t : Addr) :
    (s.deviceFound k d t).Sound off False := by
  have created := h.creation k t (d.aliasOf t)
  have state : (((s.judgeCreation k t (d.aliasOf t)).records k t (d.aliasOf t) s).engine k).state ≠ .idle := by
    rw [creation_engine]
    exact hk
  unfold State.deviceFound
  dsimp only
  split
  · exact (created.putDiscovery_active state _).fewer (.endDiscovery _ k _)
  · exact created.afterAddress state _

theorem State.Sound.discoveryProbeOver (h : s.Sound off False) (hk : (s.engine k).state ≠ .idle) (t : Addr)
    (found : Bool) : (s.discoveryProbeOver k t found).Sound off False := by
  unfold State.discoveryProbeOver
  split
  · exact h
  · split
    · exact h.deviceFound hk _ t
    · exact h.afterAddress hk _

/-- A discovery probe that stalls finds no device (R121). -/
theorem State.Sound.discoveryProbeStalled (h : s.Sound off quiet) (hk : (s.engine k).state ≠ .idle) (t : Addr) :
    (s.discoveryProbeOver k t false).Sound off quiet := by
  unfold State.discoveryProbeOver
  split
  · exact h
  · exact h.afterAddress hk _

theorem State.Sound.discoveryCut (h : s.Sound off quiet) (hk : (s.engine k).state ≠ .idle) :
    (s.discoveryCut k).Sound off quiet := by
  unfold State.discoveryCut
  split
  · exact h
  · dsimp only
    split
    · exact (h.putDiscovery_active hk _).fewer (.endDiscovery _ k _)
    · exact h.putDiscovery_active hk _

/-- A discovery probe stands for no marker. -/
theorem State.Sound.takeOff_discovery (h : s.Sound none quiet) {x : Tx} (hx : (s.engine k).tx = some x)
    (hk : x.kind = .discoveryProbe) : s.Sound (some k) quiet :=
  h.takeOff_same hx (noDelivery hx (.inl (by simp [hk])))
    (.inl ((h.slots k x ((busTx_none k).trans hx)).mpr (.inr hk)))

end Sys2Proof.Machine
end

section
namespace Sys2Proof.Machine

variable {s : State} {k : Seg}

/-! ### Events of the segment buses under the laws of work -/

theorem closeDownstream_engine (s : State) (k j : Seg) : (s.closeDownstream k).engine j = s.engine j := by
  unfold State.closeDownstream
  split <;> rfl

theorem forwardLost_engine (s : State) (k : Seg) (x : Tx) (j : Seg) : (s.forwardLost k x).engine j = s.engine j := by
  unfold State.forwardLost State.answerAsExpired
  dsimp only
  rw [closeDownstream_engine]
  repeat' split
  all_goals rfl

theorem State.Sound.busy (h : s.Sound none True) {x : Tx} (hx : (s.engine k).tx = some x) :
    (s.engine k).state ≠ .idle := by
  rw [(h.active k (by simp)).mp (by rw [hx]; rfl)]
  nofun

theorem State.Sound.endForward (h : s.Sound none True) (k : Seg) (low : LowLines) :
    (s.endForward k low).Sound none True := by
  unfold State.endForward
  split
  · rename_i x hx
    split
    · rename_i ends
      have closed := h.fewer (.closeDownstream s k)
      have off := closed.forwardOver (by rw [closeDownstream_engine, hx]) ends.1 ends.2.2.2
        (decide (x.reason = some .addressNak))
      exact off.weaken.releaseBus.settle low
    · exact h
  · exact h

theorem State.Sound.endDelivery (h : s.Sound none True) (k : Seg) (o : DeliveryEnd) (low : LowLines) :
    (s.endDelivery k o low).Sound none True := by
  unfold State.endDelivery
  split
  · rename_i x e rest hx hq
    split
    · rename_i ends
      obtain ⟨hk, hl, -⟩ := ends
      obtain ⟨e', rest', -, hq', hs, -⟩ := h.head hx hk hl
      cases hq.symm.trans hq'
      exact (h.deliveryOver hx hk hl hs _ _).weaken.releaseBus.settle low
    · exact h
  · exact h

theorem State.Sound.endProbe (h : s.Sound none True) (k : Seg) (answer : ProbeAnswer) (low : LowLines) :
    (s.endProbe k answer low).Sound none True := by
  unfold State.endProbe
  split
  · rename_i x hx
    split
    · rename_i i hs
      split
      · rename_i ends
        exact (h.probeOver hx ends.1 ends.2 hs answer).weaken.releaseBus.settle low
      · exact h
    · exact h
  · exact h

theorem State.Sound.endDiscoveryProbe (h : s.Sound none True) (k : Seg) (found : Bool) (low : LowLines) :
    (s.endDiscoveryProbe k found low).Sound none True := by
  unfold State.endDiscoveryProbe
  split
  · rename_i x hx
    split
    · rename_i ends
      exact ((h.takeOff_discovery hx ends.1).weaken.discoveryProbeOver (h.busy hx) _ found).releaseBus.settle low
    · exact h
  · exact h

theorem State.Sound.stallOver (h : s.Sound none True) {x : Tx} (hx : (s.engine k).tx = some x) (hl : x.silent = false) :
    (s.stallOver k x).Sound (some k) True := by
  have named : ∀ hk : x.kind ≠ .catchAll ∧ x.kind ≠ .discoveryProbe, x.slot ≠ none := fun hk c =>
    ((h.slots k x ((busTx_none k).trans hx)).mp c).elim hk.1 hk.2
  have forward : x.isForward = true → ((s.forwardLost k x).forwardOver x.slot true).Sound (some k) True := fun hf =>
    (h.fewer (.forwardLost s k x)).forwardOver (by rw [forwardLost_engine, hx]) hf hl true
  have probe : x.isProbe = true → ∀ i, x.slot = some i → (s.probeOver k x i .notAnswered).Sound (some k) True :=
    fun hp i hs => h.probeOver hx hp hl hs .notAnswered
  unfold State.stallOver
  split
  · exact forward ((isForward_iff x).mpr (.inl ‹_›))
  · exact forward ((isForward_iff x).mpr (.inr ‹_›))
  · rename_i hk
    split
    · exact h.deliveryOver hx hk hl ‹_› true true
    · exact absurd ‹_› (named (by simp [hk]))
  · rename_i hk
    split
    · exact probe ((isProbe_iff x).mpr (.inl hk)) _ ‹_›
    · exact absurd ‹_› (named (by simp [hk]))
  · rename_i hk
    split
    · exact probe ((isProbe_iff x).mpr (.inr hk)) _ ‹_›
    · exact absurd ‹_› (named (by simp [hk]))
  · exact (h.takeOff_discovery hx ‹_›).discoveryProbeStalled (h.busy hx) _

theorem State.Sound.cutOver (h : s.Sound none True) {x : Tx} (hx : (s.engine k).tx = some x) (hl : x.silent = false) :
    (s.cutOver k x).Sound (some k) True := by
  have named : ∀ hk : x.kind ≠ .catchAll ∧ x.kind ≠ .discoveryProbe, x.slot ≠ none := fun hk c =>
    ((h.slots k x ((busTx_none k).trans hx)).mp c).elim hk.1 hk.2
  have forward : x.isForward = true → ((s.forwardLost k x).forwardOver x.slot false).Sound (some k) True := fun hf =>
    (h.fewer (.forwardLost s k x)).forwardOver (by rw [forwardLost_engine, hx]) hf hl false
  have probe : x.isProbe = true → ∀ i, x.slot = some i → (s.probeCut k x i).Sound (some k) True :=
    fun hp i hs => h.probeCut hx hp hl hs
  unfold State.cutOver
  split
  · exact forward ((isForward_iff x).mpr (.inl ‹_›))
  · exact forward ((isForward_iff x).mpr (.inr ‹_›))
  · rename_i hk
    split
    · exact h.deliveryCut hx hk hl ‹_›
    · exact absurd ‹_› (named (by simp [hk]))
  · rename_i hk
    split
    · exact probe ((isProbe_iff x).mpr (.inl hk)) _ ‹_›
    · exact absurd ‹_› (named (by simp [hk]))
  · rename_i hk
    split
    · exact probe ((isProbe_iff x).mpr (.inr hk)) _ ‹_›
    · exact absurd ‹_› (named (by simp [hk]))
  · exact (h.takeOff_discovery hx ‹_›).discoveryCut (h.busy hx)

/-- A closing left by a restart stands for no marker (R76). -/
theorem State.Sound.takeOff_silent (h : s.Sound none True) {x : Tx} (hx : (s.engine k).tx = some x)
    (hl : x.silent = true) : s.Sound (some k) True :=
  h.takeOff_same hx (noDelivery hx (.inr hl)) (.inr (.inr hl))

theorem State.Sound.takeStall (h : s.Sound none True) (k : Seg) (low : LowLines) :
    (s.takeStall k low).Sound none True := by
  unfold State.takeStall
  split
  · rename_i x _ hx _
    split
    · exact (h.takeOff_silent hx ‹_›).weaken.releaseBus.settle low
    · rename_i hl
      exact (h.stallOver hx (by simpa using hl)).enterRecovering.conclude
  · exact h

theorem State.Sound.takeFault (h : s.Sound none True) (k : Seg) : (s.takeFault k).Sound none True := by
  unfold State.takeFault
  split
  · rename_i x hx
    split
    · exact (h.takeOff_silent hx ‹_›).enterRecovering
    · rename_i hl
      exact (h.cutOver hx (by simpa using hl)).enterRecovering
  · exact h

theorem State.Sound.closingEnd (h : s.Sound none True) (k : Seg) (low : LowLines) :
    (if s.closingSilently k then (s.releaseBus k).settle low else s).Sound none True := by
  split
  · rename_i closing
    unfold State.closingSilently at closing
    cases hx : (s.engine k).tx with
    | none => simp [hx] at closing
    | some x => exact (h.takeOff_silent hx (by simpa [hx] using closing)).weaken.releaseBus.settle low
  · exact h

end Sys2Proof.Machine
end

section
namespace Sys2Proof.Machine

variable {s : State} {k : Seg} {off : Option Seg}

/-! ### A posted write joins its queue (R49, R80, R81) -/

/-- The queues may change where the entries stay tied to their records. -/
theorem State.Sound.queues {t : State} (h : s.Sound off False) (eng : t.eng = s.eng) (dir : t.dir = s.dir)
    (entries : t.EntriesLaw) : t.Sound off False := by
  have engine : ∀ k, t.engine k = s.engine k := engine_of_eng eng
  have records : ∀ i, t.recAt i = s.recAt i := recAt_of_dir dir
  have bus : ∀ k, t.busTx off k = s.busTx off k := fun k => by unfold State.busTx; rw [engine]
  refine ⟨fun k => by rw [engine]; exact h.active k, fun k => ?_, fun k => by rw [bus]; exact h.slots k,
    fun i r hr k => ?_, fun k => ?_, fun k => by rw [bus]; exact h.owning k, entries, fun k w i => ?_, fun k i => ?_,
    fun k => by rw [engine]; exact h.nodup k, nofun⟩
  · rw [deliveryOnBus_of_eng eng]
    exact h.clear k
  · rw [bus]
    exact h.marks i r ((records i).symm.trans hr) k
  · rw [bus]
    simp only [records]
    exact h.owners k
  · rw [engine, records]
    exact h.requests k w i
  · rw [engine, records]
    exact h.homes k i

theorem State.Sound.push (h : s.Sound off False) {e : Entry} {r : Record} (hr : s.recAt e.slot = some r)
    (hk : r.segment = k) (hb : r.state = .bound) :
    (s.modPool k fun p => { p with queue := p.queue ++ [e] }).Sound off False := by
  refine h.queues rfl rfl fun j => ?_
  by_cases hj : j = k
  · subst hj
    obtain ⟨waiting, head, mark⟩ := h.entries j
    have pool := poolSeg_modPool_self s j fun p => { p with queue := p.queue ++ [e] }
    have delivery : (s.modPool j fun p => { p with queue := p.queue ++ [e] }).deliveryOnBus j = s.deliveryOnBus j := rfl
    have waits : ∀ f ∈ (s.modPool j fun p => { p with queue := p.queue ++ [e] }).waitingEntries j,
        f ∈ s.waitingEntries j ∨ f = e := fun f hf => by
      unfold State.waitingEntries at hf ⊢
      rw [delivery, pool] at hf
      split at hf
      · rename_i hd
        obtain ⟨-, e0, rest, -, -, hqueue, -⟩ := head hd
        rw [hqueue] at hf ⊢
        simpa [hd] using hf
      · rename_i hd
        simpa [hd] using hf
    refine ⟨fun f hf => ?_, fun hd => ?_, fun hm => ?_⟩
    · rcases waits f hf with hf | rfl
      · exact waiting f hf
      · exact ⟨r, hr, hk, .inl hb⟩
    · obtain ⟨x, e0, rest, p, hx, hqueue, law⟩ := head hd
      exact ⟨x, e0, rest ++ [e], p, hx, by rw [pool, hqueue]; rfl, by rw [pool]; exact law⟩
    · rw [pool] at hm
      exact mark hm
  · have pool : (s.modPool k fun p => { p with queue := p.queue ++ [e] }).poolSeg j = s.poolSeg j :=
      poolSeg_modPool_other s hj _
    obtain ⟨waiting, head, mark⟩ := h.entries j
    refine ⟨fun f hf => waiting f ?_, fun hd => ?_, fun hm => mark (pool ▸ hm)⟩
    · unfold State.waitingEntries at hf ⊢
      rw [pool] at hf
      exact hf
    · obtain ⟨x, e0, rest, p, hx, law⟩ := head hd
      exact ⟨x, e0, rest, p, hx, by rw [pool]; exact law⟩

theorem Fewer.releaseReservation (s : State) : Fewer s s.releaseReservation :=
  (Fewer.refl s).withQueues rfl (fun _ => rfl) (fun _ => .refl _) fun _ => rfl

theorem commitAllowed_some {i : Slot} {a : Addr} (h : s.commitAllowed i a = true) (hk : s.pool.reservation = some k) :
    ∃ r, s.recAt i = some r ∧ r.segment = k ∧ r.state = .bound := by
  unfold State.commitAllowed at h
  rw [hk] at h
  cases hr : s.recAt i with
  | none => simp [hr] at h
  | some r =>
    rw [hr] at h
    simp only [Bool.and_eq_true, beq_iff_eq] at h
    obtain ⟨⟨⟨hb, -⟩, hseg⟩, -⟩ := h
    exact ⟨r, rfl, hseg, hb⟩

theorem State.Sound.commit (h : s.Sound off False) : s.commit.Sound off False := by
  unfold State.commit
  split
  · rename_i i a _ k _ _ hk
    split
    · rename_i allowed
      obtain ⟨r, hr, hseg, hb⟩ := commitAllowed_some allowed hk
      exact (h.push (e := ⟨i, s.up.ctx.staged, false⟩) hr hseg hb).fewer (.releaseReservation _)
    · split
      · exact (h.fewer (.releaseReservation s)).fewer (.undeliveredClaim _ i)
      · exact h.fewer (.releaseReservation s)
  · exact h.fewer (.releaseReservation s)

/-! ### Closing a mode and resolving an address (R30 to R42) -/

theorem Fewer.leaveTransaction (s : State) : Fewer s s.leaveTransaction := .setUp s _

theorem State.Sound.closeForStop (h : s.Sound off False) : s.closeForStop.Sound off False := by
  unfold State.closeForStop
  split
  · exact h.commit.fewer (.leaveTransaction _)
  · exact h.fewer (((Fewer.dropRequest s).trans (.requestEndOpen _)).trans (.leaveTransaction _))

theorem State.Sound.closeForRestart (h : s.Sound off False) (cut : Bool) : (s.closeForRestart cut).Sound off False := by
  unfold State.closeForRestart
  split
  · exact h.commit.fewer (.leaveTransaction _)
  · split
    · split
      · exact h.fewer (.leaveTransaction s)
      · exact h.fewer ((Fewer.requestEndOpen s).trans (.leaveTransaction _))
    · exact h.fewer ((Fewer.dropRequest s).trans (.leaveTransaction _))
  · exact h.fewer ((Fewer.requestEndOpen s).trans (.leaveTransaction _))

theorem Fewer.abandonOpen (s : State) : Fewer s s.abandonOpen := (Fewer.requestEndOpen s).trans (.setCtx _ _)

theorem Fewer.resolveRefused (s : State) : Fewer s s.resolveRefused := (Fewer.abandonOpen s).trans (.upNak _)

theorem Fewer.resolveStandIn (s : State) (a : Addr) (d : Dir) (i : Slot) (r : Record) :
    Fewer s (s.resolveStandIn a d i r) :=
  ((Fewer.abandonOpen s).trans (.setCtx _ _)).trans (.upStandIn _)

theorem Fewer.resolvePosted (s : State) (a : Addr) (d : Dir) (i : Slot) (r : Record) :
    Fewer s (s.resolvePosted a d i r) :=
  (Fewer.abandonOpen s).trans ((Fewer.refl _).withQueues rfl (fun _ => rfl) (fun _ => .refl _) fun _ => rfl)

/-- A request that joins names a BOUND record of its segment, or none (R36, R50). -/
theorem State.Sound.resolveCarried (h : s.Sound off False) (mode : UpMode) (a : Addr) (d : Dir) (k : Seg)
    (slot : Option Slot) (target : Addr) (answer : Option Answer)
    (hs : ∀ i, slot = some i → ∃ r, s.recAt i = some r ∧ r.segment = k ∧ r.state = .bound) :
    (s.resolveCarried mode a d k slot target answer).Sound off False := by
  unfold State.resolveCarried
  dsimp only
  split
  · exact h.fewer ((Fewer.mapTx k (fun t => { t with dir := d, phase := .address, step := .address }) fun _ => rfl).trans
      (.setUp _ _))
  · have asked := (h.fewer (.abandonOpen s)).engine k
      (fun e => { e with request := some { slot := slot, target := target, dir := d } })
      ⟨rfl, Iff.rfl, fun w i hw hi => .inr ?_, fun _ hi => .inl hi, id, nofun⟩
    · exact asked.fewer (.setUp _ _)
    · cases hw
      rw [recAt_of_dir (s := s) (by simp)]
      exact hs i hi

theorem State.Sound.resolveRecord (h : s.Sound off False) (a : Addr) (d : Dir) {i : Slot} {r : Record}
    (hr : s.recAt i = some r) : (s.resolveRecord a d i r).Sound off False := by
  unfold State.resolveRecord
  split
  · rename_i hb
    split
    · exact h.fewer (.resolvePosted s a d i r)
    · split
      · refine h.resolveCarried _ _ _ _ _ _ _ fun j hj => ?_
        cases hj
        exact ⟨r, hr, rfl, hb⟩
      · exact h.fewer (.resolveStandIn s a d i r)
  · exact h.fewer (.resolveStandIn s a d i r)

theorem State.Sound.resolveUnknown (h : s.Sound off False) (a : Addr) (d : Dir) :
    (s.resolveUnknown a d).Sound off False := by
  unfold State.resolveUnknown
  split
  · split
    · exact h.resolveCarried _ _ _ _ _ _ _ nofun
    · exact h.fewer (.resolveRefused s)
  · exact h.fewer (.resolveRefused s)

theorem State.Sound.resolve (h : s.Sound off False) (a : Addr) (d : Dir) : (s.resolve a d).Sound off False := by
  have noticed : (s.setHm s.hm.notice).Sound off False := h.fewer (.of_blocks rfl rfl rfl)
  unfold State.resolve
  dsimp only
  split
  · exact noticed.fewer (.resolveRefused _)
  · split
    · split
      · exact noticed.resolveRecord a d ‹_›
      · exact noticed.resolveUnknown a d
    · exact noticed.resolveUnknown a d

end Sys2Proof.Machine
end

section
namespace Sys2Proof.Machine

variable {s : State} {k : Seg} {off : Option Seg} {quiet : Prop}

/-! ### Recovery under the laws of work (R69 to R71) -/

/-- An engine that has no transaction may enter another state that has none. -/
theorem State.Sound.enter (h : s.Sound none False) (f : Engine → Engine) (hk : (s.engine k).state ≠ .active)
    (tx : (f (s.engine k)).tx = (s.engine k).tx) (state : (f (s.engine k)).state ≠ .active)
    (request : (f (s.engine k)).request = (s.engine k).request)
    (probes : (f (s.engine k)).probeQueue = (s.engine k).probeQueue) : (s.modEngine k f).Sound none False :=
  h.engine k f ⟨by rw [tx], iff_of_false state hk, fun _ _ hw _ => .inl (request ▸ hw), fun _ hi => .inl (probes ▸ hi),
    fun nodup => probes ▸ nodup, nofun⟩

theorem State.Sound.resumeRecovered (h : s.Sound none False) (hk : (s.engine k).state ≠ .active) :
    (s.resumeRecovered k).Sound none False :=
  State.Sound.requestProbes ((h.enter (fun e => { e with state := .idle, resumeWaiting := false }) hk rfl nofun rfl
    rfl).fewer (.settleOps _ _)) _

theorem attemptRuns_state (h : s.attemptRuns k = true) : (s.engine k).state = .recovering := by
  unfold State.attemptRuns at h
  simp only [Bool.and_eq_true, beq_iff_eq] at h
  exact h.1

/-- An engine that is not ACTIVE has no transaction. -/
theorem State.Sound.noTx (h : s.Sound none quiet) (hk : (s.engine k).state ≠ .active) : s.Sound (some k) quiet :=
  h.takeOff_none (h.idle hk).1

theorem State.Sound.attemptSucceeds (h : s.Sound none False) (hk : (s.engine k).state = .recovering) :
    (s.attemptSucceeds k).Sound none False := by
  have freed : ((s.modEngine k fun e => { e with attemptCount := 0, attempt := none }).markFault k
      fun m => { m with recovered := true }).Sound none False :=
    h.fewer ((Fewer.onBus k (fun e => { e with attemptCount := 0, attempt := none }) rfl
      fun _ => ⟨rfl, rfl, rfl, rfl⟩).trans (.of_blocks rfl rfl rfl))
  have state : (((s.modEngine k fun e => { e with attemptCount := 0, attempt := none }).markFault k
      fun m => { m with recovered := true }).engine k).state ≠ .active := by
    rw [engine_markFault, engine_modEngine_self]
    simp [hk]
  unfold State.attemptSucceeds
  dsimp only
  split
  · exact (freed.noTx state).enterPaused
  · split
    · exact freed.resumeRecovered state
    · exact freed.enter (fun e => { e with state := .idle }) state rfl nofun rfl rfl

theorem State.Sound.enterFailed (h : s.Sound none quiet) (hk : (s.engine k).state ≠ .active) :
    (s.enterFailed k).Sound none quiet := by
  have failing : (s.failing k).Sound none quiet :=
    (h.noTx hk).offBus _ rfl (by simp) (fun _ => by simp) rfl rfl
  have emptied : (s.failedEmptied k).Sound none quiet := (failing.fewer (.withdraw _ k .standIn)).purgeAndRetire k _
  have refused : (s.failedRefused k).Sound none quiet :=
    emptied.fewer ((Fewer.modEngine _ k (fun e => { e with probeQueue := [] })
      ⟨rfl, rfl, .inl rfl, id, List.nil_sublist _⟩).trans (.refuseProbes _ _))
  rw [enterFailed_eq]
  exact (refused.fewer (.endDiscovery _ k .segmentFault)).fewer (.of_blocks rfl rfl rfl)

theorem State.Sound.attemptFails (h : s.Sound none quiet) (hk : (s.engine k).state = .recovering) :
    (s.attemptFails k).Sound none quiet := by
  have counted := h.fewer (Fewer.onBus k
    (fun e => { e with attemptCount := e.attemptCount + 1, attempt := some { limit := Config.attemptWait, elapsed := 0 } })
    rfl fun _ => ⟨rfl, rfl, rfl, rfl⟩)
  unfold State.attemptFails
  dsimp only
  split
  · exact counted
  · refine counted.enterFailed ?_
    rw [engine_modEngine_self]
    simp [hk]

/-! ### The timers (R101, R107, R112) -/

/-- Records that all change in what the laws of work do not read. -/
theorem Fewer.mapSlots (s : State) (f : Record → Record) (hf : ∀ r, (f r).work = r.work) :
    Fewer s (s.setDir { s.dir with slots := mapEach (fun o => o.map f) s.dir.slots }) := by
  refine .of_engines (fun k => .of_eq (engine_setDir s _ k)) (setDir_pool s _) fun i => ?_
  rw [recAt_mapSlots]
  cases s.recAt i with
  | none => rfl
  | some r => exact congrArg some (hf r)

theorem Fewer.clearUsed (s : State) : Fewer s s.clearUsed := .mapSlots s (fun r => { r with used := false }) fun _ => rfl

theorem Fewer.setHm (s : State) (m : Health) : Fewer s (s.setHm m) := .of_blocks rfl rfl rfl

theorem State.Sound.surveyPass (h : s.Sound off False) : s.surveyPass.Sound off False := by
  have asked := (h.requestProbes s.surveyed).fewer (.clearUsed _)
  unfold State.surveyPass
  exact asked.fewer (.setHm _ _)

theorem State.Sound.holdOffStep (h : s.Sound off False) (i : Slot) : (s.holdOffStep i).Sound off False := by
  unfold State.holdOffStep
  split
  · rename_i r hr
    split
    · have step := h.fewer (Fewer.putRec (q := { r with holdOff := r.holdOff - 1 }) hr rfl)
      dsimp only
      split
      · exact step.requestProbe i
      · exact step
    · exact h
  · exact h

theorem State.Sound.holdOffSteps (h : s.Sound off False) (es : List Slot) : (s.holdOffSteps es).Sound off False := by
  induction es generalizing s with
  | nil => exact h
  | cons i rest ih => exact ih (h.holdOffStep i)

theorem State.Sound.absenceSecond (h : s.Sound off quiet) (i : Slot) : (s.absenceSecond i).Sound off quiet := by
  unfold State.absenceSecond
  split
  · rename_i r hr
    split
    · have step := h.fewer (Fewer.putRec (q := { r with absenceAge := nextAge r.absenceAge }) hr rfl)
      dsimp only
      split
      · exact step.absenceExpiry i
      · exact step
    · exact h
  · exact h

theorem State.Sound.absenceSeconds (h : s.Sound off quiet) (es : List Slot) : (s.absenceSeconds es).Sound off quiet := by
  induction es generalizing s with
  | nil => exact h
  | cons i rest ih => exact ih (h.absenceSecond i)

/-- All engines may change in what the laws of work do not read. -/
theorem Fewer.mapEngines (s : State) (f : Engine → Engine) (hf : ∀ e : Engine, e.Fewer (f e)) :
    Fewer s (s.setEng (s.eng.map f)) :=
  .of_engines (fun k => by
    rw [show (s.setEng (s.eng.map f)).engine k = f (s.engine k) by simp [State.engine]]
    exact hf _) rfl fun _ => rfl

theorem Fewer.tick (s : State) : Fewer s s.tick := by
  unfold State.tick
  rcases timed_cases s (fun s =>
    ((s.setCtx { s.up.ctx with hold := s.up.ctx.hold.map Timer.tick }).setEng (s.eng.map Engine.tick)).setHm s.hm.tick)
    with e | e <;> rw [e]
  · exact .refl s
  · exact ((Fewer.setCtx s _).trans (.mapEngines _ Engine.tick fun _ => ⟨rfl, rfl, .inl rfl, id, .refl _⟩)).trans
      (.of_blocks rfl rfl rfl)

end Sys2Proof.Machine
end

section
namespace Sys2Proof.Machine

variable {s : State} {k : Seg} {off : Option Seg} {quiet : Prop}

/-! ### Commands under the laws of work -/

theorem Fewer.addOp (s : State) (work : LongWork) (tag : Byte) : Fewer s (s.addOp work tag) := .of_blocks rfl rfl rfl

theorem State.Sound.answer (h : s.Sound off quiet) (c : Command) (code : ResultCode) : (s.answer c code).Sound off quiet :=
  h.concludeWith _

theorem State.Sound.answerDone (h : s.Sound off quiet) (c : Command) (results : List Byte) :
    (s.answerDone c results).Sound off quiet := h.concludeWith _

theorem State.Sound.settleDone (h : s.Sound none False) (low : LowLines) (c : Command) (results : List Byte) :
    (s.settleDone low c results).Sound none True := h.settleWith low _

theorem State.Sound.runLookup (h : s.Sound none True) (c : Command) : (s.runLookup c).Sound none True := by
  unfold State.runLookup
  split
  · exact h.answer c _
  · split
    · exact h.answer c _
    · split
      · exact h.answer c _
      · exact h.answerDone c _

theorem State.Sound.runBind (h : s.Sound none True) (low : LowLines) (c : Command) :
    (s.runBind low c).Sound none True := by
  unfold State.runBind
  split
  · exact h.answer c _
  · rename_i f _
    split
    · exact h.answer c _
    · rename_i i hi
      obtain ⟨free, -, -⟩ := bindSlot_ok s f i hi
      exact ((h.weaken.createRec i (boundRecord f) free rfl).requestProbe i).settleDone low c _

theorem State.Sound.applyThreshold (h : s.Sound off quiet) (i : Slot) : (s.applyThreshold i).Sound off quiet := by
  unfold State.applyThreshold
  split
  · rename_i r hr
    split
    · rename_i hb
      split
      · refine h.moveRec i _ fun p hp => ⟨rfl, rfl, fun c => ?_⟩
        cases hr.symm.trans hp
        rw [hb] at c
        cases c
      · exact h
    · exact h.fewer (.putRec hr (by rfl))
  · exact h

theorem State.Sound.applyEdit (h : s.Sound off quiet) {i : Slot} {r : Record} (hr : s.recAt i = some r)
    (sel : Selection) : (s.applyEdit i r sel).Sound off quiet := by
  have edited : (s.editedFields i r sel).Sound off quiet := by
    have put := h.fewer (Fewer.putRec (q := r.select sel) hr rfl)
    unfold State.editedFields
    split
    · exact put
    · exact put.fewer (.of_blocks rfl rfl rfl)
  rw [applyEdit_eq]
  split
  · exact edited.applyThreshold i
  · exact edited

theorem State.Sound.runEdit (h : s.Sound none True) (c : Command) : (s.runEdit c).Sound none True := by
  unfold State.runEdit
  split
  · exact h.answer c _
  · split
    · exact h.answer c _
    · rename_i r hr
      split
      · exact h.answer c _
      · split
        · exact h.answer c _
        · exact (h.applyEdit hr _).answerDone c _

theorem State.Sound.enterRetiring (h : s.Sound off quiet) (i : Slot) : (s.enterRetiring i).Sound off quiet := by
  unfold State.enterRetiring
  split
  · split
    · exact h
    · exact h.moveRec i _ fun _ _ => ⟨rfl, rfl, fun _ => rfl⟩
  · exact h

theorem State.Sound.finishRetire (h : s.Sound off quiet) (c : Command) (i : Slot) (removed : Nat) :
    (s.finishRetire c i removed).Sound off quiet := by
  unfold State.finishRetire
  split
  · exact h.answerDone c _
  · rename_i r hr
    split
    · exact ((h.enterRetiring i).fewer (.addOp _ _ _)).conclude
    · rename_i clear
      have clear : r.marker = .none ∧ s.hasQueued r.segment i = false := by
        unfold State.owes at clear
        simpa using clear
      exact (h.freeSlot hr clear.1 (h.unqueued_retiring hr clear.2)).answerDone c _

theorem State.Sound.runRetire (h : s.Sound none True) (c : Command) : (s.runRetire c).Sound none True := by
  unfold State.runRetire
  split
  · exact h.answer c _
  · rename_i i discard _
    split
    · exact h.answer c _
    · rename_i r _
      split
      · exact h.answer c _
      · have answered : (s.answerProbes i .retired).Sound none True := h.fewer (.settleOps s _)
        unfold State.applyRetire
        dsimp only
        split
        · exact (answered.purgeAndRetire r.segment _).finishRetire c i _
        · exact answered.finishRetire c i 0

theorem State.Sound.runClearCounts (h : s.Sound none True) (c : Command) : (s.runClearCounts c).Sound none True := by
  unfold State.runClearCounts
  split
  · exact h.answer c _
  · exact (h.fewer (.mapSlots s Record.clearCounts fun _ => rfl)).answerDone c _
  · split
    · exact h.answer c _
    · exact (h.fewer (.modRec _ Record.clearCounts fun _ => rfl)).answerDone c _

theorem State.Sound.runProbe (h : s.Sound none True) (low : LowLines) (c : Command) :
    (s.runProbe low c).Sound none True := by
  unfold State.runProbe
  split
  · exact h.answer c _
  · split
    · exact h.answer c _
    · rename_i r hr
      split
      · exact h.answer c _
      · split
        · exact h.answer c _
        · exact ((h.weaken.enqueueProbe hr).fewer (.addOp _ _ _)).settle low

theorem State.Sound.runDiscover (h : s.Sound none True) (low : LowLines) (c : Command) :
    (s.runDiscover low c).Sound none True := by
  unfold State.runDiscover
  split
  · exact h.answer c _
  · split
    · exact h.answer c _
    · split
      · exact h.answer c _
      · exact ((h.weaken.discovery _ _ nofun).fewer (.addOp _ _ _)).settle low

theorem State.Sound.cancelOn (h : s.Sound off quiet) (tag : Byte) (k : Seg) : (s.cancelOn tag k).Sound off quiet := by
  unfold State.cancelOn
  split
  · rename_i d hd
    split
    · split
      · exact h.discovery k _ fun _ => by rw [hd]; nofun
      · exact h.fewer (.endDiscovery s k _)
    · exact h
  · exact h

theorem State.Sound.cancelAll (h : s.Sound off quiet) (tag : Byte) : (s.cancelAll tag).Sound off quiet :=
  (((h.cancelOn tag 0).cancelOn tag 1).cancelOn tag 2).cancelOn tag 3

theorem State.Sound.runCancel (h : s.Sound none True) (c : Command) : (s.runCancel c).Sound none True := by
  unfold State.runCancel
  split
  · exact h.answer c _
  · split
    · exact (h.cancelAll _).answerDone c _
    · exact h.answer c _

theorem Fewer.pausePending (s : State) (k : Seg) (b : Bool) : Fewer s (s.modEngine k fun e => { e with pausePending := b }) :=
  .onBus k _ rfl fun _ => ⟨rfl, rfl, rfl, rfl⟩

theorem Fewer.resumeWaiting (s : State) (k : Seg) (b : Bool) :
    Fewer s (s.modEngine k fun e => { e with resumeWaiting := b }) :=
  .onBus k _ rfl fun _ => ⟨rfl, rfl, rfl, rfl⟩

theorem State.Sound.runPause (h : s.Sound none True) (c : Command) : (s.runPause c).Sound none True := by
  have pending : ∀ k, ((s.modEngine k fun e => { e with pausePending := true }).addOp (.pause k) c.tag).conclude.Sound
      none True := fun k =>
    ((h.fewer (.pausePending s k true)).fewer (.addOp _ _ _)).conclude
  unfold State.runPause
  split
  · exact h.answer c _
  · split
    · exact h.answer c _
    · unfold State.presentPause
      split
      · rename_i hk
        exact (h.noTx (by simp [hk])).enterPaused.answerDone c _
      · exact pending _
      · exact pending _
      · exact h.answerDone c _
      · exact h.answer c _

theorem State.Sound.runResume (h : s.Sound none True) (low : LowLines) (c : Command) :
    (s.runResume low c).Sound none True := by
  have lifted : ∀ k, (((s.modEngine k fun e => { e with pausePending := false }).answerPause k .cancelled).answerDone c
      []).Sound none True := fun k =>
    ((h.fewer (.pausePending s k false)).fewer (.settleOps _ _)).answerDone c _
  unfold State.runResume
  split
  · exact h.answer c _
  · rename_i k _
    split
    · exact h.answer c _
    · unfold State.presentResume
      split
      · rename_i hk
        exact (h.weaken.enter (fun e => { e with state := .idle }) (by simp [hk]) rfl nofun rfl rfl).settleDone low c _
      · exact lifted k
      · exact lifted k
      · exact h.answerDone c _
      · rename_i hk
        have waits := h.fewer (.resumeWaiting s k true)
        have state : ((s.modEngine k fun e => { e with resumeWaiting := true }).engine k).state ≠ .active := by
          rw [engine_modEngine_self]
          simp [hk]
        exact ((waits.noTx state).enterRecovering.fewer (.addOp _ _ _)).conclude

theorem State.Sound.runFlush (h : s.Sound none True) (low : LowLines) (c : Command) :
    (s.runFlush low c).Sound none True := by
  unfold State.runFlush
  split
  · exact h.answer c _
  · exact (h.weaken.purgeAndRetire _ _).settleDone low c _

/-- New shares leave the queues and their marks (R78). -/
theorem Fewer.setShares (s : State) (q : Quad Nat) : Fewer s (s.setShares q) := by
  have share : ∀ k, (s.setShares q).poolSeg k = { s.poolSeg k with share := q.get k } := fun k => by
    simp [State.setShares, State.poolSeg]
  have queue : ∀ k, ((s.setShares q).poolSeg k).queue = (s.poolSeg k).queue := fun k => by rw [share]
  have mark : ∀ k, ((s.setShares q).poolSeg k).purgeMark = (s.poolSeg k).purgeMark := fun k => by rw [share]
  refine ⟨fun _ => .refl _, fun k => ?_, fun k _ => by rw [queue], fun k h => by rw [queue, h],
    fun k h => by rw [mark, h], fun k h => .inl (mark k ▸ h), fun _ => rfl⟩
  rw [waitingEntries_of_core (s := s) (t := s.setShares q) rfl (queue k)]
  exact fun _ => id

theorem State.Sound.runPartition (h : s.Sound none True) (c : Command) : (s.runPartition c).Sound none True := by
  unfold State.runPartition
  split
  · exact h.answer c _
  · split
    · split
      · exact (h.fewer (.setShares s _)).answerDone c _
      · exact h.answer c _
    · exact h.answer c _

theorem capHoldOff_work (n : Nat) (r : Record) : (r.capHoldOff n).work = r.work := by
  unfold Record.capHoldOff
  split <;> rfl

theorem Fewer.retime (s : State) (t : Timing) : Fewer s (s.retime t) := by
  refine .of_engines (fun k => ?_) rfl fun i => ?_
  · have rates : (s.retime t).engine k = { s.engine k with rate := t.rates.get k } := by
      simp [State.retime, State.engine]
    rw [rates]
    exact ⟨rfl, rfl, .inl rfl, id, .refl _⟩
  · have capped : (s.retime t).recAt i = (s.recAt i).map (Record.capHoldOff t.holdOff) := by
      simp [State.retime, State.recAt]
    rw [capped]
    cases s.recAt i with
    | none => rfl
    | some r => exact congrArg some (capHoldOff_work _ r)

theorem State.Sound.runSetTiming (h : s.Sound none True) (c : Command) : (s.runSetTiming c).Sound none True := by
  unfold State.runSetTiming
  split
  · exact h.answer c _
  · exact (h.fewer (.retime s _)).answerDone c _

theorem Fewer.setPu (s : State) (p : Protection) : Fewer s (s.setPu p) := .of_blocks rfl rfl rfl

theorem Fewer.setAu (s : State) (a : Alerts) : Fewer s (s.setAu a) := .of_blocks rfl rfl rfl

theorem Fewer.setMp (s : State) (m : Port) : Fewer s (s.setMp m) := .of_blocks rfl rfl rfl

theorem State.Sound.runSetProtect (h : s.Sound none True) (c : Command) : (s.runSetProtect c).Sound none True := by
  unfold State.runSetProtect
  split
  · exact h.answer c _
  · split
    · exact h.answer c _
    · split
      · exact h.answer c _
      · split
        · exact h.answer c _
        · exact (h.fewer (.setPu s _)).answerDone c _

theorem State.Sound.runFixProtect (h : s.Sound none True) (c : Command) : (s.runFixProtect c).Sound none True := by
  unfold State.runFixProtect
  split
  · exact h.answer c _
  · exact (h.fewer (.setPu s _)).answerDone c _

theorem State.Sound.runSetAlert (h : s.Sound none True) (c : Command) : (s.runSetAlert c).Sound none True := by
  unfold State.runSetAlert
  split
  · exact h.answer c _
  · exact (h.fewer (.setAu s _)).answerDone c _

theorem State.Sound.runChanges (h : s.Sound none True) (c : Command) : (s.runChanges c).Sound none True :=
  (h.fewer (.setAu s _)).answerDone c _

theorem Fewer.runPush (s : State) (bytes : List Byte) : Fewer s (s.runPush bytes) := by
  unfold State.runPush
  split <;> exact .setMp s _

theorem Fewer.evaluate (s : State) : Fewer s s.evaluate := .of_blocks rfl rfl rfl

theorem Fewer.runPop (s : State) (clocks : Nat) (e : Bool) : Fewer s (s.runPop clocks e) := by
  unfold State.runPop
  split
  · split
    · exact .setMp s _
    · split
      · exact (Fewer.setMp s _).trans (.evaluate _)
      · exact .setMp s _
  · exact .setMp s _

end Sys2Proof.Machine
end

section
namespace Sys2Proof.Machine

variable {s u t : State} {i : Slot}

/-! ### A record moved to another pair (R20) -/

/-- A transaction of slot `i` that no longer belongs to its record. -/
def Tx.disowned (i : Slot) (x : Tx) : Tx :=
  if x.slot = some i then { x with ownsMarker := false, sameRecord := false } else x

theorem Tx.disowned_kept (i : Slot) (x : Tx) : (x.disowned i).kind = x.kind ∧ (x.disowned i).slot = x.slot ∧
    (x.disowned i).silent = x.silent ∧ ((x.disowned i).ownsMarker = true ↔ x.ownsMarker = true ∧ x.slot ≠ some i) := by
  unfold Tx.disowned
  split
  · rename_i hs
    exact ⟨rfl, rfl, rfl, by simp [hs]⟩
  · rename_i hs
    exact ⟨rfl, rfl, rfl, by simp [hs]⟩

/-- From `u` to `t` the record of slot `i` has become `q`, on another segment or at another target: no transaction
belongs to it and no probe queue but its own segment's holds its slot. -/
structure Relocated (u t : State) (i : Slot) (q : Record) : Prop where
  here : t.recAt i = some q
  marker : q.marker = .none
  others : OtherRecords u t i
  pool : t.pool = u.pool
  state : ∀ j, (t.engine j).state = (u.engine j).state
  tx : ∀ j, (t.engine j).tx = (u.engine j).tx.map (Tx.disowned i)
  request : ∀ j, (t.engine j).request = (u.engine j).request
  probes : ∀ j, (t.engine j).probeQueue.Sublist (u.engine j).probeQueue
  home : ∀ j, i ∈ (t.engine j).probeQueue → q.segment = j

/-- A record that has no entry, no request and at most a probe may move. -/
theorem State.Sound.relocated {p q : Record} (h : u.Sound none False) (hp : u.recAt i = some p)
    (hb : p.state ≠ .bound) (hret : p.state ≠ .retiring) (hm : p.marker = .none ∨ p.marker = .probe)
    (rl : Relocated u t i q) : t.Sound none False := by
  have asWas : ∀ {j x}, t.busTx none j = some x → ∃ y, u.busTx none j = some y ∧ x = y.disowned i := fun {j x} hx => by
    rw [busTx_none, rl.tx] at hx
    obtain ⟨y, hy, rfl⟩ := Option.map_eq_some_iff.mp hx
    exact ⟨y, (busTx_none j).trans hy, rfl⟩
  have spared : ∀ {j y}, u.busTx none j = some y → y.silent = false → y.kind = .forward ∨ y.kind = .delivery →
      y.slot ≠ some i := fun {j y} hy hl hk hs => by
    have named : y.kind.marker ≠ .none := by rcases hk with e | e <;> simp [e, TxKind.marker]
    have carried := ((h.marks i p hp j _ named).mp ⟨y, hy, hs, h.owning j y hy hl hk, hl, rfl⟩).2
    rcases hk with e | e <;> rcases hm with e' | e' <;> simp [e, e', TxKind.marker] at carried
  have keeps : ∀ {j r}, j ≠ i → u.recAt j = some r → t.recAt j = some r := fun hj hr => (rl.others _ hj).trans hr
  have delivery : ∀ j, t.deliveryOnBus j = u.deliveryOnBus j := fun j => by
    unfold State.deliveryOnBus
    rw [rl.tx]
    cases (u.engine j).tx with
    | none => rfl
    | some y =>
      obtain ⟨kind, -, silent, -⟩ := y.disowned_kept i
      simp [kind, silent]
  have queue : ∀ j, t.poolSeg j = u.poolSeg j := poolSeg_of_pool rl.pool
  have waiting : ∀ j, t.waitingEntries j = u.waitingEntries j := fun j => by
    unfold State.waitingEntries
    rw [delivery, queue]
  refine ⟨fun j _ => ?_, nofun, fun j x hx => ?_, fun l r hr j m hne => ?_, fun j x hx ho => ?_,
    fun j x hx hl hk => ?_, fun j => ⟨fun e he => ?_, fun hd => ?_, ?_⟩, fun j w l hw hl => ?_, fun j l hl => ?_,
    fun j => (h.nodup j).sublist (rl.probes j), nofun⟩
  · rw [rl.tx, Option.isSome_map, rl.state]
    exact h.active j (by simp)
  · obtain ⟨y, hy, rfl⟩ := asWas hx
    obtain ⟨kind, slot, -⟩ := y.disowned_kept i
    rw [kind, slot]
    exact h.slots j y hy
  · by_cases hl : l = i
    · subst hl
      cases rl.here.symm.trans hr
      refine iff_of_false (fun ⟨x, hx, hc⟩ => ?_) fun c => hne (c.2.symm.trans rl.marker)
      obtain ⟨y, -, rfl⟩ := asWas hx
      obtain ⟨-, slot, -, owns⟩ := y.disowned_kept l
      exact (owns.mp hc.owns).2 (slot ▸ hc.slot)
    · rw [← h.marks l r ((rl.others l hl).symm.trans hr) j m hne]
      constructor
      · rintro ⟨x, hx, hc⟩
        obtain ⟨y, hy, rfl⟩ := asWas hx
        obtain ⟨kind, slot, silent, owns⟩ := y.disowned_kept i
        exact ⟨y, hy, slot ▸ hc.slot, (owns.mp hc.owns).1, silent ▸ hc.loud, kind ▸ hc.kind⟩
      · rintro ⟨y, hy, hc⟩
        obtain ⟨kind, slot, silent, owns⟩ := y.disowned_kept i
        have other : y.slot ≠ some i := fun c => hl (Option.some.inj (hc.slot.symm.trans c))
        refine ⟨y.disowned i, ?_, slot.trans hc.slot, owns.mpr ⟨hc.owns, other⟩, silent.trans hc.loud,
          (congrArg TxKind.marker kind).trans hc.kind⟩
        rw [busTx_none] at hy ⊢
        rw [rl.tx, hy]
        rfl
  · obtain ⟨y, hy, rfl⟩ := asWas hx
    obtain ⟨-, slot, -, owns⟩ := y.disowned_kept i
    obtain ⟨ho, hne⟩ := owns.mp ho
    obtain ⟨l, r, hl, hr⟩ := h.owners j y hy ho
    exact ⟨l, r, slot.trans hl, keeps (fun c => hne (c ▸ hl)) hr⟩
  · obtain ⟨y, hy, rfl⟩ := asWas hx
    obtain ⟨kind, -, silent, owns⟩ := y.disowned_kept i
    rw [kind] at hk
    rw [silent] at hl
    exact owns.mpr ⟨h.owning j y hy hl hk, spared hy hl hk⟩
  · rw [waiting] at he
    obtain ⟨r, hr, law⟩ := (h.entries j).1 e he
    exact ⟨r, keeps ((h.unqueued hp hb hret j).1 e he) hr, law⟩
  · rw [delivery] at hd
    obtain ⟨y, e, rest, r, hy, hqueue, hs, hr, law⟩ := (h.entries j).2.1 hd
    obtain ⟨y', hy', hk, hl⟩ := (deliveryOnBus_iff j).mp hd
    cases hy.symm.trans hy'
    have other : e.slot ≠ i := fun c => spared ((busTx_none j).trans hy) hl (.inr hk) (c ▸ hs)
    obtain ⟨-, slot, -⟩ := y.disowned_kept i
    exact ⟨y.disowned i, e, rest, r, by rw [rl.tx, hy]; rfl, by rw [queue, hqueue], slot.trans hs, keeps other hr,
      by rw [queue]; exact law⟩
  · rw [queue, delivery]
    exact (h.entries j).2.2
  · rw [rl.request] at hw
    obtain ⟨r, hr, hseg, hbound⟩ := h.requests j w l hw hl
    refine ⟨r, keeps (fun c => ?_) hr, hseg, hbound⟩
    rw [c, hp] at hr
    cases hr
    exact hb hbound
  · by_cases hli : l = i
    · subst hli
      exact ⟨q, rl.here, rl.home j hl⟩
    · obtain ⟨r, hr, hseg⟩ := h.homes j l ((rl.probes j).subset hl)
      exact ⟨r, keeps hli hr, hseg⟩

/-- A REBIND to the record's own pair only changes its state (R20). -/
theorem State.Sound.rebound_same (h : s.Sound none False) {r : Record} (hr : s.recAt i = some r)
    (hret : r.state ≠ .retiring) {k : Seg} {a : Addr} (same : r.segment = k ∧ r.target = a) :
    (s.rebound i r k a).Sound none False := by
  have moved := h.moveRec i (Record.toRebound k a) fun p hp => by
    cases hr.symm.trans hp
    exact ⟨same.1.symm, rfl, fun c => absurd c hret⟩
  have unchanged : s.rebound i r k a = (s.moveRec i (Record.toRebound k a)).moveNotes i false := by
    unfold State.rebound State.rebindMarker State.leaveQueue
    rw [if_pos (decide_eq_true same), if_pos same.1]
  rw [unchanged]
  exact moved.fewer (.of_blocks rfl rfl rfl)

theorem State.Sound.queueLeft_home (h : s.Sound none False) {r : Record} (hr : s.recAt i = some r) {k j : Seg}
    (hi : i ∈ s.queueLeft i r k j) : k = j := by
  by_contra hk
  by_cases hj : r.segment = j
  · subst hj
    exact s.queueLeft_not_mem (fun c => hk c.symm) hi
  · unfold State.queueLeft at hi
    rw [if_neg fun c => hj c.1.symm] at hi
    obtain ⟨p, hp, hseg⟩ := h.homes j i hi
    cases hr.symm.trans hp
    exact hj hseg

theorem queueLeft_sublist (s : State) (i : Slot) (r : Record) (k j : Seg) :
    (s.queueLeft i r k j).Sublist (s.engine j).probeQueue := by
  unfold State.queueLeft
  split
  · exact List.filter_sublist
  · exact .refl _

/-- The record is PENDING at its old pair before it moves to another. -/
theorem State.Sound.rebound_other (h : s.Sound none False) {r : Record} (hr : s.recAt i = some r)
    (hret : r.state ≠ .retiring) (hm : ¬(r.marker = .forward ∨ r.marker = .delivery)) {k : Seg} {a : Addr}
    (other : ¬(r.segment = k ∧ r.target = a)) : (s.rebound i r k a).Sound none False := by
  obtain ⟨rb, probes, -⟩ := rebound_rebound hr k a
  obtain ⟨mv, -⟩ := moveRec_moved i (Record.toRebound k a) r _ hr (moveRec_recAt s i (Record.toRebound k a) r hr) rfl
  have engine := rebound_engine (s := s) (i := i) (r := r) (k := k) (a := a) rfl
  have pool : (s.rebound i r k a).pool = (s.moveRec i (Record.toRebound k a)).pool := by simp [State.rebound]
  have stays := mv.put (p := { r.toRebound k a with segment := r.segment }) rfl
  have pending := h.moved hr stays rfl rfl fun c => absurd c hret
  generalize s.moveRec i (Record.toRebound k a) = v at *
  have marker : r.marker = .none ∨ r.marker = .probe := by
    cases hr : r.marker <;> simp_all
  refine pending.relocated stays.here nofun nofun marker ⟨rb.here, if_neg other, fun j hj => ?_, pool, fun j => ?_,
    fun j => ?_, fun j => ?_, fun j => ?_, fun j hj => ?_⟩
  · rw [rb.others j hj, recAt_putRec_other v (Ne.symm hj), mv.others j hj]
  · rw [engine, engine_putRec]
  · rw [engine, engine_putRec]
    refine congrArg (Option.map · (v.engine j).tx) (funext fun x => ?_)
    simp only [Tx.disowned, other, not_false_eq_true, and_true]
  · rw [engine, engine_putRec]
  · rw [probes, engine_putRec, mv.engines j]
    exact queueLeft_sublist s i r k j
  · rw [probes] at hj
    exact h.queueLeft_home hr hj

theorem State.Sound.applyRebind (h : s.Sound none False) {r : Record} (hr : s.recAt i = some r)
    (hret : r.state ≠ .retiring) (hm : ¬(r.marker = .forward ∨ r.marker = .delivery)) (k : Seg) (a : Addr) :
    (s.applyRebind i r k a).Sound none False := by
  rw [applyRebind_eq]
  refine State.Sound.requestProbe ?_ i
  by_cases same : r.segment = k ∧ r.target = a
  · exact h.rebound_same hr hret same
  · exact h.rebound_other hr hret hm same

theorem State.Sound.runRebind (h : s.Sound none True) (low : LowLines) (c : Command) :
    (s.runRebind low c).Sound none True := by
  unfold State.runRebind
  split
  · exact h.answer c _
  · rename_i i k a _
    split
    · exact h.answer c _
    · rename_i r hcheck hr
      obtain ⟨-, free, -⟩ := (rebindRefusal_none s i k a r hr).mp hcheck
      exact (h.weaken.applyRebind hr (fun e => free (.inl e)) (fun e => free (.inr e)) k a).settleDone low c _
    · exact h.answer c _

end Sys2Proof.Machine
end

section
namespace Sys2Proof.Machine

variable {s : State}

/-! ### Resets and restarts under the laws of work (R27, R76, R93, R171) -/

theorem reset_sound : State.reset.Sound none True :=
  sound_iff.mpr ⟨reset_workLaw, reset_restLaw, fun k => by rw [reset_engine]; exact List.nodup_nil⟩

theorem heldReset_sound (s : State) : s.heldReset.Sound none True := reset_sound.fewer (.of_blocks rfl rfl rfl)

/-- A transaction left by a restart is closed in silence, for no marker. -/
theorem restartBlocks_tx (level2 : Bool) {k : Seg} {x : Tx} (hx : ((s.restartBlocks level2).engine k).tx = some x) :
    x.silent = true ∧ x.ownsMarker = false ∧
      ∃ y, (s.engine k).tx = some y ∧ x.kind = y.kind ∧ x.slot = y.slot := by
  obtain ⟨e, he, htx⟩ := restartBlocks_engine s level2 k
  rw [he] at hx
  obtain ⟨y, hy, rfl⟩ := Option.map_eq_some_iff.mp hx
  exact ⟨rfl, rfl, y, htx.symm.trans hy, rfl, rfl⟩

theorem restartBlocks_sound (h : s.Sound none True) (level2 : Bool) : (s.restartBlocks level2).Sound none False := by
  have tx : ∀ {k x}, (s.restartBlocks level2).busTx none k = some x → x.silent = true ∧ x.ownsMarker = false ∧
      ∃ y, (s.engine k).tx = some y ∧ x.kind = y.kind ∧ x.slot = y.slot := fun {k x} hx =>
    restartBlocks_tx level2 ((busTx_none k).symm.trans hx)
  have noDelivery : ∀ k, (s.restartBlocks level2).deliveryOnBus k = false := fun k =>
    Bool.eq_false_iff.mpr fun c => by
      obtain ⟨x, hx, -, loud⟩ := (deliveryOnBus_iff k).mp c
      rw [(restartBlocks_tx level2 hx).1] at loud
      cases loud
  have noProbe : ∀ k, ((s.restartBlocks level2).engine k).probeQueue = [] := fun k => by
    obtain ⟨e, he, -⟩ := restartBlocks_engine s level2 k
    rw [he]
    rfl
  have noMarker : ∀ i r, (s.restartBlocks level2).recAt i = some r → r.marker = .none := fun i r hr => by
    rw [restartBlocks_recAt] at hr
    unfold State.afterRestart at hr
    split at hr
    · obtain ⟨q, -, rfl⟩ := Option.map_eq_some_iff.mp hr
      rfl
    · cases hr
  refine ⟨fun k _ => ?_, nofun, fun k x hx => ?_, fun i r hr k m hm => ?_, fun k x hx ho => ?_,
    fun k x hx hl => ?_, fun k => ⟨fun e he => ?_, fun hd => ?_, fun hm => ?_⟩, fun k w i hw => ?_, fun k i hi => ?_,
    fun k => ?_, nofun⟩
  · obtain ⟨e, he, -⟩ := restartBlocks_engine s level2 k
    rw [he]
    unfold Engine.restart
    cases e.tx <;> simp
  · obtain ⟨-, -, y, hy, kind, slot⟩ := tx hx
    rw [kind, slot]
    exact h.slots k y ((busTx_none k).trans hy)
  · refine iff_of_false (fun ⟨x, hx, hc⟩ => ?_) fun c => hm (c.2.symm.trans (noMarker i r hr))
    have silent := (tx hx).1
    rw [hc.loud] at silent
    cases silent
  · rw [(tx hx).2.1] at ho
    cases ho
  · rw [(tx hx).1] at hl
    cases hl
  · unfold State.waitingEntries at he
    rw [noDelivery, (restartBlocks_poolSeg s level2 k).1] at he
    cases he
  · rw [noDelivery] at hd
    cases hd
  · rw [(restartBlocks_poolSeg s level2 k).2] at hm
    cases hm
  · obtain ⟨e, he, -⟩ := restartBlocks_engine s level2 k
    rw [he] at hw
    cases hw
  · rw [noProbe] at hi
    cases hi
  · rw [noProbe]
    exact List.nodup_nil

theorem State.Sound.takeRestart (h : s.Sound none True) (level2 : Bool) (low : LowLines) :
    (s.takeRestart level2 low).Sound none True :=
  ((restartBlocks_sound h level2).requestProbes _).settle low

theorem State.Sound.runRestart (h : s.Sound none True) (bytes : List Byte) (low : LowLines) :
    (s.runRestart bytes low).Sound none True := by
  unfold State.runRestart
  split
  · exact (h.fewer (.setMp s _)).takeRestart _ low
  · exact h.fewer (.setMp s _)

/-! ### Every event keeps the laws of work -/

theorem State.Sound.live (h : s.Sound none True) {f : State → State} (hf : (f s).Sound none True) :
    (s.live f).Sound none True := by
  rcases live_cases s f with e | e <;> rw [e]
  · exact h
  · exact hf

theorem State.Sound.timed (h : s.Sound none True) {f : State → State} (hf : (f s).Sound none True) :
    (s.timed f).Sound none True := by
  rcases timed_cases s f with e | e <;> rw [e]
  · exact h
  · exact hf

theorem State.Sound.frame (h : s.Sound none True) {f : State → State} (hf : (f s).Sound none True) :
    (s.frame f).Sound none True := by
  rcases frame_cases s f with e | e | e <;> rw [e]
  · exact h
  · exact h.fewer (.setMp s _)
  · exact hf

theorem State.Sound.taking (h : s.Sound none True) {kind : CmdKind} {f : Command → State → State}
    (hf : ∀ c u, State.Sound u none True → (f c u).Sound none True) : (s.taking kind f).Sound none True := by
  rcases taking_cases s kind f with e | ⟨c, rest, -, -, e⟩ <;> rw [e]
  · exact h
  · exact hf c _ (h.fewer (.of_blocks rfl rfl rfl))

theorem exec_sound (h : s.Sound none True) (c : Instr) (t : State) (he : exec c s = .next t) : t.Sound none True := by
  cases c with
  | addressEvent a d low =>
    cases he
    refine h.live (State.Sound.settle (State.Sound.resolve ?_ a d) low)
    split
    · exact h.weaken
    · exact ((h.weaken.closeForRestart false).arbitrateAll low).weaken
  | repeatedStart cut next low =>
    cases he
    have closed := h.weaken.closeForRestart cut
    refine h.live ?_
    dsimp only
    split
    · exact ((closed.arbitrateAll low).weaken.resolve _ _).settle low
    · exact closed.settle low
  | stopCondition low => cases he; exact h.live (h.weaken.closeForStop.settle low)
  | writeEvent b => cases he; exact h.live (h.fewer (.takeByte s b)).conclude
  | masterReadAnswer ack => cases he; exact h.live (h.fewer (.takeReadAnswer s ack)).conclude
  | targetAddressAnswer k ack => cases he; exact h.live (h.fewer (.addressAnswer s k ack)).conclude
  | targetByteAnswer k ack => cases he; exact h.live (h.fewer (.byteAnswer s k ack)).conclude
  | readByteArrives k b => cases he; exact h.live (h.fewer (.byteArrives s k b)).conclude
  | holdLimitExpiry => cases he; exact h.live (h.fewer (.holdExpiry s)).conclude
  | forwardEnd k low => cases he; exact h.live (h.endForward k low)
  | deliveryEnd k o low => cases he; exact h.live (h.endDelivery k o low)
  | probeEnd k answer low => cases he; exact h.live (h.endProbe k answer low)
  | discoveryProbeEnd k found low => cases he; exact h.live (h.endDiscoveryProbe k found low)
  | stall k clock =>
    cases he
    refine h.live ?_
    cases clock with
    | heldLow => exact h.fewer (.clockHeld s k)
    | rises => exact h.fewer (.clockRises s k)
    | expires low => exact h.takeStall k low
  | busFault k => cases he; exact h.live (h.takeFault k).conclude
  | recoveryAttemptSucceeds k low =>
    cases he
    split
    · exact (h.weaken.attemptSucceeds (attemptRuns_state ‹_›)).settle low
    · exact h
  | recoveryAttemptFails k =>
    cases he
    split
    · exact (h.attemptFails (attemptRuns_state ‹_›)).conclude
    · exact h
  | attemptTimerExpiry k =>
    cases he
    split
    · exact h.fewer (.onBus k _ rfl fun _ => ⟨rfl, rfl, rfl, rfl⟩)
    · exact h
  | closingEnd k low => cases he; exact h.closingEnd k low
  | surveyTimerExpiry low => cases he; exact h.timed (h.weaken.surveyPass.settle low)
  | idleTimerExpiry =>
    cases he
    refine h.timed ?_
    split
    · exact h.fewer (.setHm s _)
    · exact h
  | stepTimerExpiry low =>
    cases he
    exact h.timed (((h.fewer (.setHm s _)).weaken.holdOffSteps allSlots).settle low)
  | secondTimerExpiry =>
    cases he
    exact h.timed ((h.fewer (.setHm s _)).absenceSeconds allSlots).conclude
  | lookup => cases he; exact h.taking fun c _ hu => hu.runLookup c
  | bind low => cases he; exact h.taking fun c _ hu => hu.runBind low c
  | edit => cases he; exact h.taking fun c _ hu => hu.runEdit c
  | rebind low => cases he; exact h.taking fun c _ hu => hu.runRebind low c
  | retire => cases he; exact h.taking fun c _ hu => hu.runRetire c
  | clearCounts => cases he; exact h.taking fun c _ hu => hu.runClearCounts c
  | probe low => cases he; exact h.taking fun c _ hu => hu.runProbe low c
  | discover low => cases he; exact h.taking fun c _ hu => hu.runDiscover low c
  | cancel => cases he; exact h.taking fun c _ hu => hu.runCancel c
  | pause => cases he; exact h.taking fun c _ hu => hu.runPause c
  | resume low => cases he; exact h.taking fun c _ hu => hu.runResume low c
  | flush low => cases he; exact h.taking fun c _ hu => hu.runFlush low c
  | partition => cases he; exact h.taking fun c _ hu => hu.runPartition c
  | setTiming => cases he; exact h.taking fun c _ hu => hu.runSetTiming c
  | setProtect => cases he; exact h.taking fun c _ hu => hu.runSetProtect c
  | fixProtect => cases he; exact h.taking fun c _ hu => hu.runFixProtect c
  | setAlert => cases he; exact h.taking fun c _ hu => hu.runSetAlert c
  | changes => cases he; exact h.taking fun c _ hu => hu.runChanges c
  | status c => cases he; exact h.frame (h.fewer (.setMp s _))
  | writeEnable => cases he; exact h.frame (h.fewer (.setMp s _))
  | writeDisable => cases he; exact h.frame (h.fewer (.setMp s _))
  | push bytes => cases he; exact h.frame (h.fewer (.runPush s bytes))
  | pop clocks e => cases he; exact h.frame (h.fewer (.runPop s clocks e))
  | restartEnable => cases he; exact h.frame (h.fewer (.setMp s _))
  | restart bytes low => cases he; exact h.frame (h.runRestart bytes low)
  | ackRestart => cases he; exact h.frame ((h.fewer (.setMp s _)).fewer (.evaluate _))
  | unknownFrame code =>
    cases he
    split
    · exact h.frame (h.fewer (.setMp s _))
    · exact h
  | partialFrame bits =>
    cases he
    split
    · exact h.frame (h.fewer (.setMp s _))
    · exact h
  | emptyFrame => cases he; exact h.frame h
  | fullReset => cases he; exact heldReset_sound s
  | protChange high => cases he; exact h.fewer (.setPu s _)
  | fullResetEnd mcs =>
    cases he
    split
    · exact h.fewer (.of_blocks rfl rfl rfl)
    · exact h

/-- One step, a command or one ms, keeps the laws of work. -/
theorem step_sound (h : s.Sound none True) (t : State) (he : step s = .next t) : t.Sound none True := by
  unfold step at he
  split at he
  · cases he
    exact h.fewer (.tick s)
  · rename_i c rest _
    exact exec_sound (s := { s with pending := rest }) (h.fewer (.of_blocks rfl rfl rfl)) c t he

/-- Settles O60: the laws of work hold together, with the bus of a transaction that ends taken as empty inside an event
(`State.Sound`), and the arbiters' choice at an event's end leaves no IDLE engine anything to do. -/
theorem workLawsKept : Obligations.WorkLawsKept := by
  unfold Obligations.WorkLawsKept
  exact fun s t work rest probes he => sound_iff.mp (step_sound (sound_iff.mpr ⟨work, rest, probes⟩) t he)

end Sys2Proof.Machine
end

section
namespace Sys2Proof.Machine

/-! ### The passing of one ms (R44, R65, R69, R95) -/

/-- One more, up to the limit. -/
theorem min_succ_eq_ite (n m : Nat) : min (n + 1) m = if n < m then n + 1 else m := by
  split <;> omega

theorem Timer.tick_eq (u : Timer) :
    u.tick = { limit := u.limit, elapsed := if u.elapsed < u.limit then u.elapsed + 1 else u.limit } := by
  unfold Timer.tick
  rw [min_succ_eq_ite]

theorem Health.tick_eq (h : Health) :
    h.tick = { h with
      surveyLeft := h.surveyLeft - 1, idleLeft := h.idleLeft.map fun n => n - 1
      stepRun := if h.stepRun < 100 then h.stepRun + 1 else 100
      secondRun := if h.secondRun < 1000 then h.secondRun + 1 else 1000 } := by
  unfold Health.tick
  rw [min_succ_eq_ite, min_succ_eq_ite]
  rfl

theorem tick_held (s : State) (hr : s.inReset = true) : s.tick = s := if_pos hr

theorem tick_running (s : State) (hr : s.inReset = false) :
    s.tick = { s with
      up := { s.up with ctx := { s.up.ctx with hold := s.up.ctx.hold.map Timer.tick } }
      eng := s.eng.map Engine.tick
      hm := s.hm.tick } := if_neg (by simp [hr])

theorem step_of_empty (s : State) (hp : s.pending = []) : step s = .next s.tick := by
  unfold step
  rw [hp]

/-- Settles O2: a held reset stops the ms; otherwise each timer's own advance is the one stated. -/
theorem idleStepPassesOneMs : Obligations.IdleStepPassesOneMs := by
  unfold Obligations.IdleStepPassesOneMs
  intro s hp later
  have hlater : Timer.tick = later := funext Timer.tick_eq
  refine ⟨fun hr => ?_, fun hr => ⟨_, step_of_empty s hp, ?_⟩⟩
  · rw [step_of_empty s hp, tick_held s hr]
  · rw [tick_running s hr, hlater, Health.tick_eq]
    refine ⟨fun k => ?_, rfl⟩
    rw [← hlater]
    exact Quad.get_map s.eng Engine.tick k

end Sys2Proof.Machine
end

section
namespace Sys2Proof.Quad

@[simp] theorem set_set {α : Type} (q : Quad α) (k : Seg) (x y : α) : (q.set k x).set k y = q.set k y := by
  match k with
  | 0 | 1 | 2 | 3 => rfl

end Sys2Proof.Quad
end

section
namespace Sys2Proof.Machine

variable (s : State)

/-! ### The events of the two sides while no full reset is held (R171) -/

theorem live_running (hr : s.inReset = false) (f : State → State) : s.live f = f s := if_neg (by simp [hr])

theorem exec_writeEvent (hr : s.inReset = false) (b : Byte) :
    exec (.writeEvent b) s = .next (s.takeByte b).conclude := by
  change execWriteEvent b s = _
  rw [execWriteEvent, live_running s hr]

theorem exec_masterReadAnswer (hr : s.inReset = false) (ack : Bool) :
    exec (.masterReadAnswer ack) s = .next (s.takeReadAnswer ack).conclude := by
  change execMasterReadAnswer ack s = _
  rw [execMasterReadAnswer, live_running s hr]

theorem exec_holdLimitExpiry (hr : s.inReset = false) :
    exec .holdLimitExpiry s = .next s.holdExpiry.conclude := by
  change execHoldLimitExpiry s = _
  rw [execHoldLimitExpiry, live_running s hr]

theorem exec_stopCondition (hr : s.inReset = false) (low : LowLines) :
    exec (.stopCondition low) s = .next (s.closeForStop.settle low) := by
  change execStopCondition low s = _
  rw [execStopCondition, live_running s hr]

theorem exec_repeatedStart_none (hr : s.inReset = false) (cut : Bool) (low : LowLines) :
    exec (.repeatedStart cut none low) s = .next ((s.closeForRestart cut).settle low) := by
  change execRepeatedStart cut none low s = _
  rw [execRepeatedStart, live_running s hr]

theorem exec_repeatedStart_some (hr : s.inReset = false) (cut : Bool) (a : Addr) (d : Dir) (low : LowLines) :
    exec (.repeatedStart cut (some (a, d)) low) s =
      .next ((((s.closeForRestart cut).arbitrateAll low).resolve a d).settle low) := by
  change execRepeatedStart cut (some (a, d)) low s = _
  rw [execRepeatedStart, live_running s hr]

theorem exec_addressEvent_unaddressed (hr : s.inReset = false) (hp : s.up.ctx.phase = .unaddressed) (a : Addr) (d : Dir)
    (low : LowLines) : exec (.addressEvent a d low) s = .next ((s.resolve a d).settle low) := by
  change execAddressEvent a d low s = _
  rw [execAddressEvent, live_running s hr]
  simp only [if_pos hp]

theorem exec_addressEvent_addressed (hr : s.inReset = false) (hp : s.up.ctx.phase ≠ .unaddressed) (a : Addr) (d : Dir)
    (low : LowLines) : exec (.addressEvent a d low) s =
      .next ((((s.closeForRestart false).arbitrateAll low).resolve a d).settle low) := by
  change execAddressEvent a d low s = _
  rw [execAddressEvent, live_running s hr]
  simp only [if_neg hp]

theorem exec_targetAddressAnswer (hr : s.inReset = false) (k : Seg) (ack : Bool) :
    exec (.targetAddressAnswer k ack) s = .next (s.addressAnswer k ack).conclude := by
  change execTargetAddressAnswer k ack s = _
  rw [execTargetAddressAnswer, live_running s hr]

theorem exec_targetByteAnswer (hr : s.inReset = false) (k : Seg) (ack : Bool) :
    exec (.targetByteAnswer k ack) s = .next (s.byteAnswer k ack).conclude := by
  change execTargetByteAnswer k ack s = _
  rw [execTargetByteAnswer, live_running s hr]

theorem exec_readByteArrives (hr : s.inReset = false) (k : Seg) (b : Byte) :
    exec (.readByteArrives k b) s = .next (s.byteArrives k b).conclude := by
  change execReadByteArrives k b s = _
  rw [execReadByteArrives, live_running s hr]

/-! ### Changing an engine -/

section
variable {s} {k : Seg}

/-- Two changes that agree on the engine they meet. -/
theorem modEngine_agree {f g : Engine → Engine} (h : f (s.engine k) = g (s.engine k)) :
    s.modEngine k f = s.modEngine k g :=
  congrArg (fun e => s.setEng (s.eng.set k e)) h

/-- A change that does not change the engine it meets. -/
theorem modEngine_same {f : Engine → Engine} (h : f (s.engine k) = s.engine k) : s.modEngine k f = s := by
  change s.setEng (s.eng.set k (f (s.engine k))) = s
  rw [h]
  exact congrArg s.setEng (Quad.set_get_self s.eng k)

theorem modEngine_modEngine (f g : Engine → Engine) :
    (s.modEngine k f).modEngine k g = s.modEngine k fun e => g (f e) := by
  change s.setEng ((s.eng.set k (f (s.eng.get k))).set k (g ((s.eng.set k (f (s.eng.get k))).get k))) = _
  rw [Quad.set_set, Quad.get_set_self]
  rfl

theorem modEngine_setOut (f : Engine → Engine) (o : UpLines) :
    (s.modEngine k f).setOut o = (s.setOut o).modEngine k f := rfl

/-- The engine is asked for the next byte, and UP's hold timer starts (R38). -/
theorem fetchByte_tx {x : Tx} (hx : (s.engine k).tx = some x) :
    s.fetchByte k =
      (s.modEngine k fun e => { e with tx := some { x with phase := .data, step := .fetch } }).setCtx
        { s.up.ctx with hold := s.up.startHold } := by
  have hf : (s.modEngine k fun e => { e with tx := e.tx.map fun t => { t with phase := .data, step := .fetch } }) =
      s.modEngine k fun e => { e with tx := some { x with phase := .data, step := .fetch } } :=
    modEngine_agree (by rw [hx]; rfl)
  rw [State.fetchByte, hf]
  rfl

end

/-! ### UP's answer field (R35, R50) -/

theorem fillByte_of_answer {c : UpContext} {f : Byte}
    (h : (∃ p, c.answer = some ⟨p, f⟩) ∨ (c.answer = none ∧ f = 0xFF)) : c.fillByte = f := by
  unfold UpContext.fillByte
  rcases h with ⟨p, h⟩ | ⟨h, rfl⟩ <;> rw [h]
  rfl

/-! ### A byte the master writes (R35, R37, R48) -/

section
variable {s}

theorem takeByte_posted (b : Byte) (hp : s.up.ctx.phase = .write) (hm : s.up.ctx.mode = some .posted)
    (hl : s.up.ctx.staged.length < 16) :
    s.takeByte b = s.setUp { s.up with
      ctx := { s.up.ctx with staged := s.up.ctx.staged ++ [b] }, out := ⟨some true, none⟩ } := by
  simp only [State.takeByte, hp, hm, Config.maxPostedBytes, if_pos hl]

theorem takeByte_posted_full (b : Byte) (hp : s.up.ctx.phase = .write) (hm : s.up.ctx.mode = some .posted)
    (hl : 16 ≤ s.up.ctx.staged.length) : s.takeByte b = s.setOut ⟨some false, none⟩ := by
  simp only [State.takeByte, hp, hm, Config.maxPostedBytes, if_neg (Nat.not_lt.mpr hl)]

theorem takeByte_standIn (b : Byte) (hp : s.up.ctx.phase = .write) (hm : s.up.ctx.mode = some .standIn) :
    s.takeByte b = s.setOut ⟨some true, none⟩ := by
  simp only [State.takeByte, hp, hm]

theorem takeByte_unaddressed (b : Byte) (hp : s.up.ctx.phase = .unaddressed) :
    s.takeByte b = s.setOut ⟨some false, none⟩ := by
  simp only [State.takeByte, hp]

/-- A byte of a mode that a target answers goes to the engine that UP has open. -/
theorem takeByte_carried (b : Byte) {m : Option UpMode} {k : Seg} (hp : s.up.ctx.phase = .write)
    (hm : s.up.ctx.mode = m ∧ (m = some .forward ∨ m = some .catchAll)) (hd : s.up.ctx.downOpen = some k) :
    s.takeByte b = s.carryByte k b := by
  obtain ⟨hm, rfl | rfl⟩ := hm <;> simp only [State.takeByte, hp, hm, hd]

theorem carryByte_waiting (b : Byte) {k : Seg} {x : Tx} (hx : s.onBus k x) (hf : x.isForward = true)
    (hp : x.phase = .data) (hs : x.step = .waitUp) :
    s.carryByte k b =
      (s.modEngine k fun e => { e with tx := some { x with step := .send b } }).setUp { s.up with
        ctx := { s.up.ctx with hold := s.up.startHold }, out := .released } := by
  unfold State.carryByte
  rw [hx.1]
  exact if_pos ⟨hf, hp, hs, hx.2⟩

/-! ### The master's answer to a byte it read (R35, R38, R46) -/

theorem takeReadAnswer_after_last (ack : Bool) (hp : s.up.ctx.phase = .read) (hl : s.up.ctx.lastByteGiven = true) :
    s.takeReadAnswer ack = s.setOut .released := by
  simp only [State.takeReadAnswer, hp, hl, if_true]

theorem takeReadAnswer_standIn (ack : Bool) (hp : s.up.ctx.phase = .read) (hl : s.up.ctx.lastByteGiven = false)
    (hm : s.up.ctx.mode = some .standIn) :
    s.takeReadAnswer ack =
      if ack then s.setOut ⟨none, some s.up.ctx.fillByte⟩
      else s.setUp { s.up with ctx := { s.up.ctx with lastByteGiven := true }, out := .released } := by
  simp only [State.takeReadAnswer, hp, hl, hm]
  rfl

theorem takeReadAnswer_carried (ack : Bool) {m : Option UpMode} {k : Seg} (hp : s.up.ctx.phase = .read)
    (hl : s.up.ctx.lastByteGiven = false) (hm : s.up.ctx.mode = m ∧ (m = some .forward ∨ m = some .catchAll))
    (hd : s.up.ctx.downOpen = some k) : s.takeReadAnswer ack = s.answerByte k ack := by
  obtain ⟨hm, rfl | rfl⟩ := hm <;> simp only [State.takeReadAnswer, hp, hl, hm, hd] <;> rfl

/-- After an acknowledge the engine fetches the next byte. -/
theorem answerByte_ack {k : Seg} {x : Tx} {b : Byte} (hx : (s.engine k).tx = some x) (hs : x.step = .hold b) :
    s.answerByte k true =
      (s.modEngine k fun e => { e with tx := some { x with phase := .data, step := .fetch, carried := x.carried + 1 } }).setUp
        { s.up with ctx := { s.up.ctx with hold := s.up.startHold }, out := .released } := by
  simp only [State.answerByte, hx, hs, if_true]
  rw [fetchByte_tx (x := { x with step := .nak, carried := x.carried + 1 })]
  · rw [modEngine_setOut, modEngine_modEngine]
    rfl
  · simp

theorem answerByte_nak {k : Seg} {x : Tx} {b : Byte} (hx : (s.engine k).tx = some x) (hs : x.step = .hold b) :
    s.answerByte k false =
      (s.modEngine k fun e => { e with tx := some { x with step := .nak, carried := x.carried + 1 } }).setUp
        { s.up with ctx := { s.up.ctx with lastByteGiven := true }, out := .released } := by
  simp only [State.answerByte, hx, hs]
  rfl

end

/-- Settles O40: each mode of a byte written and of a byte read has its own equation. -/
theorem upstreamBytesByMode : Obligations.UpstreamBytesByMode := by
  unfold Obligations.UpstreamBytesByMode
  intro s hr held carries
  refine ⟨fun b => ?_, fun ack => ?_⟩
  · intro answers
    have answered : ∀ m, s.takeByte b = m → answers m := fun m e => e ▸ exec_writeEvent s hr b
    refine ⟨fun hp hm hl => answered _ (takeByte_posted b hp hm hl), fun hp hm hl => answered _ (takeByte_posted_full b hp hm hl),
      fun hp hm => answered _ (takeByte_standIn b hp hm), fun hp => answered _ (takeByte_unaddressed b hp), ?_⟩
    intro m k x hp hm hd hx hf hph hst
    exact answered _ ((takeByte_carried b hp hm hd).trans (carryByte_waiting b hx hf hph hst))
  · intro answers hp
    have answered : ∀ m, s.takeReadAnswer ack = m → answers m := fun m e => e ▸ exec_masterReadAnswer s hr ack
    refine ⟨fun hl => answered _ (takeReadAnswer_after_last ack hp hl), fun f hl hm hf => ?_, fun m k x b hl hm hd hx hs => ?_⟩
    · have h := takeReadAnswer_standIn ack hp hl hm
      rw [fillByte_of_answer hf] at h
      exact ⟨fun ha => answered _ (h.trans (if_pos ha)), fun ha => answered _ (h.trans (if_neg (by simp [ha])))⟩
    · have h := takeReadAnswer_carried ack hp hl hm hd
      refine ⟨fun ha => answered _ ?_, fun ha => answered _ ?_⟩
      · subst ha
        exact h.trans (answerByte_ack hx hs)
      · subst ha
        exact h.trans (answerByte_nak hx hs)

end Sys2Proof.Machine
end

section
namespace Sys2Proof.Machine

variable {s : State} {k : Seg} {x : Tx}

/-! ### Asking for the end of a forward (R39, R59) -/

/-- A forward whose end UP has asked for. -/
def Tx.asked (x : Tx) : Tx := { x with phase := .closing, step := x.step.closing, reason := some .onRequest }

theorem requestEnd_open (hx : s.onBus k x) (hf : x.isForward = true) (hc : x.phase ≠ .closing) :
    s.requestEnd k = s.modEngine k fun e => { e with tx := some x.asked } := by
  refine modEngine_agree ?_
  simp only [hx.1, hf, hc, hx.2, ne_eq, not_false_eq_true, and_self, if_true, Tx.asked]

/-- A forward that is CLOSING is not asked again. -/
theorem requestEnd_closing (hx : s.onBus k x) (hc : x.phase = .closing) : s.requestEnd k = s := by
  refine modEngine_same ?_
  simp only [hx.1, hc, ne_eq, not_true_eq_false, false_and, and_false, if_false]

theorem requestEndOpen_none (hd : s.up.ctx.downOpen = none) : s.requestEndOpen = s := by
  simp only [State.requestEndOpen, hd]

theorem requestEndOpen_some (hd : s.up.ctx.downOpen = some k) : s.requestEndOpen = s.requestEnd k := by
  simp only [State.requestEndOpen, hd]

/-! ### A request that has not started (R42, R55) -/

theorem dropRequest_waiting (hd : s.up.ctx.downOpen = none) (hk : s.up.ctx.segment = some k) :
    s.dropRequest = s.modEngine k fun e => { e with request := none } := by
  simp only [State.dropRequest, hd, hk]

theorem dropRequest_noSegment (hk : s.up.ctx.segment = none) : s.dropRequest = s := by
  simp only [State.dropRequest, hk]

theorem dropRequest_started (hd : s.up.ctx.downOpen = some k) : s.dropRequest = s := by
  unfold State.dropRequest
  rw [hd]
  cases s.up.ctx.segment <;> rfl

@[simp] theorem dropRequest_up (s : State) : s.dropRequest.up = s.up := by
  unfold State.dropRequest
  split <;> rfl

/-- What becomes of the engine's part when UP gives its transaction up: the request taken back, or the end asked for. -/
theorem giveUp_waiting (hd : s.up.ctx.downOpen = none) (hk : s.up.ctx.segment = some k) :
    s.dropRequest.requestEndOpen = s.modEngine k fun e => { e with request := none } := by
  rw [requestEndOpen_none (by rw [dropRequest_up, hd]), dropRequest_waiting hd hk]

theorem giveUp_started (hd : s.up.ctx.downOpen = some k) : s.dropRequest.requestEndOpen = s.requestEnd k := by
  rw [dropRequest_started hd, requestEndOpen_some hd]

theorem giveUp_nothing (hd : s.up.ctx.downOpen = none) (hk : s.up.ctx.segment = none) :
    s.dropRequest.requestEndOpen = s := by
  rw [dropRequest_noSegment hk, requestEndOpen_none hd]

/-! ### The answer at the hold limit (R45, R46) -/

theorem answerAsExpired_address (hp : s.up.ctx.phase = .address) : s.answerAsExpired = s.upNak := by
  simp only [State.answerAsExpired, hp]

theorem answerAsExpired_write (hp : s.up.ctx.phase = .write) (hh : s.up.ctx.hold.isSome = true) :
    s.answerAsExpired = s.upNak := by
  simp only [State.answerAsExpired, hp, hh, if_true]

theorem answerAsExpired_read (hp : s.up.ctx.phase = .read) (hh : s.up.ctx.hold.isSome = true) :
    s.answerAsExpired = s.setUp { s.up with
      ctx := { s.up.ctx with mode := some .standIn, segment := none, hold := none }
      out := ⟨none, some s.up.ctx.fillByte⟩ } := by
  simp only [State.answerAsExpired, hp, hh, if_true]

theorem holdExpiry_held {held : Timer} (hh : s.up.ctx.hold = some held) :
    s.holdExpiry = s.dropRequest.requestEndOpen.answerAsExpired := by
  simp only [State.holdExpiry, hh, Option.isSome_some, if_true]

/-- Settles O41: the engine loses its request, or its forward is asked to end; then UP answers by its phase. -/
theorem holdLimitAnswersUpstream : Obligations.HoldLimitAnswersUpstream := by
  unfold Obligations.HoldLimitAnswersUpstream
  intro s k held hr hh answered
  have hold : s.up.ctx.hold.isSome = true := by simp [hh]
  have key : ∀ e : Engine, s.dropRequest.requestEndOpen = s.modEngine k (fun _ => e) → answered e := by
    intro e he
    have hexec := exec_holdLimitExpiry s hr
    rw [holdExpiry_held hh, he] at hexec
    refine ⟨fun hp => ?_, fun hp => ?_, fun f hp hf => ?_⟩
    · rw [hexec, answerAsExpired_address (s := s.modEngine k fun _ => e) hp]
      rfl
    · rw [hexec, answerAsExpired_write (s := s.modEngine k fun _ => e) hp hold]
      rfl
    · rw [hexec, answerAsExpired_read (s := s.modEngine k fun _ => e) hp hold, ← fillByte_of_answer hf]
      rfl
  refine ⟨fun hd hk => key _ (giveUp_waiting hd hk), fun x hd hx hf hc => ?_⟩
  intro step
  have hstep : step = x.step.closing := by cases hs : x.step <;> simp only [step, hs] <;> rfl
  rw [hstep]
  exact key _ ((giveUp_started hd).trans (requestEnd_open hx hf hc))

/-! ### The commit of a posted write (R49, R80) -/

section
variable {i : Slot} {a : Addr} {d : Dir}

theorem commitAllowed_iff (hk : s.pool.reservation = some k) :
    s.commitAllowed i a = true ↔ ∃ r, s.recAt i = some r ∧ r.state = .bound ∧ r.aliasAddr = a ∧ r.segment = k ∧
      (s.engine k).state ≠ .failed := by
  unfold State.commitAllowed
  cases h : s.recAt i <;> simp [hk, and_assoc]

theorem holdsAlias_iff : s.holdsAlias i a = true ↔ ∃ r, s.recAt i = some r ∧ r.aliasAddr = a := by
  unfold State.holdsAlias
  cases h : s.recAt i <;> simp

theorem commit_cases (hi : s.up.ctx.slot = some i) (ha : s.up.ctx.address = some (a, d))
    (hk : s.pool.reservation = some k) :
    s.commit =
      if s.commitAllowed i a then
        (s.modPool k fun p => { p with queue := p.queue ++ [⟨i, s.up.ctx.staged, false⟩] }).releaseReservation
      else if s.holdsAlias i a then s.releaseReservation.undeliveredClaim i
      else s.releaseReservation := by
  simp only [State.commit, hi, ha, hk]

end

theorem undeliveredClaim_counted {i : Slot} {r : Record} (hi : s.recAt i = some r) (hu : r.undelivered < 255) :
    s.undeliveredClaim i = (s.putRec i (some { r with undelivered := r.undelivered + 1 })).markChanged i := by
  have hmax : r.undelivered < Config.maxUndelivered := hu
  simp only [State.undeliveredClaim, hi, if_pos hmax]

theorem undeliveredClaim_saturated {i : Slot} {r : Record} (hi : s.recAt i = some r) (hu : 255 ≤ r.undelivered) :
    s.undeliveredClaim i = s := by
  have hmax : ¬r.undelivered < Config.maxUndelivered := Nat.not_lt.mpr hu
  simp only [State.undeliveredClaim, hi, if_neg hmax]

theorem closeForStop_posted (hm : s.up.ctx.mode = some .posted) : s.closeForStop = s.commit.leaveTransaction := by
  simp only [State.closeForStop, hm]

theorem closeForStop_other (hm : s.up.ctx.mode ≠ some .posted) :
    s.closeForStop = s.dropRequest.requestEndOpen.leaveTransaction := by
  unfold State.closeForStop
  split
  · contradiction
  · rfl

/-- Settles O39: the commit of a POSTED write by its checks; else the request taken back or the end asked for. -/
theorem stopCommitsOrEndsDownstream : Obligations.StopCommitsOrEndsDownstream := by
  unfold Obligations.StopCommitsOrEndsDownstream
  intro low s hr left answers
  have closes : ∀ m, s.closeForStop = m → answers m := fun m e => e ▸ exec_stopCondition s hr low
  refine ⟨?_, ?_, ?_, ?_⟩
  · intro i a d k hm hi ha hk wanted
    have hclose := (closeForStop_posted hm).trans (congrArg _ (commit_cases hi ha hk))
    have hwanted : s.commitAllowed i a = true ↔ wanted := commitAllowed_iff hk
    refine ⟨fun hw => closes _ ?_, fun r hw h ha hu => closes _ ?_, fun r hw h ha hu => closes _ ?_,
      fun hno => closes _ ?_⟩
    · rw [hclose, if_pos (hwanted.mpr hw)]
      rfl
    · rw [hclose, if_neg (hwanted.not.mpr hw), if_pos (holdsAlias_iff.mpr ⟨r, h, ha⟩),
        undeliveredClaim_counted (s := s.releaseReservation) h hu]
      rfl
    · rw [hclose, if_neg (hwanted.not.mpr hw), if_pos (holdsAlias_iff.mpr ⟨r, h, ha⟩),
        undeliveredClaim_saturated (s := s.releaseReservation) h hu]
      rfl
    · have hw : ¬wanted := fun ⟨r, h, _, ha, _⟩ => hno r h ha
      rw [hclose, if_neg (hwanted.not.mpr hw), if_neg (holdsAlias_iff.not.mpr fun ⟨r, h, ha⟩ => hno r h ha)]
      rfl
  · intro k x hm hd hx hf step
    have hstep : step = x.step.closing := by cases hs : x.step <;> simp only [step, hs] <;> rfl
    have hclose := closeForStop_other hm
    rw [giveUp_started hd] at hclose
    refine ⟨fun hc => closes _ ?_, fun hc => closes _ ?_⟩
    · rw [hclose, requestEnd_open hx hf hc, hstep]
      rfl
    · rw [hclose, requestEnd_closing hx hc]
      rfl
  · intro k hm hd hk
    refine closes _ ?_
    rw [closeForStop_other hm, giveUp_waiting hd hk]
    rfl
  · intro hm hd hk
    refine closes _ ?_
    rw [closeForStop_other hm, giveUp_nothing hd hk]
    rfl

/-! ### A repeated start (R40, R41) -/

theorem BusStep.between_iff (b : BusStep) : b.between = true ↔ b = .waitUp ∨ b = .nak ∨ ∃ byte, b = .hold byte := by
  cases b <;> simp [BusStep.between]

theorem closeForRestart_posted (cut : Bool) (hm : s.up.ctx.mode = some .posted) :
    s.closeForRestart cut = s.commit.leaveTransaction := by
  simp only [State.closeForRestart, hm]

theorem closeForRestart_unaddressed (cut : Bool) (hm : s.up.ctx.mode = none) :
    s.closeForRestart cut = s.requestEndOpen.leaveTransaction := by
  simp only [State.closeForRestart, hm]

theorem closeForRestart_notOpen {m : UpMode} (cut : Bool) (hm : s.up.ctx.mode = some m) (hp : m ≠ .posted)
    (hd : s.up.ctx.downOpen = none) : s.closeForRestart cut = s.dropRequest.leaveTransaction := by
  rw [State.closeForRestart, hm]
  cases m with
  | posted => exact absurd rfl hp
  | _ => simp only [hd]

/-- An open forward stays open when it stands between two steps and the condition cuts no written byte (R40, R41). -/
theorem closeForRestart_open {m : UpMode} (cut : Bool) (hm : s.up.ctx.mode = some m) (hp : m ≠ .posted)
    (hd : s.up.ctx.downOpen = some k) (hx : (s.engine k).tx = some x) :
    s.closeForRestart cut =
      if x.step.between ∧ ¬(cut ∧ s.up.ctx.phase = .write) then s.leaveTransaction
      else s.requestEndOpen.leaveTransaction := by
  rw [State.closeForRestart, hm]
  cases m with
  | posted => exact absurd rfl hp
  | _ => simp only [hd, hx, Option.any_some]

/-- A mode that is not POSTED is closed as at a stop, but for the forward left open. -/
theorem closeForStop_notOpen (hm : s.up.ctx.mode ≠ some .posted) (hd : s.up.ctx.downOpen = none) :
    s.closeForStop = s.dropRequest.leaveTransaction := by
  rw [closeForStop_other hm, requestEndOpen_none (by rw [dropRequest_up, hd])]

theorem closeForStop_open (hm : s.up.ctx.mode ≠ some .posted) (hd : s.up.ctx.downOpen = some k) :
    s.closeForStop = s.requestEndOpen.leaveTransaction := by
  rw [closeForStop_other hm, dropRequest_started hd]

/-- UP is left UNADDRESSED, whatever the mode was. -/
theorem closeForRestart_phase (s : State) (cut : Bool) : (s.closeForRestart cut).up.ctx.phase = .unaddressed := by
  unfold State.closeForRestart
  split
  · rfl
  · split
    · split <;> rfl
    · rfl
  · rfl

@[simp] theorem commit_inReset (s : State) : s.commit.inReset = s.inReset := by
  unfold State.commit
  split
  · split
    · rfl
    · split
      · simp [State.releaseReservation]
      · rfl
  · rfl

@[simp] theorem dropRequest_inReset (s : State) : s.dropRequest.inReset = s.inReset := by
  unfold State.dropRequest
  split <;> rfl

@[simp] theorem leaveTransaction_inReset (s : State) : s.leaveTransaction.inReset = s.inReset := rfl

@[simp] theorem closeForRestart_inReset (s : State) (cut : Bool) : (s.closeForRestart cut).inReset = s.inReset := by
  unfold State.closeForRestart
  split
  · simp
  · split
    · split <;> simp
    · simp
  · simp

/-- The arbiters leave UP's phase and the reset (R54). -/
theorem arbitrateAll_phase (s : State) (low : LowLines) : (s.arbitrateAll low).up.ctx.phase = s.up.ctx.phase := by
  obtain ⟨-, -, -, -, -, hctx, -⟩ := arbitrateAll_onlyArbiters s low
  have hphase := congrArg UpContext.phase hctx
  exact hphase

theorem arbitrateAll_inReset (s : State) (low : LowLines) : (s.arbitrateAll low).inReset = s.inReset := by
  obtain ⟨-, -, -, -, -, -, -, -, -, -, -, -, -, -, hr, -⟩ := arbitrateAll_onlyArbiters s low
  exact hr

/-- Settles O38: the closing of each mode against that of a stop; the address after it finds UP UNADDRESSED. -/
theorem repeatedStartClosesTheMode : Obligations.RepeatedStartClosesTheMode := by
  unfold Obligations.RepeatedStartClosesTheMode
  intro cut low s hr
  have asStop : s.closeForRestart cut = s.closeForStop →
      exec (.repeatedStart cut none low) s = exec (.stopCondition low) s := fun h => by
    rw [exec_repeatedStart_none s hr, exec_stopCondition s hr, h]
  have posted : s.up.ctx.mode = some .posted →
      exec (.repeatedStart cut none low) s = exec (.stopCondition low) s := fun hm =>
    asStop (by rw [closeForRestart_posted cut hm, closeForStop_posted hm])
  refine ⟨posted, fun m hm hd => ?_, fun m k x hm hp hd hx => ?_, fun hm => ?_, fun a d => ?_⟩
  · by_cases hp : m = .posted
    · exact posted (hp ▸ hm)
    · exact asStop (by rw [closeForRestart_notOpen cut hm hp hd, closeForStop_notOpen (by simp [hm, hp]) hd])
  · intro stays
    have hstays : (x.step.between = true ∧ ¬(cut = true ∧ s.up.ctx.phase = .write)) ↔ stays := by
      rw [BusStep.between_iff, not_and_or, Bool.not_eq_true]
    have hclose := closeForRestart_open cut hm hp hd hx
    refine ⟨fun h => ?_, fun h => asStop ?_⟩
    · rw [exec_repeatedStart_none s hr, hclose, if_pos (hstays.mpr h), State.leaveTransaction, hd]
      rfl
    · rw [hclose, if_neg (hstays.not.mpr h), closeForStop_open (by simp [hm, hp]) hd]
  · intro left answers
    have closes : ∀ m, s.closeForRestart cut = m → answers m := fun m e => e ▸ exec_repeatedStart_none s hr cut low
    have hclose := closeForRestart_unaddressed cut hm
    refine ⟨fun hd => closes _ ?_, fun k x hd hx hf => ?_⟩
    · rw [hclose, requestEndOpen_none hd]
      rfl
    · intro step
      have hstep : step = x.step.closing := by cases hs : x.step <;> simp only [step, hs] <;> rfl
      rw [requestEndOpen_some hd] at hclose
      refine ⟨fun hc => closes _ ?_, fun hc => closes _ ?_⟩
      · rw [hclose, requestEnd_open hx hf hc, hstep]
        rfl
      · rw [hclose, requestEnd_closing hx hc]
        rfl
  · rw [exec_repeatedStart_some s hr, exec_addressEvent_unaddressed]
    · rw [arbitrateAll_inReset, closeForRestart_inReset, hr]
    · rw [arbitrateAll_phase, closeForRestart_phase]

end Sys2Proof.Machine
end

section
namespace Sys2Proof.Machine

variable {s : State} {k : Seg} {x : Tx}

/-! ### A target's answers and bytes (R36, R37, R38, R60) -/

theorem relaying_iff (s : State) (k : Seg) : s.relaying k = true ↔ Relays s k := by
  simp [State.relaying, Relays, and_assoc]

/-- The used claim of a forward's slot: a catch-all has none, and a record that has left BOUND stays as it is (R8). -/
theorem usedByForward_cases {u : State} (h : (x.slot = none ∧ u = s) ∨ (∃ i r, x.slot = some i ∧ s.recAt i = some r ∧
      u = { s with dir := { s.dir with
        slots := s.dir.slots.set i.val (some { r with used := if r.state = .bound then true else r.used }) } })) :
    s.usedByForward x = u := by
  rcases h with ⟨hs, rfl⟩ | ⟨i, r, hs, hr, rfl⟩
  · simp only [State.usedByForward, hs]
  · simp only [State.usedByForward, hs, State.usedClaim, State.modRec, hr]
    split <;> rfl

@[simp] theorem usedByForward_up (s : State) (x : Tx) : (s.usedByForward x).up = s.up := by
  unfold State.usedByForward
  split <;> simp

theorem addressAnswer_forward (ack : Bool) (hx : s.onBus k x) (hst : x.step = .address) (hf : x.isForward = true) :
    s.addressAnswer k ack = s.forwardAddressAnswer k x ack := by
  simp only [State.addressAnswer, hx.1, hst, hx.2, and_self, if_true]
  rcases (isForward_iff x).mp hf with hk | hk <;> rw [hk]

theorem addressAnswer_delivery (ack : Bool) (hx : s.onBus k x) (hst : x.step = .address) (hk : x.kind = .delivery) :
    s.addressAnswer k ack = if ack then s.sendNext k x 0 else s.stopDelivery k x .addressNak := by
  simp only [State.addressAnswer, hx.1, hst, hx.2, and_self, if_true, hk]

theorem byteAnswer_forward {b : Byte} (ack : Bool) (hx : s.onBus k x) (hst : x.step = .send b) (hf : x.isForward = true) :
    s.byteAnswer k ack = s.forwardByteAnswer k x ack := by
  simp only [State.byteAnswer, hx.1, hst, hx.2, Bool.false_eq_true, if_false]
  rcases (isForward_iff x).mp hf with hk | hk <;> rw [hk]

theorem byteAnswer_delivery {b : Byte} (ack : Bool) (hx : s.onBus k x) (hst : x.step = .send b) (hk : x.kind = .delivery) :
    s.byteAnswer k ack = if ack then s.sendNext k x (x.carried + 1) else s.stopDelivery k x .dataNak := by
  simp only [State.byteAnswer, hx.1, hst, hx.2, Bool.false_eq_true, if_false, hk]

section
variable {e : Entry} {rest : List Entry} {n : Nat}

theorem sendNext_byte {b : Byte} (hq : (s.poolSeg k).queue = e :: rest) (hb : e.data[n]? = some b) :
    s.sendNext k x n = s.stepTx k { x with phase := .data, step := .send b, carried := n } := by
  simp only [State.sendNext, hq, hb]

theorem sendNext_complete (hq : (s.poolSeg k).queue = e :: rest) (hn : e.data.length ≤ n) :
    s.sendNext k x n = s.stepTx k { x with phase := .closing, step := .stop, carried := n, reason := some .complete } := by
  simp only [State.sendNext, hq, List.getElem?_eq_none hn]

end

/-! ### The answer to a forwarded address (R36, R45) -/

section
variable {u : State}

theorem forwardAddressAnswer_closing_ack (hu : s.usedByForward x = u) (hc : x.phase = .closing) :
    s.forwardAddressAnswer k x true = u.stepTx k { x with step := .stop } := by
  simp only [State.forwardAddressAnswer, hu, hc, if_true]

theorem forwardAddressAnswer_closing_nak (hc : x.phase = .closing) :
    s.forwardAddressAnswer k x false = s.stepTx k { x with step := .stop, reason := some .addressNak } := by
  simp only [State.forwardAddressAnswer, hc, if_true]
  rfl

theorem forwardAddressAnswer_ack (hu : s.usedByForward x = u) (hc : x.phase ≠ .closing) :
    s.forwardAddressAnswer k x true =
      if s.relaying k then (u.stepTx k { x with phase := .data, step := .waitUp }).relayAddressAck k x
      else u.stepTx k { x with phase := .data, step := .waitUp } := by
  simp only [State.forwardAddressAnswer, if_neg hc, if_true, hu]

theorem forwardAddressAnswer_nak (hc : x.phase ≠ .closing) :
    s.forwardAddressAnswer k x false =
      if s.relaying k then (s.stepTx k { x with phase := .closing, step := .stop, reason := some .addressNak }).upNak
      else s.stepTx k { x with phase := .closing, step := .stop, reason := some .addressNak } := by
  simp only [State.forwardAddressAnswer, if_neg hc, Bool.false_eq_true, if_false]

end

theorem relayAddressAck_write (hd : x.dir = .write) :
    s.relayAddressAck k x =
      s.setUp { s.up with ctx := { s.up.ctx with phase := .write, hold := none }, out := ⟨some true, none⟩ } := by
  simp only [State.relayAddressAck, hd, phaseOf]

/-- In a read UP goes on to ask for the first byte (log entry 6). -/
theorem relayAddressAck_read (hd : x.dir = .read) {y : Tx} (hy : (s.engine k).tx = some y) :
    s.relayAddressAck k x =
      (s.modEngine k fun e => { e with tx := some { y with phase := .data, step := .fetch } }).setUp { s.up with
        ctx := { s.up.ctx with phase := .read, hold := some ⟨s.up.holdLimit, 0⟩ }, out := ⟨some true, none⟩ } := by
  simp only [State.relayAddressAck, hd]
  exact fetchByte_tx (s := s.setUp _) hy

/-- Settles O42: a forward's answer by its phase and by whether UP relays it; a delivery's by what its entry holds. -/
theorem targetAddressAnswerIsRelayed : Obligations.TargetAddressAnswerIsRelayed := by
  unfold Obligations.TargetAddressAnswerIsRelayed
  intro k ack s u x hr hx hst moved answers
  have goes : ∀ m, s.addressAnswer k ack = m → answers m := fun m e => e ▸ exec_targetAddressAnswer s hr k ack
  refine ⟨fun hf hu => ?_, fun e rest hk hq => ?_⟩
  · have hans := addressAnswer_forward ack hx hst hf
    have hu := usedByForward_cases hu
    have hup : u.up = s.up := by rw [← hu, usedByForward_up]
    refine ⟨fun hc ha => goes _ ?_, fun hc ha => goes _ ?_, fun hc ha => ?_, fun hc ha => ?_⟩ <;> subst ha
    · exact hans.trans (forwardAddressAnswer_closing_ack hu hc)
    · exact hans.trans (forwardAddressAnswer_closing_nak hc)
    · rw [forwardAddressAnswer_ack hu hc] at hans
      refine ⟨fun hn => goes _ ?_, fun hy hd => goes _ ?_, fun hy hd => goes _ ?_⟩
      · rw [hans, if_neg ((relaying_iff s k).not.mpr hn)]
        rfl
      · rw [hans, if_pos ((relaying_iff s k).mpr hy), relayAddressAck_write hd, ← hup]
        rfl
      · rw [hans, if_pos ((relaying_iff s k).mpr hy),
          relayAddressAck_read hd (y := { x with phase := .data, step := .waitUp }) (by simp [State.stepTx]), ← hup]
        exact congrArg (fun m : State => m.setUp _) (modEngine_modEngine _ _)
    · rw [forwardAddressAnswer_nak hc] at hans
      intro stopped
      refine ⟨fun hn => goes _ ?_, fun hy => goes _ ?_⟩
      · rw [hans, if_neg ((relaying_iff s k).not.mpr hn)]
        rfl
      · rw [hans, if_pos ((relaying_iff s k).mpr hy), State.upNak]
        obtain ⟨hd, -⟩ := hy
        exact congrArg (fun o => (stopped.setUp { s.up with ctx := .unaddressed o, out := ⟨some false, none⟩ })) hd
  · have hans := addressAnswer_delivery ack hx hst hk
    refine ⟨fun ha => goes _ ?_, fun ha he => goes _ ?_, fun b bs ha he => goes _ ?_⟩ <;> subst ha
    · exact hans
    · exact hans.trans (sendNext_complete hq (by simp [he]))
    · exact hans.trans (sendNext_byte hq (by simp [he]))

/-! ### The answer to a forwarded byte (R37, R46) -/

theorem forwardByteAnswer_closing (ack : Bool) (hc : x.phase = .closing) :
    s.forwardByteAnswer k x ack =
      s.stepTx k { x with step := .stop, carried := if ack then x.carried + 1 else x.carried } := by
  simp only [State.forwardByteAnswer, hc, if_true]

theorem forwardByteAnswer_ack (hc : x.phase ≠ .closing) :
    s.forwardByteAnswer k x true =
      if s.relaying k then (s.stepTx k { x with step := .waitUp, carried := x.carried + 1 }).setUp { s.up with
        ctx := { s.up.ctx with hold := none }, out := ⟨some true, none⟩ }
      else s.stepTx k { x with step := .waitUp, carried := x.carried + 1 } := by
  simp only [State.forwardByteAnswer, if_neg hc, if_true]
  rfl

theorem forwardByteAnswer_nak (hc : x.phase ≠ .closing) :
    s.forwardByteAnswer k x false =
      if s.relaying k then (s.stepTx k { x with phase := .closing, step := .stop, reason := some .dataNak }).upNak
      else s.stepTx k { x with phase := .closing, step := .stop, reason := some .dataNak } := by
  simp only [State.forwardByteAnswer, if_neg hc]
  rfl

/-! ### A byte of a forwarded read (R38, R46) -/

theorem byteArrives_forward (b : Byte) (hx : s.onBus k x) (hst : x.step = .fetch) (hf : x.isForward = true) :
    s.byteArrives k b =
      if x.phase = .closing then s.stepTx k { x with step := .stop }
      else if s.relaying k then (s.stepTx k { x with step := .hold b }).setUp { s.up with
        ctx := { s.up.ctx with hold := none }, out := ⟨none, some b⟩ }
      else s.stepTx k { x with step := .hold b } := by
  simp only [State.byteArrives, hx.1, hst, hf, hx.2, and_self, if_true]
  rfl

/-- Settles O43: a written byte's answer, forwarded or delivered, and a byte read, by phase and by whether UP relays. -/
theorem targetBytesAreRelayed : Obligations.TargetBytesAreRelayed := by
  unfold Obligations.TargetBytesAreRelayed
  intro k s x hr hx moved
  have relays : s.relaying k = true ↔ Relays s k := relaying_iff s k
  refine ⟨fun b ack hst => ?_, fun b hst hf => ?_⟩
  · intro answers
    have goes : ∀ m, s.byteAnswer k ack = m → answers m := fun m e => e ▸ exec_targetByteAnswer s hr k ack
    refine ⟨fun hf => ?_, fun e rest hk hq => ?_⟩
    · have hans := byteAnswer_forward ack hx hst hf
      refine ⟨fun hc => goes _ ?_, fun hc ha => ?_, fun hc ha => ?_⟩
      · exact hans.trans (forwardByteAnswer_closing ack hc)
      · subst ha
        rw [forwardByteAnswer_ack hc] at hans
        exact ⟨fun hn => goes _ (hans.trans (if_neg (relays.not.mpr hn))),
          fun hy => goes _ (hans.trans (if_pos (relays.mpr hy)))⟩
      · subst ha
        rw [forwardByteAnswer_nak hc] at hans
        intro stopped
        refine ⟨fun hn => goes _ (hans.trans (if_neg (relays.not.mpr hn))), fun hy => goes _ ?_⟩
        rw [hans, if_pos (relays.mpr hy), State.upNak]
        obtain ⟨hd, -⟩ := hy
        exact congrArg (fun o => (stopped.setUp { s.up with ctx := .unaddressed o, out := ⟨some false, none⟩ })) hd
    · have hans := byteAnswer_delivery ack hx hst hk
      refine ⟨fun ha => goes _ ?_, fun ha he => goes _ ?_, fun b ha he => goes _ ?_⟩ <;> subst ha
      · exact hans
      · exact hans.trans (sendNext_complete hq he)
      · exact hans.trans (sendNext_byte hq he)
  · intro answers
    have goes : ∀ m, s.byteArrives k b = m → answers m := fun m e => e ▸ exec_readByteArrives s hr k b
    have hans := byteArrives_forward b hx hst hf
    refine ⟨fun hc => goes _ (hans.trans (if_pos hc)), fun hc hn => goes _ ?_, fun hc hy => goes _ ?_⟩
    · exact hans.trans ((if_neg hc).trans (if_neg (relays.not.mpr hn)))
    · exact hans.trans ((if_neg hc).trans (if_pos (relays.mpr hy)))

end Sys2Proof.Machine
end

section
namespace Sys2Proof.Machine

variable {s : State} {k : Seg} {x : Tx} {a : Addr} {d : Dir} {i : Slot} {r : Record}

/-! ### What an address finds (R30, R33, R79, R95, R102) -/

/-- A traffic notice sets the cadence to ACTIVE and starts the idle timer again (R34, R102). -/
theorem notice_eq (h : Health) :
    h.notice = { h with
      cadence := .active
      surveyLeft := if h.cadence = .relaxed then min h.surveyLeft (h.activePeriod * 100) else h.surveyLeft
      idleLeft := if h.idleTimeout = 0 then none else some (h.idleTimeout * 1000) } := by
  obtain ⟨cadence⟩ := h
  cases cadence <;> rfl

theorem reserved_iff (a : Addr) : reserved a = true ↔ a.toNat < 0x08 ∨ 0x77 < a.toNat := by
  rw [reserved, Bool.or_eq_true, decide_eq_true_iff, decide_eq_true_iff]
  rfl

theorem segInService_iff (s : State) (k : Seg) :
    s.segInService k = true ↔ (s.engine k).state ≠ .paused ∧ (s.engine k).state ≠ .failed := by
  unfold State.segInService
  cases (s.engine k).state <;> simp [inService]

/-- The write is posted: the record is BOUND with posting on, its segment is not FAILED, and PWP grants the 18 bytes
(R32, R79). -/
def State.Posts (s : State) (d : Dir) (r : Record) : Prop :=
  r.state = .bound ∧ d = .write ∧ r.posting = true ∧ (s.engine r.segment).state ≠ .failed ∧
    18 + queueCost (s.poolSeg r.segment).queue ≤ (s.poolSeg r.segment).share ∧ s.pool.reservation = none

theorem grants_iff (s : State) (k : Seg) :
    s.grants k = true ↔ 18 + queueCost (s.poolSeg k).queue ≤ (s.poolSeg k).share ∧ s.pool.reservation = none := by
  rw [State.grants, Bool.and_eq_true, decide_eq_true_iff, Option.isNone_iff_eq_none]
  rfl

theorem posts_iff (hb : r.state = .bound) : s.Posts d r ↔
    d = .write ∧ r.posting = true ∧ (s.engine r.segment).state ≠ .failed ∧ s.grants r.segment = true := by
  simp [State.Posts, grants_iff, hb]

/-- The transaction on segment `k` that a new address may continue: UP's open forward, between two steps (R40). -/
def State.Continuable (s : State) (k : Seg) (x : Tx) : Prop :=
  s.up.ctx.downOpen = some k ∧ s.onBus k x ∧ x.isForward = true ∧ x.phase ≠ .closing ∧
    (x.step = .waitUp ∨ x.step = .nak ∨ ∃ b, x.step = .hold b)

theorem continues_iff (s : State) (k : Seg) (slot : Option Slot) (target : Addr) :
    s.continues k slot target = true ↔
      ∃ x, s.Continuable k x ∧ x.slot = slot ∧ (slot.isSome = true ∨ x.target = target) := by
  unfold State.continues State.Continuable State.onBus
  cases h : (s.engine k).tx with
  | none => simp
  | some t =>
    simp only [Bool.and_eq_true, Bool.or_eq_true, beq_iff_eq, bne_iff_ne, Bool.not_eq_true', BusStep.between_iff,
      Option.some.injEq]
    constructor
    · rintro ⟨⟨⟨⟨⟨⟨hd, hf⟩, hp⟩, hs⟩, hslot⟩, hstep⟩, ht⟩
      exact ⟨t, ⟨hd, ⟨rfl, hs⟩, hf, hp, hstep⟩, hslot, ht⟩
    · rintro ⟨x, ⟨hd, ⟨rfl, hs⟩, hf, hp, hstep⟩, hslot, ht⟩
      exact ⟨⟨⟨⟨⟨⟨hd, hf⟩, hp⟩, hs⟩, hslot⟩, hstep⟩, ht⟩

/-- With nothing open downstream there is nothing to continue. -/
theorem continues_notOpen (hd : s.up.ctx.downOpen = none) (k : Seg) (slot : Option Slot) (target : Addr) :
    s.continues k slot target = false := by
  rw [← Bool.not_eq_true, continues_iff]
  rintro ⟨x, ⟨ho, -⟩, -⟩
  rw [hd] at ho
  contradiction

/-! ### The mode of an address, by what it finds (R31, R33) -/

theorem resolve_reserved (h : a.toNat < 0x08 ∨ 0x77 < a.toNat) :
    s.resolve a d = (s.setHm s.hm.notice).resolveRefused := by
  simp only [State.resolve, (reserved_iff a).mpr h, if_true]

section
variable (hlo : 0x08 ≤ a.toNat) (hhi : a.toNat ≤ 0x77)
include hlo hhi

theorem not_reserved : ¬reserved a = true := by
  rw [reserved_iff]
  omega

theorem resolve_unknown (hl : s.lookupAlias a = none) :
    s.resolve a d = (s.setHm s.hm.notice).resolveUnknown a d := by
  simp only [State.resolve, if_neg (not_reserved hlo hhi), lookupAlias_setHm, hl]

theorem resolve_record (hl : s.lookupAlias a = some i) (hr : s.recAt i = some r) :
    s.resolve a d = (s.setHm s.hm.notice).resolveRecord a d i r := by
  simp only [State.resolve, if_neg (not_reserved hlo hhi), lookupAlias_setHm, hl, recAt_setHm, hr]

end

theorem resolveUnknown_off (hc : s.up.catchAll = none) : s.resolveUnknown a d = s.resolveRefused := by
  simp only [State.resolveUnknown, hc]

theorem resolveUnknown_outOfService (hc : s.up.catchAll = some k) (hk : ¬s.segInService k = true) :
    s.resolveUnknown a d = s.resolveRefused := by
  simp only [State.resolveUnknown, hc, if_neg hk]

theorem resolveUnknown_catchAll (hc : s.up.catchAll = some k) (hk : s.segInService k = true) :
    s.resolveUnknown a d = s.resolveCarried .catchAll a d k none a none := by
  simp only [State.resolveUnknown, hc, if_pos hk]

theorem resolveRecord_posts (h : s.Posts d r) : s.resolveRecord a d i r = s.resolvePosted a d i r := by
  obtain ⟨hb, -⟩ := id h
  simp only [State.resolveRecord, hb, if_true, if_pos ((posts_iff hb).mp h)]

theorem resolveRecord_forward (hb : r.state = .bound) (hn : ¬s.Posts d r) (hk : s.segInService r.segment = true) :
    s.resolveRecord a d i r = s.resolveCarried .forward a d r.segment (some i) r.target (some ⟨r.policy, r.fill⟩) := by
  simp only [State.resolveRecord, hb, if_true, if_neg ((posts_iff hb).not.mp hn), if_pos hk]

theorem resolveRecord_standIn (h : r.state ≠ .bound ∨ (¬s.Posts d r ∧ ¬s.segInService r.segment = true)) :
    s.resolveRecord a d i r = s.resolveStandIn a d i r := by
  by_cases hb : r.state = .bound
  · obtain ⟨hn, hk⟩ := h.resolve_left (not_not.mpr hb)
    simp only [State.resolveRecord, hb, if_true, if_neg ((posts_iff hb).not.mp hn), if_neg hk]
  · simp only [State.resolveRecord, if_neg hb]

/-! ### A downstream transaction that the address does not continue (R39, R40) -/

theorem abandonOpen_notOpen (hd : s.up.ctx.downOpen = none) : s.abandonOpen = s := by
  rw [State.abandonOpen, requestEndOpen_none hd, ← hd]
  rfl

theorem abandonOpen_open (hd : s.up.ctx.downOpen = some k) :
    s.abandonOpen = (s.requestEnd k).setCtx { s.up.ctx with downOpen := none } := by
  rw [State.abandonOpen, requestEndOpen_some hd]
  rfl

@[simp] theorem abandonOpen_up (s : State) :
    s.abandonOpen.up = { s.up with ctx := { s.up.ctx with downOpen := none } } := by
  simp [State.abandonOpen]

@[simp] theorem abandonOpen_pool (s : State) : s.abandonOpen.pool = s.pool := by simp [State.abandonOpen]
@[simp] theorem abandonOpen_hm (s : State) : s.abandonOpen.hm = s.hm := by simp [State.abandonOpen]
@[simp] theorem abandonOpen_inReset (s : State) : s.abandonOpen.inReset = s.inReset := by simp [State.abandonOpen]

theorem abandonOpen_setHm (s : State) (h : Health) : (s.setHm h).abandonOpen = s.abandonOpen.setHm h := by
  cases hd : s.up.ctx.downOpen with
  | none => rw [abandonOpen_notOpen hd, abandonOpen_notOpen (s := s.setHm h) hd]
  | some k =>
    rw [abandonOpen_open hd, abandonOpen_open (s := s.setHm h) hd]
    rfl

@[simp] theorem abandonOpen_abandonOpen (s : State) : s.abandonOpen.abandonOpen = s.abandonOpen :=
  abandonOpen_notOpen (by simp)

/-- Asking for an end leaves every engine in its state. -/
@[simp] theorem requestEnd_engine_state (s : State) (k j : Seg) :
    ((s.requestEnd k).engine j).state = (s.engine j).state := by
  rw [State.requestEnd, engine_modEngine]
  split
  · rename_i h
    subst h
    split
    · split <;> rfl
    · rfl
  · rfl

@[simp] theorem abandonOpen_engine_state (s : State) (j : Seg) :
    (s.abandonOpen.engine j).state = (s.engine j).state := by
  cases hd : s.up.ctx.downOpen with
  | none => rw [abandonOpen_notOpen hd]
  | some k => simp [abandonOpen_open hd]

@[simp] theorem abandonOpen_poolSeg (s : State) (j : Seg) : s.abandonOpen.poolSeg j = s.poolSeg j :=
  poolSeg_of_pool (by simp) j

theorem abandonOpen_segInService (s : State) (j : Seg) : s.abandonOpen.segInService j = s.segInService j := by
  simp [State.segInService]

theorem abandonOpen_posts (s : State) (d : Dir) (r : Record) : s.abandonOpen.Posts d r ↔ s.Posts d r := by
  simp [State.Posts]

theorem abandonOpen_resolveRefused (s : State) : s.abandonOpen.resolveRefused = s.resolveRefused := by
  rw [State.resolveRefused, State.resolveRefused, abandonOpen_abandonOpen]

theorem abandonOpen_resolveStandIn (s : State) (a : Addr) (d : Dir) (i : Slot) (r : Record) :
    s.abandonOpen.resolveStandIn a d i r = s.resolveStandIn a d i r := by
  rw [State.resolveStandIn, State.resolveStandIn, abandonOpen_abandonOpen]

theorem abandonOpen_resolvePosted (s : State) (a : Addr) (d : Dir) (i : Slot) (r : Record) :
    s.abandonOpen.resolvePosted a d i r = s.resolvePosted a d i r := by
  rw [State.resolvePosted, State.resolvePosted, abandonOpen_abandonOpen]

/-- A carried address that continues nothing puts its request to the engine. -/
theorem resolveCarried_request {mode : UpMode} {slot : Option Slot} {target : Addr} {answer : Option Answer}
    (hc : s.continues k slot target = false) :
    s.resolveCarried mode a d k slot target answer =
      (s.abandonOpen.modEngine k fun e => { e with request := some ⟨slot, target, d⟩ }).setUp { s.up with
        ctx := freshContext .address mode a d slot (some k) answer s.up.startHold, out := .released } := by
  have h : (s.abandonOpen.modEngine k fun e => { e with request := some ⟨slot, target, d⟩ }).up =
      { s.up with ctx := { s.up.ctx with downOpen := none } } := by simp
  simp only [State.resolveCarried, hc, Bool.false_eq_true, if_false, h]

/-- An address that continues the open transaction is a repeated start of it (R40). -/
theorem resolveCarried_continued {mode : UpMode} {answer : Option Answer} (hx : s.Continuable k x)
    {target : Addr} (ht : x.slot.isSome = true ∨ x.target = target) :
    s.resolveCarried mode a d k x.slot target answer =
      (s.modEngine k fun e => { e with tx := some { x with dir := d, phase := .address, step := .address } }).setUp
        { s.up with
          ctx := { freshContext .address mode a d x.slot (some k) answer s.up.startHold with downOpen := some k }
          out := .released } := by
  have hc : s.continues k x.slot target = true := (continues_iff s k x.slot target).mpr ⟨x, hx, rfl, ht⟩
  obtain ⟨-, ⟨htx, -⟩, -⟩ := hx
  have hrep : s.repeatOnBus k d =
      s.modEngine k fun e => { e with tx := some { x with dir := d, phase := .address, step := .address } } :=
    modEngine_agree (by rw [htx]; rfl)
  simp only [State.resolveCarried, hc, if_true, hrep]

theorem abandonOpen_resolveCarried {mode : UpMode} {slot : Option Slot} {target : Addr} {answer : Option Answer}
    (hc : s.continues k slot target = false) :
    s.abandonOpen.resolveCarried mode a d k slot target answer = s.resolveCarried mode a d k slot target answer := by
  rw [resolveCarried_request hc, resolveCarried_request (continues_notOpen (by simp) k slot target),
    abandonOpen_abandonOpen, abandonOpen_up]
  rfl

theorem abandonOpen_resolveUnknown
    (hc : ∀ k, s.up.catchAll = some k → s.segInService k = true → s.continues k none a = false) :
    s.abandonOpen.resolveUnknown a d = s.resolveUnknown a d := by
  have hcatch : s.abandonOpen.up.catchAll = s.up.catchAll := by simp
  cases h : s.up.catchAll with
  | none => rw [resolveUnknown_off h, resolveUnknown_off (hcatch.trans h), abandonOpen_resolveRefused]
  | some k =>
    by_cases hk : s.segInService k = true
    · rw [resolveUnknown_catchAll h hk,
        resolveUnknown_catchAll (hcatch.trans h) ((abandonOpen_segInService s k).trans hk),
        abandonOpen_resolveCarried (hc k h hk)]
    · rw [resolveUnknown_outOfService h hk,
        resolveUnknown_outOfService (hcatch.trans h) (by rwa [abandonOpen_segInService]), abandonOpen_resolveRefused]

theorem abandonOpen_resolveRecord (hc : r.state = .bound → ¬s.Posts d r → s.segInService r.segment = true →
      s.continues r.segment (some i) r.target = false) :
    s.abandonOpen.resolveRecord a d i r = s.resolveRecord a d i r := by
  by_cases hp : s.Posts d r
  · rw [resolveRecord_posts hp, resolveRecord_posts ((abandonOpen_posts s d r).mpr hp), abandonOpen_resolvePosted]
  · have hp' := (abandonOpen_posts s d r).not.mpr hp
    by_cases hf : r.state = .bound ∧ s.segInService r.segment = true
    · obtain ⟨hb, hk⟩ := hf
      rw [resolveRecord_forward hb hp hk,
        resolveRecord_forward hb hp' ((abandonOpen_segInService s r.segment).trans hk),
        abandonOpen_resolveCarried (hc hb hp hk)]
    · have hst : r.state ≠ .bound ∨ ¬s.segInService r.segment = true := not_and_or.mp hf
      rw [resolveRecord_standIn (hst.imp_right fun h => ⟨hp, h⟩),
        resolveRecord_standIn (hst.imp_right fun h => ⟨hp', by rwa [abandonOpen_segInService]⟩),
        abandonOpen_resolveStandIn]

/-- What the address continues: the open transaction of its BOUND record, or the catch-all at the same address (R40). -/
def State.ContinuedBy (s : State) (a : Addr) (d : Dir) (k : Seg) (x : Tx) : Prop :=
  s.Continuable k x ∧ 0x08 ≤ a.toNat ∧ a.toNat ≤ 0x77 ∧ ((s.engine k).state ≠ .paused ∧ (s.engine k).state ≠ .failed) ∧
    ((∃ i r, x.slot = some i ∧ s.lookupAlias a = some i ∧ s.recAt i = some r ∧ r.state = .bound ∧ r.segment = k ∧
        ¬s.Posts d r) ∨
      (x.slot = none ∧ x.target = a ∧ s.lookupAlias a = none ∧ s.up.catchAll = some k))

/-- An address that continues nothing resolves as it does once the open transaction has been given up. -/
theorem abandonOpen_resolve (hi : s.IndexLaw) (hn : ∀ k x, ¬s.ContinuedBy a d k x) :
    s.abandonOpen.resolve a d = s.resolve a d := by
  have hm : s.abandonOpen.setHm s.abandonOpen.hm.notice = (s.setHm s.hm.notice).abandonOpen := by
    rw [abandonOpen_setHm, abandonOpen_hm]
  have hdir : s.abandonOpen.lookupAlias a = s.lookupAlias a := by simp [State.lookupAlias]
  by_cases hres : a.toNat < 0x08 ∨ 0x77 < a.toNat
  · rw [resolve_reserved hres, resolve_reserved hres, hm, abandonOpen_resolveRefused]
  · have hlo : 0x08 ≤ a.toNat := by omega
    have hhi : a.toNat ≤ 0x77 := by omega
    cases hl : s.lookupAlias a with
    | none =>
      rw [resolve_unknown hlo hhi hl, resolve_unknown hlo hhi (hdir.trans hl), hm]
      refine abandonOpen_resolveUnknown fun k hc hk => ?_
      rw [← Bool.not_eq_true, continues_iff]
      rintro ⟨x, hx, hs, ht⟩
      exact hn k x ⟨hx, hlo, hhi, (segInService_iff s k).mp hk, .inr ⟨hs, by simpa using ht, hl, hc⟩⟩
    | some i =>
      obtain ⟨r, hr, -⟩ := (hi a i).mp hl
      rw [resolve_record hlo hhi hl hr,
        resolve_record hlo hhi (hdir.trans hl) ((recAt_of_dir (abandonOpen_dir s) i).trans hr), hm]
      refine abandonOpen_resolveRecord fun hb hp hk => ?_
      rw [← Bool.not_eq_true, continues_iff]
      rintro ⟨x, hx, hs, -⟩
      exact hn r.segment x ⟨hx, hlo, hhi, (segInService_iff s r.segment).mp hk, .inl ⟨i, r, hs, hl, hr, hb, rfl, hp⟩⟩

/-! ### The answers with nothing open downstream (R30, R32, R35) -/

theorem resolveRefused_notOpen (hd : s.up.ctx.downOpen = none) :
    s.resolveRefused = s.setUp { s.up with ctx := .unaddressed none, out := ⟨some false, none⟩ } := by
  rw [State.resolveRefused, abandonOpen_notOpen hd, State.upNak, hd]

theorem resolvePosted_notOpen (hd : s.up.ctx.downOpen = none) :
    s.resolvePosted a d i r = (s.setPool { s.pool with reservation := some r.segment }).setUp { s.up with
      ctx := freshContext .write .posted a d (some i) (some r.segment) (some ⟨r.policy, r.fill⟩) none
      out := ⟨some true, none⟩ } := by
  rw [State.resolvePosted, abandonOpen_notOpen hd]

theorem resolveStandIn_refuse (hd : s.up.ctx.downOpen = none) (hp : r.policy = .refuse) :
    s.resolveStandIn a d i r = s.setUp { s.up with ctx := .unaddressed none, out := ⟨some false, none⟩ } := by
  rw [State.resolveStandIn, abandonOpen_notOpen hd, hp]
  rfl

theorem resolveStandIn_fill (hd : s.up.ctx.downOpen = none) (hp : r.policy = .fill) :
    s.resolveStandIn a d i r = s.setUp { s.up with
      ctx := freshContext (phaseOf d) .standIn a d (some i) none (some ⟨.fill, r.fill⟩) none
      out := ⟨some true, if d = .read then some r.fill else none⟩ } := by
  rw [State.resolveStandIn, abandonOpen_notOpen hd, hp]
  rfl

/-- Settles O37: an address acts by what it finds; one that continues nothing acts as if UP had nothing open. -/
theorem addressIsResolvedByRecord : Obligations.AddressIsResolvedByRecord := by
  unfold Obligations.AddressIsResolvedByRecord
  intro a d low s hr heard ctx held refused answers serves posts repeats continuable continues
  have hheard : s.setHm s.hm.notice = heard := by rw [notice_eq]; rfl
  have hserves : ∀ k, heard.segInService k = true ↔ serves k := fun k => segInService_iff s k
  have resolves : s.up.ctx.phase = .unaddressed → ∀ m, s.resolve a d = m → answers m :=
    fun hp m e => e ▸ exec_addressEvent_unaddressed s hr hp a d low
  refine ⟨fun hp => ?_, fun hp hi hn => ?_, abandonOpen_notOpen, fun k x hd hx hf => ?_, fun hp hd => ⟨?_, ?_, ?_⟩, ?_⟩
  · rw [exec_addressEvent_addressed s hr hp, exec_repeatedStart_some s hr]
  · rw [exec_addressEvent_unaddressed s hr hp,
      exec_addressEvent_unaddressed s.abandonOpen (by simp [hr]) (by simp [hp]), abandonOpen_resolve hi hn]
  · intro step left
    have hstep : step = x.step.closing := by cases hs : x.step <;> simp only [step, hs] <;> rfl
    refine ⟨fun hc => ?_, fun hc => ?_⟩
    · rw [abandonOpen_open hd, requestEnd_open hx hf hc, hstep]
      rfl
    · rw [abandonOpen_open hd, requestEnd_closing hx hc]
      rfl
  · intro hres
    refine resolves hp _ ?_
    rw [resolve_reserved hres, hheard, resolveRefused_notOpen (s := heard) hd]
    rfl
  · intro hlo hhi hl
    refine ⟨fun hc => resolves hp _ ?_, fun k hc => ⟨fun hk => resolves hp _ ?_, fun hk => resolves hp _ ?_⟩⟩
    · rw [resolve_unknown hlo hhi hl, hheard, resolveUnknown_off (s := heard) hc,
        resolveRefused_notOpen (s := heard) hd]
      rfl
    · rw [resolve_unknown hlo hhi hl, hheard, resolveUnknown_outOfService (s := heard) hc ((hserves k).not.mpr hk),
        resolveRefused_notOpen (s := heard) hd]
      rfl
    · rw [resolve_unknown hlo hhi hl, hheard, resolveUnknown_catchAll (s := heard) hc ((hserves k).mpr hk),
        resolveCarried_request (continues_notOpen (s := heard) hd _ _ _), abandonOpen_notOpen (s := heard) hd]
      rfl
  · intro i r hlo hhi hl hr'
    have hres := resolve_record (d := d) hlo hhi hl hr'
    rw [hheard] at hres
    refine ⟨fun h => resolves hp _ ?_, fun hb hn hk => resolves hp _ ?_, fun h => ?_⟩
    · rw [hres, resolveRecord_posts (s := heard) h, resolvePosted_notOpen (s := heard) hd]
      rfl
    · rw [hres, resolveRecord_forward (s := heard) hb hn ((hserves _).mpr hk), resolveCarried_request
        (continues_notOpen (s := heard) hd _ _ _), abandonOpen_notOpen (s := heard) hd]
      rfl
    · rw [resolveRecord_standIn (s := heard) (h.imp_right fun ⟨hn, hk⟩ => ⟨hn, (hserves _).not.mpr hk⟩)] at hres
      refine ⟨fun hpol => resolves hp _ ?_, fun hpol => resolves hp _ ?_⟩
      · rw [hres, resolveStandIn_refuse (s := heard) hd hpol]
        rfl
      · rw [hres, resolveStandIn_fill (s := heard) hd hpol]
        cases d <;> rfl
  · intro hp k x hx hlo hhi hk
    refine ⟨fun i r hs hl hr' hb hseg hn => resolves hp _ ?_, fun hs ht hl hc => resolves hp _ ?_⟩
    · subst hseg
      rw [resolve_record hlo hhi hl hr', hheard, resolveRecord_forward (s := heard) hb hn ((hserves _).mpr hk), ← hs,
        resolveCarried_continued (s := heard) hx (.inl (by simp [hs]))]
      rfl
    · rw [resolve_unknown hlo hhi hl, hheard, resolveUnknown_catchAll (s := heard) hc ((hserves _).mpr hk), ← hs,
        resolveCarried_continued (s := heard) hx (.inr ht)]
      rfl

end Sys2Proof.Machine
end

section
namespace Sys2Proof.Machine

variable {s : State}

/-! ### PAUSE and RESUME by the state of their engine (R73, R74, R146) -/

/-- The segment a segment byte names (R183). -/
theorem segOf_seg {b : Byte} {k : Seg} (h : b.toNat = k.val) : segOf b = some k := by
  have hlt : b.toNat < 4 := h ▸ k.isLt
  rw [segOf, dif_pos hlt]
  exact congrArg some (Fin.ext h)

theorem segOf_outOfRange {b : Byte} (h : 4 ≤ b.toNat) : segOf b = none := by
  rw [segOf, dif_neg (by omega)]

theorem exec_pause {tag b : Byte} {rest : List Command} (hq : s.queues .pause tag [b] rest) :
    exec .pause s = .next ((s.taken rest).runPause ⟨.pause, tag, [b]⟩) :=
  congrArg _ (taking_of_queues s hq _)

theorem exec_resume {tag b : Byte} {rest : List Command} (hq : s.queues .resume tag [b] rest) (low : LowLines) :
    exec (.resume low) s = .next ((s.taken rest).runResume low ⟨.resume, tag, [b]⟩) :=
  congrArg _ (taking_of_queues s hq _)

section
variable (c : Command) {b : Byte} {k : Seg}

theorem runPause_badField (hc : c.args = [b]) (h : 4 ≤ b.toNat) : s.runPause c = s.answer c .badField := by
  simp only [State.runPause, hc, decodeSeg, segOf_outOfRange h]

theorem runPause_busy (hc : c.args = [b]) (h : b.toNat = k.val) (hw : s.waitsPause k = true ∨ s.waitsResume k = true) :
    s.runPause c = s.answer c .busy := by
  simp only [State.runPause, hc, decodeSeg, segOf_seg h, Bool.or_eq_true, hw, if_true]

theorem runPause_presented (hc : c.args = [b]) (h : b.toNat = k.val) (hp : s.waitsPause k = false)
    (hr : s.waitsResume k = false) : s.runPause c = s.presentPause c k := by
  simp only [State.runPause, hc, decodeSeg, segOf_seg h, hp, hr, Bool.or_self, Bool.false_eq_true, if_false]

theorem runResume_badField (low : LowLines) (hc : c.args = [b]) (h : 4 ≤ b.toNat) :
    s.runResume low c = s.answer c .badField := by
  simp only [State.runResume, hc, decodeSeg, segOf_outOfRange h]

theorem runResume_busy (low : LowLines) (hc : c.args = [b]) (h : b.toNat = k.val) (hw : s.waitsResume k = true) :
    s.runResume low c = s.answer c .busy := by
  simp only [State.runResume, hc, decodeSeg, segOf_seg h, hw, if_true]

theorem runResume_presented (low : LowLines) (hc : c.args = [b]) (h : b.toNat = k.val) (hw : s.waitsResume k = false) :
    s.runResume low c = s.presentResume low c k := by
  simp only [State.runResume, hc, decodeSeg, segOf_seg h, hw, Bool.false_eq_true, if_false]

end

/-- An engine that enters PAUSED, and every other engine (R73). -/
theorem enterPaused_engine (s : State) (k j : Seg) : (s.enterPaused k).engine j =
    if j = k then { s.engine k with
      state := .paused, pausePending := false, tx := none, stall := none, attempt := none, request := none }
    else s.engine j := by
  unfold State.enterPaused
  simp only [withdraw_engine, State.answerPause, engine_settleOps, engine_modEngine_self]
  split
  · rfl
  · rename_i h; exact engine_modEngine_other s h _

/-- The request that waits at an engine that enters PAUSED is withdrawn (R42). -/
theorem enterPaused_requestAfter (s : State) (k : Seg) :
    RequestAfter s s.up (s.enterPaused k) k (fun _ => True) False := by
  have w := withdraw_request ((s.modEngine k fun e =>
    { e with state := .paused, pausePending := false, tx := none, stall := none, attempt := none }).answerPause k .done)
    k .standIn
  rw [show (Withdrawal.standIn = .nak) = False by simp] at w
  exact w.ofSame (by simp [State.answerPause])

theorem enterPaused_answers (s : State) (k : Seg) :
    Answered s (s.enterPaused k) (fun w => w = .pause k) fun op => ⟨.pause, op.tag, .done, []⟩ :=
  (settleOps_answers s _ _ _ fun _ hw => if_pos hw).kept (.of_dc (enterPaused_dc s k) _)

/-- Settles O31: the command is refused, or the engine takes it by its state. -/
theorem pauseByEngineState : Obligations.PauseByEngineState := by
  unfold Obligations.PauseByEngineState
  intro s tag b rest hq answered
  have run := exec_pause hq
  refine ⟨fun h => by rw [run, runPause_badField _ rfl h]; rfl, fun k hk => ⟨fun hw => ?_, fun hp hr => ?_⟩⟩
  · rw [run, runPause_busy (s := s.taken rest) _ rfl hk hw]
    rfl
  · rw [runPause_presented (s := s.taken rest) _ rfl hk hp hr] at run
    unfold State.presentPause at run
    rw [taken_engine] at run
    refine ⟨fun h => by rw [run, h]; rfl, fun h => by rw [run, h]; rfl, ?_, fun h => ?_⟩
    · rintro (h | h) <;> (rw [run, h]; rfl)
    · rw [h] at run
      have engine := enterPaused_engine (s.taken rest) k
      have request := enterPaused_requestAfter (s.taken rest) k
      obtain ⟨-, mp, -, -, -, -, dir, pool, -⟩ := enterPaused_frame (s.taken rest) k
      generalize (s.taken rest).enterPaused k = u at *
      refine ⟨_, run, ?_, (request.ofSame (s := s) rfl).andSame ?_ (concludeWith_frame _ _).1, ?_, ?_,
        (concludeWith_frame _ _).2.2.2.1.trans pool, (concludeWith_frame _ _).2.1.trans dir, fun j hj => ?_,
        answerDone_last _ _ _, congrArg Port.commands mp⟩
      · rw [answerDone_engine, engine, if_pos rfl]
      · rw [answerDone_engine]
      · rw [answerDone_engine, engine, if_pos rfl]
        rfl
      · rw [answerDone_engine, engine, if_pos rfl]
        rfl
      · rw [answerDone_engine, engine, if_neg hj]
        rfl

/-- When no operation holds an answer before, the answers given are those of `f`, in the order of taking (R132). -/
theorem settleOps_responses (f : LongOp → Option Response) (h : s.NoAnswerHeld) :
    ((s.settleOps f).dc.ops.filterMap fun o => o.answer) = s.dc.ops.filterMap f := by
  unfold State.settleOps
  rw [setDc_dc, List.filterMap_map]
  refine List.filterMap_congr fun o ho => ?_
  simp only [Function.comp_apply, h o ho]

theorem answerPause_responses (k : Seg) (code : ResultCode) (h : s.NoAnswerHeld) :
    ((s.answerPause k code).dc.ops.filterMap fun o => o.answer) =
      (s.dc.ops.filter fun o => o.work == .pause k).map fun o => ⟨.pause, o.tag, code, []⟩ := by
  refine (settleOps_responses _ h).trans ?_
  rw [← List.filterMap_eq_map, List.filterMap_filter]
  refine List.filterMap_congr fun o _ => ?_
  simp only [beq_iff_eq, Function.comp_apply]
  rfl

/-- Settles O32: the command is refused, or the engine takes it by its state. -/
theorem resumeByEngineState : Obligations.ResumeByEngineState := by
  unfold Obligations.ResumeByEngineState
  intro s low tag b rest hq
  have run := exec_resume hq low
  refine ⟨fun h => by rw [run, runResume_badField _ low rfl h]; rfl, fun k hk => ⟨fun hw => ?_, fun hw => ?_⟩⟩
  · rw [run, runResume_busy (s := s.taken rest) _ low rfl hk hw]
    rfl
  · rw [runResume_presented (s := s.taken rest) _ low rfl hk hw] at run
    unfold State.presentResume at run
    rw [taken_engine] at run
    refine ⟨fun h => by rw [run, h]; rfl, fun h => by rw [run, h]; rfl, fun h => ?_, fun h => ?_⟩
    · have run' : exec (.resume low) s = .next ((((s.taken rest).modEngine k fun e => { e with
          pausePending := false }).answerPause k .cancelled).answerDone ⟨.resume, tag, [b]⟩ []) := by
        rcases h with h | h <;> rw [run, h]
      refine ⟨_, run', fun j => ?_, fun hn => ?_, (concludeWith_frame _ _).2.1, (concludeWith_frame _ _).2.2.2.1, rfl⟩
      · rw [answerDone_engine]
        exact engine_modEngine (s.taken rest) k j fun e => { e with pausePending := false }
      · have given := answerPause_responses (s := s) k .cancelled hn
        exact congrArg (s.mp.responses ++ · ++ [_]) given
    · rw [h] at run
      refine ⟨_, run, ?_, fun j hj => ?_, addOp_conclude_last _ _, (addOp_conclude_frame _ _).2.1,
        (addOp_conclude_frame _ _).2.2.2, rfl⟩
      · rw [engine_of_eng (addOp_conclude_frame _ _).2.2.1, State.enterRecovering, engine_modEngine_self,
          engine_modEngine_self]
        rfl
      · rw [engine_of_eng (addOp_conclude_frame _ _).2.2.1, State.enterRecovering, engine_modEngine_other _ hj,
          engine_modEngine_other _ hj]
        rfl

end Sys2Proof.Machine
end

section
namespace Sys2Proof.Machine

variable {s : State}

/-! ### A record changed in place, and charged (R18, R19, R106) -/

/-- The record of slot `i` has become `p` with no effect but on the changed-slot set. -/
structure InPlace (s m : State) (i : Slot) (p : Record) : Prop where
  here : m.recAt i = some p
  others : OtherRecords s m i
  index : m.dir.aliasIndex = s.dir.aliasIndex
  up : m.up = s.up
  eng : m.eng = s.eng
  pool : m.pool = s.pool
  dc : m.dc = s.dc
  rest : KeepsRest s m

theorem InPlace.put (s : State) (i : Slot) (p : Record) : InPlace s (s.putRec i (some p)) i p where
  here := recAt_putRec_self s i _
  others _ hj := recAt_putRec_other s (Ne.symm hj) _
  index := rfl
  up := rfl
  eng := rfl
  pool := rfl
  dc := rfl
  rest := putRec_keepsRest s i _

theorem InPlace.trans {m n : State} {i : Slot} {p q : Record} (h : InPlace s m i p) (g : InPlace m n i q) :
    InPlace s n i q where
  here := g.here
  others := h.others.trans g.others
  index := g.index.trans h.index
  up := g.up.trans h.up
  eng := g.eng.trans h.eng
  pool := g.pool.trans h.pool
  dc := g.dc.trans h.dc
  rest := h.rest.trans g.rest

theorem InPlace.moved {m : State} {i : Slot} {r p : Record} (h : InPlace s m i p) (hs : p.state = r.state) :
    Moved s m i r p where
  here := h.here
  others := h.others
  index := h.index
  engines j := by rw [engine_of_eng h.eng]; split <;> rfl
  request := .of_same (by rw [engine_of_eng h.eng]) h.up fun _ _ hl => hl.2.2 (hs.trans hl.2.1)
  stays _ := h.pool
  purged hb hn := absurd (hs.trans hb) hn
  queues _ _ := poolSeg_of_pool h.pool _
  dc := h.dc
  rest := h.rest
  changed hn := absurd hs hn

/-- A change of state made after a change in place. -/
theorem Moved.afterInPlace {m n : State} {i : Slot} {r p q : Record} (h : InPlace s m i p) (hs : p.state = r.state)
    (hk : p.segment = r.segment) (g : Moved m n i p q) : Moved s n i r q where
  here := g.here
  others := h.others.trans g.others
  index := g.index.trans h.index
  engines j := by have e := g.engines j; rwa [engine_of_eng h.eng, hk] at e
  request := by
    have after := (g.request.ofSame (s := s) (by rw [engine_of_eng h.eng])).congr (goes' := LeavesFor i r q) fun _ _ => by
      unfold LeavesFor; rw [hs]
    rwa [hk, h.up] at after
  stays hn := (g.stays (hs ▸ hn)).trans h.pool
  purged hb hn hret := by
    have purge := g.purged (hs.trans hb) hn hret
    have tx : (m.engine p.segment).tx = (s.engine p.segment).tx := by rw [engine_of_eng h.eng]
    have pool := poolSeg_of_pool h.pool p.segment
    unfold PurgedOf at purge ⊢
    rwa [waitingEntries_of tx (congrArg PoolSeg.queue pool), busEntries_of tx (congrArg PoolSeg.queue pool), pool, hk]
      at purge
  queues j hj := (g.queues j (hk ▸ hj)).trans (poolSeg_of_pool h.pool j)
  dc := g.dc.trans h.dc
  rest := h.rest.trans g.rest
  changed hn := g.changed (hs ▸ hn)

/-- The claims passed on leaving BOUND are those of the state before a change in place. -/
theorem InPlace.lostOnMove {m : State} {i : Slot} {r p : Record} (h : InPlace s m i p) (hs : p.state = r.state)
    (hk : p.segment = r.segment) (q : Record) : m.lostOnMove i p q = s.lostOnMove i r q := by
  have purged : m.purged r.segment i = s.purged r.segment i :=
    purged_of (by rw [engine_of_eng h.eng]) (by rw [poolSeg_of_pool h.pool]) i
  unfold State.lostOnMove
  rw [hs, hk, purged]

theorem clearMarker_inPlace {i : Slot} {r : Record} (hr : s.recAt i = some r) :
    InPlace s (s.clearMarker i) i { r with marker := .none } := by
  have e : s.clearMarker i = s.putRec i (some { r with marker := .none }) := by
    unfold State.clearMarker State.modRec
    rw [hr]
  rw [e]
  exact .put s i _

/-- One undelivered claim, which adds the slot to the changed-slot set when the count rises (R7, R19). -/
theorem undeliveredClaim_inPlace {i : Slot} {r : Record} (hr : s.recAt i = some r) :
    InPlace s (s.undeliveredClaim i) i r.oneLost := by
  by_cases h : r.undelivered < 255
  · have e : r.oneLost = { r with undelivered := r.undelivered + 1 } := by simp [Record.oneLost, h]
    rw [undeliveredClaim_counted hr h, e]
    have put := InPlace.put s i { r with undelivered := r.undelivered + 1 }
    exact { put with rest := put.rest.trans (markChanged_keepsRest _ i) }
  · have e : r.oneLost = r := by simp [Record.oneLost, h]
    rw [undeliveredClaim_saturated hr (by omega), e]
    exact ⟨hr, fun _ _ => rfl, rfl, rfl, rfl, rfl, rfl, .refl s⟩

/-- A charge changes the state of a BOUND record alone, to QUARANTINED (R18, R106). -/
theorem Record.charged_kept (n : Nat) (r : Record) :
    (r.charged n).aliasAddr = r.aliasAddr ∧ (r.charged n).segment = r.segment ∧
    ((r.charged n).state = r.state ∨ (r.state = .bound ∧ (r.charged n).state = .quarantined)) := by
  unfold Record.charged
  split
  · split
    · exact ⟨rfl, rfl, .inr ⟨‹_›, rfl⟩⟩
    · exact ⟨rfl, rfl, .inl rfl⟩
  · exact ⟨rfl, rfl, .inl rfl⟩

theorem charge_moved {i : Slot} {r : Record} (hr : s.recAt i = some r) :
    Moved s (s.charge i) i r { r.charged s.hm.holdOff with undelivered := s.lostOnMove i r (r.charged s.hm.holdOff) } := by
  by_cases hb : r.state = .bound
  · by_cases hc : r.threshold ≤ r.errorCount + 1
    · have e : r.charged s.hm.holdOff =
          { r with errorCount := r.errorCount + 1 }.toQuarantined .errors s.hm.holdOff := by
        simp [Record.charged, Record.toQuarantined, hb, hc]
      rw [charge_at s i r hr hb hc, e]
      exact (moveRec_lost i _ r hr (by simp [Record.toQuarantined])).1
    · have e : r.charged s.hm.holdOff = { r with errorCount := r.errorCount + 1 } := by simp [Record.charged, hb, hc]
      have same : s.lostOnMove i r { r with errorCount := r.errorCount + 1 } = r.undelivered :=
        State.lostOnMove_of_not fun c => c.2 hb
      rw [charge_below s i r hr hb (by omega), e, same]
      exact (InPlace.put s i _).moved rfl
  · have e : r.charged s.hm.holdOff = r := by simp [Record.charged, hb]
    rw [charge_not_bound s i fun q hq => by cases hr.symm.trans hq; exact hb, e, State.lostOnMove_of_not fun c => hb c.1]
    exact .refl hr

/-- The record of slot `i` when a transaction of it has ended, with a charge or without one. -/
def Record.ended (charged : Bool) (holdOff : Nat) (r : Record) : Record :=
  if charged then { r with marker := .none }.charged holdOff else { r with marker := .none }

theorem Record.ended_kept (c : Bool) (n : Nat) (r : Record) : (r.ended c n).aliasAddr = r.aliasAddr ∧
    ((r.ended c n).state = r.state ∨ (r.state = .bound ∧ (r.ended c n).state = .quarantined)) := by
  cases c with
  | false => exact ⟨rfl, .inl rfl⟩
  | true => exact ⟨(Record.charged_kept n _).1, (Record.charged_kept n { r with marker := .none }).2.2⟩

/-- A charge taken after a change in place. -/
theorem InPlace.charge {m : State} {i : Slot} {r p : Record} (h : InPlace s m i p) (hs : p.state = r.state)
    (hk : p.segment = r.segment) : Moved s (m.charge i) i r
      { p.charged s.hm.holdOff with undelivered := s.lostOnMove i r (p.charged s.hm.holdOff) } := by
  have charged := charge_moved h.here
  rw [h.rest.hm, h.lostOnMove hs hk] at charged
  exact .afterInPlace h hs hk charged

/-! ### A transaction's outcome applied to its record -/

/-- In `u` the end of a transaction of slot `i` on segment `k`, on the bus in `s`, has made the record `r` the record `q`;
what follows the end (R24, R26) is still to come. -/
structure OutcomeApplied (s u : State) (k : Seg) (i : Slot) (r q : Record) : Prop where
  here : u.recAt i = some { q with undelivered := s.lostOnMove i r q }
  sameAlias : q.aliasAddr = r.aliasAddr
  others : OtherRecords s u i
  index : u.dir.aliasIndex = s.dir.aliasIndex
  rest : KeepsRest s u
  engines : ∀ j, j ≠ k → u.engine j = s.engine j
  queues : ∀ j, j ≠ k → u.poolSeg j = s.poolSeg j
  changed : q.state ≠ r.state → u.au.changed[i.val] = true
  ops : OpsKept s u fun op => op.answer = none ∧ op.work ≠ .probe i true
  request : RequestAfter s s.up u k (LeavesFor i r q) False
  unasked : s.RequestLaw → q.state ≠ .bound → u.Unasked i

theorem OutcomeApplied.of_moved {u : State} {i : Slot} {r q : Record}
    (h : Moved s u i r { q with undelivered := s.lostOnMove i r q }) (hr : s.recAt i = some r)
    (ha : q.aliasAddr = r.aliasAddr) : OutcomeApplied s u r.segment i r q where
  here := h.here
  sameAlias := ha
  others := h.others
  index := h.index
  rest := h.rest
  engines _ := h.elsewhere
  queues := h.queues
  changed := h.changed
  ops := .of_dc h.dc _
  request := h.request
  unasked := h.unasked hr

/-- The bus of engine `k` is freed once what follows the end has been done: only that engine, UP and answers change. -/
structure BusFreed (m n : State) (k : Seg) : Prop where
  ends : KeepsEnd m n
  rest : KeepsRest m n
  engines : ∀ j, j ≠ k → n.engine j = m.engine j

theorem releaseBus_freed (s : State) (k : Seg) : BusFreed s (s.releaseBus k) k where
  ends := releaseBus_keepsEnd s k
  rest := releaseBus_keepsRest s k
  engines j hj := by rw [releaseBus_engine, if_neg hj]

theorem enterRecovering_freed (s : State) (k : Seg) : BusFreed s (s.enterRecovering k) k where
  ends := by
    refine ⟨by simp, by simp, fun _ h => h, fun j => ?_, .of_dc (by simp) _⟩
    rw [State.enterRecovering, engine_modEngine]
    split
    · rename_i e; rw [e]; rfl
    · rfl
  rest := modEngine_keepsRest s k _
  engines j hj := engine_modEngine_other s hj _

section
variable {u n : State} {k : Seg} {i : Slot} {r q : Record}

theorem OutcomeApplied.leftBehind (h : OutcomeApplied s u k i r q) (f : BusFreed (u.afterEnd i) n k) :
    LeftBehind s n i r q := by
  refine (afterEnd_leftBehind h.here h.sameAlias h.index h.rest.pu h.changed (h.ops.imp fun op g => ⟨g.1, ?_⟩)).kept f.ends
  rcases g.2 with ⟨m, hw⟩ | hw <;> simp [hw]

theorem OutcomeApplied.endFrame (h : OutcomeApplied s u k i r q) (f : BusFreed (u.afterEnd i) n k) :
    EndFrame s n k i := by
  have rest := (h.rest.trans (afterEnd_keepsRest u i)).trans f.rest
  have pool : (u.afterEnd i).pool = u.pool := by simp
  have at_ := recAt_of_dir f.ends.dir
  refine ⟨fun j hj => ?_, fun j hj => ?_, rest.share k, rest.reservation, fun g => ?_, fun g j hj => ?_, rest.holdLimit,
    rest.catchAll, rest.stallLimit, rest.hm, rest.mp, rest.pu, rest.lines, rest.faults, rest.inReset, rest.pending⟩
  · rw [at_, afterEnd_recAt_other _ (Ne.symm hj), h.others j hj]
  · rw [poolSeg_of_pool f.ends.pool, poolSeg_of_pool pool, h.queues j hj]
  · rw [at_] at g
    rw [f.ends.dir, (afterEnd_keeps u i _ h.here g).2.2, h.index]
  · rw [at_] at g
    rw [f.engines j hj, engine_of_eng (afterEnd_keeps u i _ h.here g).2.1, h.engines j hj]

/-- The request that waits at the engine has gone with the record's leaving BOUND or waits on, once the end is over. -/
theorem OutcomeApplied.requestLeft (h : OutcomeApplied s u k i r q) (law : s.RequestLaw) :
    RequestAfter s s.up (u.afterEnd i) k (LeavesFor i r q) False := by
  obtain ⟨up, requests⟩ := afterEnd_unasked h.here (h.unasked law)
  exact h.request.andSame (requests k) up

theorem RequestAfter.released {m : State} {goes : FwdRequest → Prop} (h : RequestAfter s s.up m k goes False)
    (pause : (m.engine k).pausePending = (s.engine k).pausePending) :
    RequestAfter s s.up (m.releaseBus k) k (fun w => (s.engine k).pausePending = true ∨ goes w) False := by
  have after := h.trans (releaseBus_requestAfter m k)
  rw [pause] at after
  exact after.congr fun _ _ => or_comm

theorem RequestAfter.recovering {m : State} {v : UpPort} {goes : FwdRequest → Prop} (h : RequestAfter s v m k goes False) :
    RequestAfter s v (m.enterRecovering k) k goes False :=
  h.andSame (by rw [State.enterRecovering, engine_modEngine_self]; rfl) rfl

end

/-! ### What the end of a transaction leaves of its engine (R58, R69) -/

/-- The rate and the flags of engine `k` are as they were, and its PAUSE waits on. -/
structure KeepsFlags (s m : State) (k : Seg) : Prop where
  rate : (m.engine k).rate = (s.engine k).rate
  resume : (m.engine k).resumeWaiting = (s.engine k).resumeWaiting
  pause : (m.engine k).pausePending = (s.engine k).pausePending
  pauses : OpsKept s m fun op => op.work = .pause k ∧ op.answer = none

section
variable {m n : State} {k : Seg}

theorem KeepsFlags.refl (s : State) (k : Seg) : KeepsFlags s s k := ⟨rfl, rfl, rfl, .of_dc rfl _⟩

theorem KeepsFlags.trans (h : KeepsFlags s m k) (g : KeepsFlags m n k) : KeepsFlags s n k :=
  ⟨g.rate.trans h.rate, g.resume.trans h.resume, g.pause.trans h.pause, h.pauses.trans g.pauses⟩

theorem KeepsFlags.of_blocks (eng : m.eng = s.eng) (dc : m.dc = s.dc) : KeepsFlags s m k := by
  refine ⟨?_, ?_, ?_, .of_dc dc _⟩ <;> rw [engine_of_eng eng]

theorem Moved.keepsFlags {i : Slot} {r q : Record} (h : Moved s m i r q) (k : Seg) : KeepsFlags s m k :=
  have ⟨rate, resume, pause⟩ := h.flags k
  ⟨rate, resume, pause, .of_dc h.dc _⟩

theorem afterEnd_keepsFlags (s : State) (i : Slot) (k : Seg) : KeepsFlags s (s.afterEnd i) k := by
  cases hr : s.recAt i with
  | none =>
    have e : s.afterEnd i = s := afterEnd_none s i fun r c => by rw [hr] at c; cases c
    rw [e]
    exact .refl s k
  | some r =>
    obtain ⟨rate, resume, pause⟩ := afterEnd_engine s i r hr k
    refine ⟨rate, resume, pause, (afterEnd_kept s i r hr).imp fun op h => .inr ⟨fun n => ?_, fun b => ?_⟩⟩ <;> simp [h.1]

theorem KeepsFlags.released (h : KeepsFlags s m k) : Released s (m.releaseBus k) k :=
  releaseBus_released k ⟨h.rate, h.resume, h.pause⟩ h.pauses

theorem KeepsFlags.recovers (h : KeepsFlags s m k) : Recovers s (m.enterRecovering k) k := by
  have e : (m.enterRecovering k).engine k = (m.engine k).toRecovering := engine_modEngine_self m k _
  unfold Recovers
  rw [e]
  exact ⟨rfl, rfl, rfl, rfl, rfl, h.pause, h.resume, h.rate, h.rate⟩

end

/-! ### The end of a forward (R18, R39, R63) -/

/-- UP once the transaction on segment `k` has ended (R39, R46). -/
def UpPort.closed (v : UpPort) (k : Seg) : UpPort :=
  { v with ctx := { v.ctx with downOpen := if v.ctx.downOpen = some k then none else v.ctx.downOpen } }

theorem closeDownstream_eq (s : State) (k : Seg) : s.closeDownstream k = s.setUp (s.up.closed k) := by
  unfold State.closeDownstream UpPort.closed
  by_cases h : s.up.ctx.downOpen = some k
  · rw [if_pos h, if_pos h]
    rfl
  · rw [if_neg h, if_neg h]
    rfl

/-- A forward of a record that has ended: its marker is none, and a charge is taken with the effects of R11. -/
theorem forwardOver_moved {i : Slot} {r : Record} (hr : s.recAt i = some r) (c : Bool) :
    ∃ u, Moved s u i r { r.ended c s.hm.holdOff with undelivered := s.lostOnMove i r (r.ended c s.hm.holdOff) } ∧
      s.forwardOver (some i) c = u.afterEnd i := by
  have cleared := clearMarker_inPlace hr
  cases c with
  | false =>
    refine ⟨s.clearMarker i, ?_, rfl⟩
    have same : s.lostOnMove i r (r.ended false s.hm.holdOff) = r.undelivered :=
      State.lostOnMove_of_not fun c => c.2 c.1
    rw [same]
    exact cleared.moved rfl
  | true => exact ⟨(s.clearMarker i).charge i, cleared.charge rfl rfl, rfl⟩

/-- A slot that is FREE, and a catch-all, have nothing to end. -/
theorem forwardOver_free {slot : Option Slot} (h : ∀ i, slot = some i → s.recAt i = none) (c : Bool) :
    s.forwardOver slot c = s := by
  unfold State.forwardOver
  cases slot with
  | none => rfl
  | some i =>
    have free := h i rfl
    have cleared : s.clearMarker i = s := by
      unfold State.clearMarker State.modRec
      rw [free]
    have charged : s.charge i = s := charge_not_bound s i fun r hr => by rw [free] at hr; cases hr
    have ended : s.afterEnd i = s := afterEnd_none s i fun r hr => by rw [free] at hr; cases hr
    dsimp only
    rw [cleared, charged, ite_self, ended]

theorem forwardOver_keepsFlags (s : State) (slot : Option Slot) (c : Bool) (k : Seg) :
    KeepsFlags s (s.forwardOver slot c) k := by
  by_cases h : ∀ i, slot = some i → s.recAt i = none
  · rw [forwardOver_free h]
    exact .refl s k
  · push Not at h
    obtain ⟨i, rfl, hi⟩ := h
    obtain ⟨r, hr⟩ := Option.ne_none_iff_exists'.mp hi
    obtain ⟨u, mv, e⟩ := forwardOver_moved hr c
    rw [e]
    exact (mv.keepsFlags k).trans (afterEnd_keepsFlags u i k)

/-- The segment's queue after the end of a forward: untouched, or without the entries of a record that left BOUND. -/
theorem forwardOver_pool {i : Slot} {r : Record} (hr : s.recAt i = some r) (c : Bool) {n : State}
    (pool : n.pool = (s.forwardOver (some i) c).pool) :
    ((r.ended c s.hm.holdOff).state = r.state → n.pool = s.pool) ∧
    ((r.ended c s.hm.holdOff).state ≠ r.state → PurgedOf s n r.segment i) := by
  obtain ⟨u, mv, e⟩ := forwardOver_moved hr c
  have same : n.pool = u.pool := by rw [pool, e]; simp
  obtain ⟨-, stays | ⟨hb, hq⟩⟩ := r.ended_kept c s.hm.holdOff
  · exact ⟨fun _ => same.trans (mv.stays fun g => g.2.1 (stays.trans g.1)), fun g => absurd stays g⟩
  · refine ⟨fun g => ?_, fun _ => ?_⟩
    · rw [hq, hb] at g
      cases g
    · have purge := mv.purged hb (by simp [hq]) (by simp [hq])
      unfold PurgedOf at purge ⊢
      rwa [poolSeg_of_pool same]

theorem exec_forwardEnd (k : Seg) (low : LowLines) {x : Tx} (hr : s.inReset = false) (hx : s.onBus k x)
    (hf : x.isForward = true) (hp : x.phase = .closing) (hs : x.step = .stop) :
    exec (.forwardEnd k low) s = .next (((((s.setUp (s.up.closed k)).forwardOver x.slot
      (decide (x.reason = some .addressNak))).releaseBus k)).settle low) := by
  change execForwardEnd k low s = _
  rw [execForwardEnd, live_running s hr, ← closeDownstream_eq]
  unfold State.endForward
  rw [hx.1]
  exact congrArg _ (if_pos ⟨hf, hp, hs, hx.2⟩)

/-- Settles O44: UP is closed downstream, the outcome is applied to the record, and then the bus is released. -/
theorem forwardEnds : Obligations.ForwardEnds := by
  unfold Obligations.ForwardEnds
  intro k low s x hres hx hf hp hs closed pauses
  have shut : KeepsFlags s (s.setUp closed) k := .of_blocks rfl rfl
  have flags := shut.trans (forwardOver_keepsFlags (s.setUp closed) x.slot (decide (x.reason = some .addressNak)) k)
  refine ⟨_, exec_forwardEnd k low hres hx hf hp hs, flags.released, fun hn => ?_, fun i r hi hr hk => ?_⟩
  · rw [hn]
    exact ⟨(releaseBus_frame (s.setUp closed) k).2.2.2.2.2.2.1, by simp [State.forwardOver], by simp [State.forwardOver],
      by simp [State.forwardOver], by simp [State.forwardOver], (releaseBus_freed (s.setUp closed) k).engines,
      releaseBus_requestAfter (s.setUp closed) k⟩
  · subst hk
    rw [hi] at flags ⊢
    have hq : r.ended (decide (x.reason = some .addressNak)) s.hm.holdOff =
        if x.reason = some .addressNak then { r with marker := .none }.charged s.hm.holdOff
        else { r with marker := .none } := by
      unfold Record.ended
      simp only [decide_eq_true_eq]
    rw [← hq]
    obtain ⟨stays, purges⟩ := forwardOver_pool (s := s.setUp closed) hr (decide (x.reason = some .addressNak))
      (releaseBus_frame _ r.segment).2.2.2.2.2.2.2.1
    obtain ⟨u, mv, e⟩ := forwardOver_moved (s := s.setUp closed) hr (decide (x.reason = some .addressNak))
    have applied := OutcomeApplied.of_moved mv hr (r.ended_kept _ _).1
    have freed := releaseBus_freed (u.afterEnd i) r.segment
    refine ⟨?_, ?_, stays, purges, fun law => ?_⟩
    · exact e ▸ applied.endFrame freed
    · exact e ▸ applied.leftBehind freed
    · exact e ▸ (applied.requestLeft law.2.2.2.2.1).released ((e ▸ flags).pause)

end Sys2Proof.Machine
end

section
namespace Sys2Proof.Machine

variable {s : State}

/-! ### The end of a transaction, taken off the bus or not, with its flags (R58, R69) -/

section
variable {b u : State} {k : Seg} {i : Slot} {r q : Record}

theorem InPlace.keepsFlags (h : InPlace s u i q) (k : Seg) : KeepsFlags s u k := .of_blocks h.eng h.dc

/-- A change that leaves the record's state passes no claims and withdraws no request. -/
theorem OutcomeApplied.of_inPlace (h : InPlace s u i q) (hr : s.recAt i = some r) (hs : q.state = r.state)
    (ha : q.aliasAddr = r.aliasAddr) (k : Seg) : OutcomeApplied s u k i r q where
  here := by rw [h.here, State.lostOnMove_of_not fun c => c.2 (hs.trans c.1)]
  sameAlias := ha
  others := h.others
  index := h.index
  rest := h.rest
  engines j _ := engine_of_eng h.eng j
  queues j _ := poolSeg_of_pool h.pool j
  changed hn := absurd hs hn
  ops := .of_dc h.dc _
  request := .of_same (by rw [engine_of_eng h.eng]) h.up fun _ _ hl => hl.2.2 (hs.trans hl.2.1)
  unasked := (h.moved hs).unasked hr

/-- From `s` to `b` only the transaction and the queue of engine `k` have changed. -/
structure OffBus (s b : State) (k : Seg) : Prop where
  dir : b.dir = s.dir
  up : b.up = s.up
  dc : b.dc = s.dc
  rest : KeepsRest s b
  engines : ∀ j, b.engine j = { s.engine j with tx := (b.engine j).tx }
  others : ∀ j, j ≠ k → b.engine j = s.engine j
  queues : ∀ j, j ≠ k → b.poolSeg j = s.poolSeg j

theorem clearTx_offBus (s : State) (k : Seg) {f : PoolSeg → PoolSeg} (hf : ∀ p, (f p).share = p.share) :
    OffBus s ((s.modPool k f).clearTx k) k where
  dir := rfl
  up := rfl
  dc := rfl
  rest := (modPool_keepsRest s k f hf).trans (modEngine_keepsRest _ k _)
  engines j := by
    rw [State.clearTx, engine_modEngine, engine_modPool, engine_modPool]
    split
    · rename_i e; rw [e]
    · rfl
  others j hj := engine_modEngine_other _ hj _
  queues j hj := (poolSeg_modPool s k j f).trans (if_neg hj)

theorem OffBus.keepsFlags (h : OffBus s b k) (j : Seg) : KeepsFlags s b j := by
  refine ⟨?_, ?_, ?_, .of_dc h.dc _⟩ <;> rw [h.engines j]

theorem OffBus.request (h : OffBus s b k) (j : Seg) : (b.engine j).request = (s.engine j).request := by rw [h.engines j]

/-- An outcome applied once the transaction is off the bus. -/
theorem OutcomeApplied.afterOffBus (o : OffBus s b k) (h : OutcomeApplied b u k i r q)
    (lost : b.lostOnMove i r q = s.lostOnMove i r q) : OutcomeApplied s u k i r q where
  here := lost ▸ h.here
  sameAlias := h.sameAlias
  others j hj := (h.others j hj).trans (recAt_of_dir o.dir j)
  index := h.index.trans (congrArg Directory.aliasIndex o.dir)
  rest := o.rest.trans h.rest
  engines j hj := (h.engines j hj).trans (o.others j hj)
  queues j hj := (h.queues j hj).trans (o.queues j hj)
  changed := h.changed
  ops := (OpsKept.of_dc o.dc _).trans h.ops
  request := o.up ▸ h.request.ofSame (o.request k)
  unasked law := h.unasked fun j w i hw hi => by
    rw [recAt_of_dir o.dir]
    exact law j w i (o.request j ▸ hw) hi

/-- Answers to operations that do not wait on the slot's becoming FREE leave the outcome applied. -/
theorem OutcomeApplied.settled (h : OutcomeApplied s u k i r q) {f : LongOp → Option Response}
    (hf : ∀ op, op.work ≠ .probe i true → f op = none) : OutcomeApplied s (u.settleOps f) k i r q where
  here := h.here
  sameAlias := h.sameAlias
  others := h.others
  index := h.index
  rest := h.rest.trans (settleOps_keepsRest u f)
  engines := h.engines
  queues := h.queues
  changed := h.changed
  ops := h.ops.trans ((settleOps_kept u f).imp fun op g => .inr (hf op g.2))
  request := h.request.andSame rfl rfl
  unasked := h.unasked

/-- Where nothing goes, the request and UP are as they were. -/
theorem RequestAfter.untouched {m : State} {v : UpPort} {goes : FwdRequest → Prop} {freed : Prop}
    (h : RequestAfter s v m k goes freed) (hg : ∀ w, ¬goes w) :
    (m.engine k).request = (s.engine k).request ∧ m.up = v := by
  unfold RequestAfter at h
  cases hq : (s.engine k).request with
  | none => simpa only [hq] using h
  | some w =>
    simp only [hq] at h
    exact h.1 (hg w)

theorem RequestAfter.of_none {m : State} {v : UpPort} {goes : FwdRequest → Prop} {freed : Prop}
    (h : RequestAfter s v m k goes freed) (hn : (s.engine k).request = none) : m.up = v := by
  unfold RequestAfter at h
  simp only [hn] at h
  exact h.2

/-- An end that leaves the record's state withdraws no request. -/
theorem OutcomeApplied.quiet (h : OutcomeApplied s u k i r q) (law : s.RequestLaw) (hs : q.state = r.state) :
    ((u.afterEnd i).engine k).request = (s.engine k).request ∧ (u.afterEnd i).up = s.up :=
  (h.requestLeft law).untouched fun _ hl => hl.2.2 (hs.trans hl.2.1)

end

/-! ### Claims on a FREE slot (R12) -/

section
variable {i : Slot} (h : s.recAt i = none)
include h

theorem clearMarker_free : s.clearMarker i = s := by
  unfold State.clearMarker State.modRec
  rw [h]

theorem undeliveredClaim_free : s.undeliveredClaim i = s := by
  unfold State.undeliveredClaim
  rw [h]

theorem afterEnd_free : s.afterEnd i = s := afterEnd_none s i fun r hr => by rw [h] at hr; cases hr

end

/-! ### UP's part when its forward is lost (R47) -/

theorem answerAsExpired_eq (s : State) : s.answerAsExpired = s.setUp s.answerAsExpired.up := by
  unfold State.answerAsExpired
  split
  · rfl
  · split <;> rfl
  · rfl
  · rfl

/-- UP once the transaction `x` of engine `k` has ended on the engine's side: answered while it relays, and closed. -/
def State.upLost (s : State) (k : Seg) (x : Tx) : UpPort :=
  (if s.relaying k = true ∧ x.phase ≠ .closing then s.answerAsExpired.up else s.up).closed k

theorem forwardLost_eq (s : State) (k : Seg) (x : Tx) : s.forwardLost k x = s.setUp (s.upLost k x) := by
  unfold State.forwardLost State.upLost
  dsimp only
  rw [closeDownstream_eq]
  by_cases c : s.relaying k = true ∧ x.phase ≠ .closing
  · rw [if_pos c, if_pos c, answerAsExpired_eq]
    rfl
  · rw [if_neg c, if_neg c]

section
variable {k : Seg} {x : Tx}

theorem upLost_unrelayed (h : ¬(Relays s k ∧ x.phase ≠ .closing)) : s.upLost k x = s.up.closed k := by
  unfold State.upLost
  rw [if_neg fun c => h ⟨(relaying_iff s k).mp c.1, c.2⟩]

theorem upLost_relayed (h : Relays s k) (hc : x.phase ≠ .closing) : s.upLost k x = s.answerAsExpired.up.closed k :=
  congrArg (UpPort.closed · k) (if_pos ⟨(relaying_iff s k).mpr h, hc⟩)

/-- The NAK that leaves UP UNADDRESSED: of the address, or of a byte for which UP holds the clock. -/
theorem upLost_nak (h : Relays s k) (hc : x.phase ≠ .closing) (hh : s.up.ctx.hold ≠ none)
    (hp : s.up.ctx.phase ≠ .read) : s.upLost k x = { s.up with ctx := .unaddressed none, out := ⟨some false, none⟩ } := by
  have nak : s.answerAsExpired = s.upNak := by
    cases phase : s.up.ctx.phase with
    | unaddressed => exact absurd phase h.2.1
    | address => exact answerAsExpired_address phase
    | write => exact answerAsExpired_write phase (Option.isSome_iff_ne_none.mpr hh)
    | read => exact absurd phase hp
  rw [upLost_relayed h hc, nak]
  simp [UpPort.closed, State.upNak, UpContext.unaddressed, h.1]

theorem upLost_read (h : Relays s k) (hc : x.phase ≠ .closing) (hh : s.up.ctx.hold ≠ none)
    (hp : s.up.ctx.phase = .read) : s.upLost k x = { s.up with
      ctx := { s.up.ctx with mode := some .standIn, segment := none, hold := none, downOpen := none }
      out := ⟨none, some s.up.ctx.fillByte⟩ } := by
  rw [upLost_relayed h hc, answerAsExpired_read hp (Option.isSome_iff_ne_none.mpr hh)]
  simp [UpPort.closed, h.1]

theorem upLost_write_unheld (h : Relays s k) (hc : x.phase ≠ .closing) (hh : s.up.ctx.hold = none)
    (hp : s.up.ctx.phase = .write) : s.upLost k x = { s.up with ctx := .unaddressed none } := by
  have left : s.answerAsExpired = s.setCtx (.unaddressed s.up.ctx.downOpen) := by
    simp [State.answerAsExpired, hp, hh]
  rw [upLost_relayed h hc, left]
  simp [UpPort.closed, State.setCtx, UpContext.unaddressed, h.1]

theorem upLost_read_unheld (h : Relays s k) (hc : x.phase ≠ .closing) (hh : s.up.ctx.hold = none)
    (hp : s.up.ctx.phase = .read) : s.upLost k x = { s.up with
      ctx := { s.up.ctx with mode := some .standIn, segment := none, downOpen := none } } := by
  rw [upLost_relayed h hc]
  simp [State.answerAsExpired, UpPort.closed, hp, hh, h.1]

end

end Sys2Proof.Machine
end

section
namespace Sys2Proof.Machine

variable {s : State}

/-! ### A delivery that fails (R84, R86) -/

section
variable {k : Seg} {i : Slot} {r : Record} {e : Entry} {rest : List Entry}

theorem clearTx_noDelivery (s : State) (k : Seg) : (s.clearTx k).deliveryOnBus k = false := by
  unfold State.deliveryOnBus State.clearTx
  rw [engine_modEngine_self]

theorem clearTx_poolSeg (s : State) (k : Seg) (f : PoolSeg → PoolSeg) :
    ((s.modPool k f).clearTx k).poolSeg k = f (s.poolSeg k) := (poolSeg_modPool s k k f).trans (if_pos rfl)

theorem removeHead_poolSeg (s : State) (k : Seg) : ((s.removeHead k).clearTx k).poolSeg k =
    { s.poolSeg k with queue := (s.poolSeg k).queue.drop 1, purgeMark := false } :=
  clearTx_poolSeg s k fun p => { p with queue := p.queue.drop 1, purgeMark := false }

/-- The entries that wait behind the one delivered wait when it has left the queue. -/
theorem removeHead_purged (hd : s.deliveryOnBus k = true) (i : Slot) :
    ((s.removeHead k).clearTx k).purged k i = s.purged k i := by
  unfold State.purged State.waitingEntries
  rw [clearTx_noDelivery, hd, removeHead_poolSeg]
  rfl

theorem removeHead_offBus (s : State) (k : Seg) : OffBus s ((s.removeHead k).clearTx k) k :=
  clearTx_offBus s k fun _ => rfl

/-- The entry has left the queue with its mark, and its claim is taken, before a charge. -/
theorem removeHead_lost (k : Seg) (hr : s.recAt i = some r) :
    InPlace ((s.removeHead k).clearTx k) ((((s.removeHead k).clearTx k).clearMarker i).undeliveredClaim i) i
      { r.oneLost with marker := .none } :=
  have cleared := clearMarker_inPlace (s := (s.removeHead k).clearTx k) hr
  cleared.trans (undeliveredClaim_inPlace cleared.here)

/-- A delivery dropped without a charge: one claim, and the rest of the queue. -/
theorem deliveryOver_dropped (k : Seg) (hr : s.recAt i = some r) :
    ∃ u, OutcomeApplied s u k i r { r.oneLost with marker := .none } ∧ s.deliveryOver k i true false = u.afterEnd i ∧
      u.poolSeg k = { s.poolSeg k with queue := (s.poolSeg k).queue.drop 1, purgeMark := false } := by
  have lost := removeHead_lost k hr
  have passed : ∀ t : State, t.lostOnMove i r { r.oneLost with marker := .none } = r.oneLost.undelivered := fun t =>
    State.lostOnMove_of_not fun c => c.2 c.1
  exact ⟨_, .afterOffBus (removeHead_offBus s k) (.of_inPlace lost hr rfl rfl k) ((passed _).trans (passed _).symm), rfl,
    (poolSeg_of_pool lost.pool k).trans (removeHead_poolSeg s k)⟩

/-- A delivery that ends with a charge: one claim, and the entries left, unless the charge quarantines the record. -/
theorem deliveryOver_charged (hr : s.recAt i = some r) (hk : r.segment = k) (hd : s.deliveryOnBus k = true) :
    let q := { r.oneLost with marker := .none }.charged s.hm.holdOff
    ∃ u, OutcomeApplied s u k i r q ∧ s.deliveryOver k i true true = u.afterEnd i ∧ (u.poolSeg k).purgeMark = false ∧
      (u.poolSeg k).queue = if q.state = r.state then (s.poolSeg k).queue.drop 1
        else ((s.poolSeg k).queue.drop 1).filter fun f => f.slot != i := by
  intro q
  subst hk
  have off := removeHead_offBus s r.segment
  have moved : Moved _ _ i r { q with undelivered := ((s.removeHead r.segment).clearTx r.segment).lostOnMove i r q } :=
    (removeHead_lost r.segment hr).charge rfl rfl
  obtain ⟨sameAlias, -, states⟩ := Record.charged_kept s.hm.holdOff { r.oneLost with marker := .none }
  have lost : ((s.removeHead r.segment).clearTx r.segment).lostOnMove i r q = s.lostOnMove i r q := by
    unfold State.lostOnMove
    rw [removeHead_purged hd]
  have pool := removeHead_poolSeg s r.segment
  refine ⟨_, .afterOffBus off (.of_moved moved hr sameAlias) lost, rfl, ?_⟩
  rcases states with same | ⟨hb, hq⟩
  · rw [poolSeg_of_pool (moved.stays fun c => c.2.1 (same.trans c.1)), pool]
    exact ⟨rfl, (if_pos same).symm⟩
  · have left : q.state ≠ r.state := by
      have bound : r.state = .bound := hb
      rw [bound]
      exact fun c => by rw [hq] at c; cases c
    have purge := moved.purged hb (by simp [q, hq]) (by simp [q, hq])
    unfold PurgedOf State.busEntries State.waitingEntries at purge
    rw [clearTx_noDelivery, pool] at purge
    rw [purge, if_neg left]
    exact ⟨rfl, rfl⟩

/-- A cut delivery that goes back to the head of the queue, retried (R86). -/
theorem deliveryCut_retried (hr : s.recAt i = some r) (hq : (s.poolSeg k).queue = e :: rest) (h : e.retried = false)
    (hm : (s.poolSeg k).purgeMark = false) :
    ∃ u, OutcomeApplied s u k i r { r with marker := .none } ∧ s.deliveryCut k i = u.afterEnd i ∧
      (u.poolSeg k).queue = { e with retried := true } :: rest := by
  have off := clearTx_offBus s k (f := fun p => { p with queue := { e with retried := true } :: rest }) fun _ => rfl
  have cleared := clearMarker_inPlace (s := (s.modPool k fun p => { p with
    queue := { e with retried := true } :: rest }).clearTx k) hr
  have passed : ∀ t : State, t.lostOnMove i r { r with marker := .none } = r.undelivered := fun t =>
    State.lostOnMove_of_not fun c => c.2 c.1
  refine ⟨_, .afterOffBus off (.of_inPlace cleared hr rfl rfl k) ((passed _).trans (passed _).symm), ?_, ?_⟩
  · unfold State.deliveryCut
    rw [hq]
    exact if_neg (by simp [h, hm])
  · rw [poolSeg_of_pool cleared.pool]
    exact congrArg PoolSeg.queue (clearTx_poolSeg s k fun p => { p with queue := { e with retried := true } :: rest })

theorem deliveryCut_dropped (hq : (s.poolSeg k).queue = e :: rest)
    (h : e.retried = true ∨ (s.poolSeg k).purgeMark = true) : s.deliveryCut k i = s.deliveryOver k i true false := by
  unfold State.deliveryCut
  rw [hq]
  exact if_pos h

theorem deliveryCut_empty (hq : (s.poolSeg k).queue = []) : s.deliveryCut k i = (s.clearTx k).clearMarker i := by
  unfold State.deliveryCut
  rw [hq]

end

/-! ### The end of a probe, with the engine entering RECOVERING (R17, R68, R97) -/

section
variable {k : Seg} {x : Tx} {i : Slot} {r : Record}

theorem probeOfFreeSlot_recovering (s : State) (k : Seg) : ProbeOfFreeSlot s (s.enterRecovering k) k False := by
  have engine : (s.enterRecovering k).engine k = (s.engine k).toRecovering := engine_modEngine_self s k _
  exact ⟨rfl, rfl, rfl, rfl, rfl, rfl, (enterRecovering_freed s k).engines, by rw [engine]; rfl, by rw [engine]; rfl,
    fun _ ho _ => ho, .of_same (by rw [engine]; rfl) rfl fun _ _ => id⟩

/-- A probe off the bus whose outcome is not applied. -/
theorem probeOff_applied (x : Tx) (hr : s.recAt i = some r) (k : Seg) :
    OutcomeApplied s (s.putRec i (some (r.probeOff x))) k i r (r.probeOff x) :=
  .of_inPlace (.put s i (r.probeOff x)) hr rfl rfl k

/-- A slot that becomes FREE with the end answers the PROBEs whose note the probe carried (R145). -/
theorem probeOff_answers (x : Tx)
    (h : ((s.putRec i (some (r.probeOff x))).afterEnd i).recAt i = none) :
    Answered s ((s.putRec i (some (r.probeOff x))).afterEnd i) (fun w => w = .probe i true)
      fun op => ⟨.probe, op.tag, .retired, []⟩ := by
  have here := recAt_putRec_self s i (some (r.probeOff x))
  have ends : (s.putRec i (some (r.probeOff x))).endsWith i (r.probeOff x) := by
    by_contra c
    rw [afterEnd_stays _ i _ here c, recAt_putRec_self] at h
    cases h
  rw [afterEnd_frees _ i _ here ends]
  exact (freeSlot_busProbes _ i _ here).of_dc rfl

theorem probeDiscarded_recovering (hr : s.recAt i = some r) (ha : ¬ProbeApplies x k r) (answer : ProbeAnswer) :
    EndFrame s ((s.probeOver k x i answer).enterRecovering k) k i ∧
    ProbeDiscarded s ((s.probeOver k x i answer).enterRecovering k) k x i r False := by
  have applied := probeOff_applied x hr k
  have freed := enterRecovering_freed ((s.putRec i (some (r.probeOff x))).afterEnd i) k
  have here := recAt_putRec_self s i (some (r.probeOff x))
  rw [probeOver_discarded k x i answer r hr ha]
  refine ⟨applied.endFrame freed, applied.leftBehind freed, freed.ends.pool.trans (by simp), fun h => ?_,
    fun h op ho _ => ?_, fun law => ?_⟩
  · exact (probeOff_answers x h).kept freed.ends.answered
  · have kept : ((s.putRec i (some (r.probeOff x))).afterEnd i).dc = s.dc := (afterEnd_keeps _ i _ here h).1
    have ho' : op ∈ ((s.putRec i (some (r.probeOff x))).afterEnd i).dc.ops := kept ▸ ho
    exact ho'
  · exact ((applied.requestLeft law.2.2.2.2.1).recovering).congr fun _ _ => iff_false_intro fun c => c.2.2 c.2.1

theorem probeApplied_recovering (hr : s.recAt i = some r) (ha : ProbeApplies x k r) (answer : ProbeAnswer)
    {o : ProbeOutcome} (ho : judge r answer (x.byteRead answer) = o) :
    EndFrame s ((s.probeOver k x i answer).enterRecovering k) k i ∧
    ProbeApplied s ((s.probeOver k x i answer).enterRecovering k) k x i r o (x.byteRead answer) False := by
  obtain ⟨-, hret, hk, -⟩ := id ha
  obtain ⟨sameAlias, -, qret⟩ := Record.probed_kept s.hm.holdOff o (x.byteRead answer) (r.probeOff x)
  obtain ⟨v, moved, judged, identity⟩ := probeJudged_moved (s := s) x i r o (x.byteRead answer) hret
  rw [probeOver_applied k x i answer r o hr ha ho, judged]
  unfold ProbeApplied
  dsimp only
  generalize (r.probeOff x).probed s.hm.holdOff o (x.byteRead answer) = q at *
  subst hk
  have answered := settleOps_answers v (fun op => if op.work = .probe i true then
    some ⟨.probe, op.tag, .done, probeResults o (x.byteRead answer) q.state⟩ else none) (fun w => w = .probe i true) _
    fun op hw => if_pos hw
  have applied := (OutcomeApplied.of_moved moved hr sameAlias).settled (f := fun op => if op.work = .probe i true then
    some ⟨.probe, op.tag, .done, probeResults o (x.byteRead answer) q.state⟩ else none) fun op hw => if_neg hw
  have vrest := settleOps_keepsRest v fun op => if op.work = .probe i true then
    some ⟨.probe, op.tag, .done, probeResults o (x.byteRead answer) q.state⟩ else none
  have vpool : (v.settleOps fun op => if op.work = .probe i true then
    some ⟨.probe, op.tag, .done, probeResults o (x.byteRead answer) q.state⟩ else none).pool = v.pool := rfl
  have vdc := Answered.of_dc moved.dc answered
  generalize (v.settleOps _) = u at *
  have freed := enterRecovering_freed (u.afterEnd i) r.segment
  have pool : ((u.afterEnd i).enterRecovering r.segment).pool = v.pool := by
    rw [freed.ends.pool, ← vpool]
    simp
  refine ⟨applied.endFrame freed, applied.leftBehind freed, fun h => ?_, fun hb hn => ?_, fun law => ?_, fun h => ?_, ?_⟩
  · exact pool.trans (moved.stays fun c => h.elim (fun g => g c.1) c.2.1)
  · have purge := moved.purged hb hn qret
    unfold PurgedOf at purge ⊢
    rwa [poolSeg_of_pool pool]
  · exact ((applied.requestLeft law.2.2.2.2.1).recovering).congr fun _ _ => (false_or _).to_iff.symm
  · exact (vrest.trans ((afterEnd_keepsRest u i).trans freed.rest)).changed i (h.elim moved.changed identity)
  · have last := (vdc.kept ((afterEnd_kept u i _ applied.here).imp fun _ h => .inl h)).kept freed.ends.answered
    revert last
    generalize x.byteRead answer = byte
    cases o <;> cases byte <;> exact id

end

end Sys2Proof.Machine
end

section
namespace Sys2Proof.Machine

variable {s : State}

/-! ### The cut of a probe (R68, R143) -/

section
variable {m n : State} {k : Seg} {x : Tx} {i : Slot} {r q : Record}

/-- A later part of the event changes the engine of the transaction, UP and DC alone. -/
theorem EndFrame.kept (h : EndFrame s m k i) (g : KeepsRest m n) (dir : n.dir = m.dir) (pool : n.pool = m.pool)
    (engines : ∀ j, j ≠ k → n.engine j = m.engine j) : EndFrame s n k i := by
  obtain ⟨others, queues, share, reservation, index, engs, hold, catchAll, stall, hm, mp, pu, lines, faults, reset,
    pending⟩ := h
  exact ⟨fun j hj => (recAt_of_dir dir j).trans (others j hj), fun j hj => (poolSeg_of_pool pool j).trans (queues j hj),
    (g.share k).trans share, g.reservation.trans reservation,
    fun c => (congrArg Directory.aliasIndex dir).trans (index (recAt_of_dir dir i ▸ c)),
    fun c j hj => (engines j hj).trans (engs (recAt_of_dir dir i ▸ c) j hj), g.holdLimit.trans hold,
    g.catchAll.trans catchAll, g.stallLimit.trans stall, g.hm.trans hm, g.mp.trans mp, g.pu.trans pu,
    g.lines.trans lines, g.faults.trans faults, g.inReset.trans reset, g.pending.trans pending⟩

/-- A slot that keeps its record is left behind with it, whatever becomes of the long operations. -/
theorem LeftBehind.keptRecord (h : LeftBehind s m i r q) (dir : n.dir = m.dir) (pool : n.pool = m.pool)
    (au : n.au = m.au) (stays : (m.recAt i).isSome = true) : LeftBehind s n i r q := by
  unfold LeftBehind at h ⊢
  dsimp only at h ⊢
  rw [State.hasQueued_of_pool pool, dir, recAt_of_dir dir i, au]
  split
  · rename_i he
    rw [if_pos he] at h
    obtain ⟨⟨gone, -⟩, -⟩ := h
    rw [gone] at stays
    cases stays
  · rename_i he
    rwa [if_neg he] at h

/-- The slot goes back to the front of the probe queue of engine `k`, with its notes (R68, R143). -/
def State.requeueProbe (s : State) (k : Seg) (i : Slot) : State :=
  (s.modEngine k fun e => { e with probeQueue := if i ∈ e.probeQueue then e.probeQueue else i :: e.probeQueue }).moveNotes
    i false

theorem requeueProbe_engine (s : State) (k j : Seg) (i : Slot) : (s.requeueProbe k i).engine j =
    if j = k then { s.engine k with
      probeQueue := if i ∈ (s.engine k).probeQueue then (s.engine k).probeQueue else i :: (s.engine k).probeQueue }
    else s.engine j := by
  unfold State.requeueProbe
  rw [engine_of_eng (moveNotes_eng _ i false), engine_modEngine]

theorem requeueProbe_keepsRest (s : State) (k : Seg) (i : Slot) : KeepsRest s (s.requeueProbe k i) :=
  (modEngine_keepsRest s k _).trans (setDc_keepsRest _ _)

theorem requeueProbe_keepsFlags (s : State) (k j : Seg) (i : Slot) : KeepsFlags s (s.requeueProbe k i) j := by
  have engine := requeueProbe_engine s k j i
  refine ⟨?_, ?_, ?_, fun op ho h => ?_⟩
  · rw [engine]; split <;> simp_all
  · rw [engine]; split <;> simp_all
  · rw [engine]; split <;> simp_all
  · refine (moveNotes_ops (s.modEngine k _) i).symm ▸ List.mem_map.mpr ⟨op, ho, if_neg ?_⟩
    simp [h.1]

/-- The end of a cut probe before the engine enters RECOVERING: the marker, what waited, and the slot put back. -/
theorem probeCut_eq (k : Seg) (x : Tx) (hr : s.recAt i = some r) : s.probeCut k x i =
    if (((s.putRec i (some (r.probeOff x))).afterEnd i).recAt i).isSome = true ∧ x.sameRecord = true ∧ r.segment = k then
      ((s.putRec i (some (r.probeOff x))).afterEnd i).requeueProbe k i
    else (s.putRec i (some (r.probeOff x))).afterEnd i := by
  have here := recAt_putRec_self s i (some (r.probeOff x))
  unfold State.probeCut
  dsimp only
  rw [clearProbeMarker_eq x i r hr]
  by_cases ends : (s.putRec i (some (r.probeOff x))).endsWith i (r.probeOff x)
  · have gone : ((s.putRec i (some (r.probeOff x))).afterEnd i).recAt i = none := by
      rw [afterEnd_frees _ i _ here ends, freeSlot_recAt, if_pos rfl]
    rw [gone]
    exact (if_neg (by simp)).symm
  · have stays : ((s.putRec i (some (r.probeOff x))).afterEnd i).recAt i = some { r.probeOff x with
        expiryHeld := decide ((r.probeOff x).marker ≠ .none ∧
          (s.putRec i (some (r.probeOff x))).expires i (r.probeOff x)) } := by
      rw [afterEnd_stays _ i _ here ends, recAt_putRec_self]
    rw [stays]
    dsimp only
    by_cases back : x.sameRecord = true ∧ r.segment = k
    · exact (if_pos back).trans (if_pos ⟨rfl, back⟩).symm
    · exact (if_neg back).trans (if_neg fun c => back c.2).symm

theorem probeCut_free (k : Seg) (x : Tx) (h : s.recAt i = none) : s.probeCut k x i = s := by
  have cleared : s.clearProbeMarker x i = s := by
    unfold State.clearProbeMarker
    rw [clearMarker_free h, ite_self]
  unfold State.probeCut
  dsimp only
  rw [cleared, afterEnd_free h, h]

theorem probeCut_recovering (k : Seg) (x : Tx) (hr : s.recAt i = some r) :
    ProbeCut s ((s.probeCut k x i).enterRecovering k) k x i r := by
  have applied := probeOff_applied x hr k
  have here := recAt_putRec_self s i (some (r.probeOff x))
  have answers := probeOff_answers (s := s) (i := i) (r := r) x
  have kept : (((s.putRec i (some (r.probeOff x))).afterEnd i).recAt i).isSome = true →
      ((s.putRec i (some (r.probeOff x))).afterEnd i).dc = s.dc ∧
      ((s.putRec i (some (r.probeOff x))).afterEnd i).eng = s.eng := fun c =>
    ⟨(afterEnd_keeps _ i _ here c).1, (afterEnd_keeps _ i _ here c).2.1⟩
  have pool : ((s.putRec i (some (r.probeOff x))).afterEnd i).pool = s.pool := by simp
  rw [probeCut_eq k x hr]
  generalize hu : (s.putRec i (some (r.probeOff x))).afterEnd i = u at *
  have freed : BusFreed ((s.putRec i (some (r.probeOff x))).afterEnd i) (u.enterRecovering k) k :=
    hu ▸ enterRecovering_freed _ k
  have frame := applied.endFrame freed
  have left := applied.leftBehind freed
  have recovered : ∀ t : State, ((t.enterRecovering k).engine k).probeQueue = (t.engine k).probeQueue := fun t =>
    (enterRecovering_freed t k).ends.queues k
  split
  · rename_i c
    obtain ⟨stays, back⟩ := c
    have stays' : (((u.requeueProbe k i).enterRecovering k).recAt i).isSome = true := stays
    have rest := ((requeueProbe_keepsRest u k i).trans (modEngine_keepsRest _ k Engine.toRecovering))
    refine ⟨?_, left.keptRecord (n := (u.requeueProbe k i).enterRecovering k) rfl rfl rfl stays, pool, fun c => ?_,
      fun _ _ => ⟨?_, fun op ho hw => ?_⟩, fun _ c => absurd back c⟩
    · have freed' : EndFrame s u k i := frame.kept (n := u) (.of_blocks rfl rfl rfl rfl rfl rfl rfl rfl rfl rfl) rfl rfl
        fun j hj => ((enterRecovering_freed u k).engines j hj).symm
      refine freed'.kept rest rfl rfl fun j hj => ?_
      rw [(enterRecovering_freed _ k).engines j hj, requeueProbe_engine, if_neg hj]
    · rw [c] at stays'
      cases stays'
    · rw [recovered, requeueProbe_engine, if_pos rfl, engine_of_eng (kept stays).2]
    · refine (moveNotes_ops (u.modEngine k _) i).symm ▸ List.mem_map.mpr ⟨op, (kept stays).1.symm ▸ ho, if_pos hw⟩
  · rename_i c
    refine ⟨frame, left, pool, fun gone => answers gone, fun stays back => ?_,
      fun stays _ => ⟨?_, (kept stays).1⟩⟩
    · exact absurd ⟨stays, back⟩ c
    · rw [recovered, engine_of_eng (kept stays).2]

end

/-! ### The end of a discovery's address (R121, R124, R125) -/

section
variable {k : Seg} {d f : Discovery} {code : ResultCode}

theorem putDiscovery_engine (s : State) (k j : Seg) (d : Discovery) :
    (s.putDiscovery k d).engine j = if j = k then { s.engine k with discovery := some d } else s.engine j := by
  rw [State.putDiscovery, engine_modEngine]

/-- A discovery that ends at its context `f`. -/
theorem endDiscovery_ended (s : State) (k : Seg) (f : Discovery) (code : ResultCode) :
    DiscoveryEnded s ((s.putDiscovery k f).endDiscovery k code) k f code := by
  have engine := putDiscovery_engine s k k f
  rw [if_pos rfl] at engine
  refine ⟨by rw [endDiscovery_engine, if_pos rfl], ?_⟩
  unfold State.endDiscovery
  rw [engine]
  exact settleOps_answers ((s.putDiscovery k f).modEngine k fun e => { e with discovery := none })
    (fun op => if op.work = .discover k then some ⟨.discover, op.tag, code, f.results⟩ else none)
    (· = .discover k) (fun op => ⟨.discover, op.tag, code, f.results⟩) fun op hw => if_pos hw

theorem endDiscovery_keepsFlags (s : State) (k j : Seg) (code : ResultCode) :
    KeepsFlags s (s.endDiscovery k code) j := by
  have engine := endDiscovery_engine s k j code
  refine ⟨?_, ?_, ?_, ?_⟩
  · rw [engine]; split <;> simp_all
  · rw [engine]; split <;> simp_all
  · rw [engine]; split <;> simp_all
  · unfold State.endDiscovery
    split
    · exact .of_dc rfl _
    · exact (settleOps_kept _ _).imp fun op h => .inr (if_neg (by simp [h.1]))

theorem putDiscovery_keepsFlags (s : State) (k j : Seg) (d : Discovery) : KeepsFlags s (s.putDiscovery k d) j := by
  refine ⟨?_, ?_, ?_, .of_dc rfl _⟩ <;> (rw [putDiscovery_engine]; split <;> simp_all)

theorem afterAddress_keepsFlags (s : State) (k j : Seg) (d : Discovery) : KeepsFlags s (s.afterAddress k d) j := by
  have put := putDiscovery_keepsFlags s k j d
  unfold State.afterAddress
  dsimp only
  split
  · exact put.trans (endDiscovery_keepsFlags _ k j _)
  · split
    · exact put.trans (endDiscovery_keepsFlags _ k j _)
    · exact put

theorem discoveryCut_keepsFlags (s : State) (k j : Seg) : KeepsFlags s (s.discoveryCut k) j := by
  unfold State.discoveryCut
  split
  · exact .refl s j
  · dsimp only
    split
    · exact (putDiscovery_keepsFlags s k j _).trans (endDiscovery_keepsFlags _ k j _)
    · exact putDiscovery_keepsFlags s k j _

/-- Only the discovery of the engine, and the answer of its DISCOVER, change at the end of an address. -/
structure OnlyDiscovery (s m : State) (k : Seg) : Prop where
  dir : m.dir = s.dir
  pool : m.pool = s.pool
  up : m.up = s.up
  au : m.au = s.au
  engine : m.engine k = { s.engine k with discovery := (m.engine k).discovery }

theorem OnlyDiscovery.trans {m n : State} (h : OnlyDiscovery s m k) (g : OnlyDiscovery m n k) : OnlyDiscovery s n k := by
  refine ⟨g.dir.trans h.dir, g.pool.trans h.pool, g.up.trans h.up, g.au.trans h.au, ?_⟩
  have e := g.engine
  rw [h.engine] at e
  exact e

theorem putDiscovery_only (s : State) (k : Seg) (d : Discovery) : OnlyDiscovery s (s.putDiscovery k d) k :=
  ⟨rfl, rfl, rfl, rfl, by rw [putDiscovery_engine, if_pos rfl]⟩

theorem endDiscovery_only (s : State) (k : Seg) (code : ResultCode) : OnlyDiscovery s (s.endDiscovery k code) k :=
  ⟨by simp, by simp, by simp, by simp, by rw [endDiscovery_engine, if_pos rfl]⟩

theorem afterAddress_only (s : State) (k : Seg) (d : Discovery) : OnlyDiscovery s (s.afterAddress k d) k := by
  have put := putDiscovery_only s k d
  unfold State.afterAddress
  dsimp only
  split
  · exact put.trans (endDiscovery_only _ k _)
  · split
    · exact put.trans (endDiscovery_only _ k _)
    · exact put

theorem discoveryCut_only (s : State) (k : Seg) : OnlyDiscovery s (s.discoveryCut k) k := by
  unfold State.discoveryCut
  split
  · exact ⟨rfl, rfl, rfl, rfl, rfl⟩
  · dsimp only
    split
    · exact (putDiscovery_only s k _).trans (endDiscovery_only _ k _)
    · exact putDiscovery_only s k _

theorem afterAddress_goesOn (s : State) (k : Seg) (f : Discovery) : DiscoveryGoesOn s (s.afterAddress k f) k f := by
  have engine := putDiscovery_engine s k k f
  rw [if_pos rfl] at engine
  unfold State.afterAddress
  dsimp only
  refine ⟨fun h => ?_, fun h hc => ?_, fun h hc => ?_⟩
  · rw [if_pos h]
    exact endDiscovery_ended s k f _
  · rw [if_neg h, if_pos hc]
    exact endDiscovery_ended s k f _
  · rw [if_neg h, if_neg (by simp [hc]), engine]

end

end Sys2Proof.Machine
end

section
namespace Sys2Proof.Machine

variable {s : State}

/-! ### The rate, the flags and the PAUSE over every end on the engine's side (R58, R69) -/

section
variable {k : Seg}

theorem KeepsFlags.afterEnd {u : State} (h : KeepsFlags s u k) (i : Slot) : KeepsFlags s (u.afterEnd i) k :=
  h.trans (afterEnd_keepsFlags u i k)

theorem putRec_keepsFlags (s : State) (i : Slot) (o : Option Record) (k : Seg) : KeepsFlags s (s.putRec i o) k :=
  .of_blocks rfl rfl

theorem clearMarker_keepsFlags (s : State) (i : Slot) (k : Seg) : KeepsFlags s (s.clearMarker i) k :=
  .of_blocks (by simp) (by simp)

theorem charge_keepsFlags (s : State) (i : Slot) (k : Seg) : KeepsFlags s (s.charge i) k := by
  cases hr : s.recAt i with
  | none =>
    rw [charge_not_bound s i fun r c => by rw [hr] at c; cases c]
    exact .refl s k
  | some r => exact (charge_moved hr).keepsFlags k

theorem deliveryOver_keepsFlags (s : State) (k j : Seg) (i : Slot) (charged : Bool) :
    KeepsFlags s (s.deliveryOver k i true charged) j := by
  have cleared := ((removeHead_offBus s k).keepsFlags j).trans (clearMarker_keepsFlags _ i j)
  have lost := cleared.trans
    (.of_blocks (m := (((s.removeHead k).clearTx k).clearMarker i).undeliveredClaim i) (by simp) (by simp))
  unfold State.deliveryOver
  refine KeepsFlags.afterEnd ?_ i
  cases charged with
  | false => exact lost
  | true => exact lost.trans (charge_keepsFlags _ i j)

theorem deliveryCut_keepsFlags (s : State) (k j : Seg) (i : Slot) : KeepsFlags s (s.deliveryCut k i) j := by
  have off : ∀ f : PoolSeg → PoolSeg, (∀ p, (f p).share = p.share) →
      KeepsFlags s (((s.modPool k f).clearTx k).clearMarker i) j := fun f hf =>
    ((clearTx_offBus s k hf).keepsFlags j).trans (clearMarker_keepsFlags _ i j)
  cases hq : (s.poolSeg k).queue with
  | nil =>
    rw [deliveryCut_empty hq]
    have cleared : KeepsFlags s (s.clearTx k) j := by
      refine ⟨?_, ?_, ?_, .of_dc rfl _⟩ <;> (rw [State.clearTx, engine_modEngine]; split <;> simp_all)
    exact cleared.trans (clearMarker_keepsFlags _ i j)
  | cons e rest =>
    unfold State.deliveryCut
    rw [hq]
    dsimp only
    split
    · exact deliveryOver_keepsFlags s k j i false
    · exact (off (fun p => { p with queue := { e with retried := true } :: rest }) fun _ => rfl).afterEnd i

theorem probeOver_keepsFlags (s : State) (k j : Seg) (x : Tx) (i : Slot) (answer : ProbeAnswer) :
    KeepsFlags s (s.probeOver k x i answer) j := by
  cases hr : s.recAt i with
  | none =>
    rw [probeOver_free k x i answer hr]
    exact .refl s j
  | some r =>
    by_cases ha : ProbeApplies x k r
    · obtain ⟨v, moved, judged, -⟩ :=
        probeJudged_moved (s := s) x i r (judge r answer (x.byteRead answer)) (x.byteRead answer) ha.2.1
      rw [probeOver_applied k x i answer r _ hr ha rfl, judged]
      refine ((moved.keepsFlags j).trans ?_).afterEnd i
      exact ⟨rfl, rfl, rfl, (settleOps_kept v _).imp fun op h => .inr (if_neg fun c => by rw [h.1] at c; cases c)⟩
    · rw [probeOver_discarded k x i answer r hr ha]
      exact (putRec_keepsFlags s i _ j).afterEnd i

theorem probeCut_keepsFlags (s : State) (k j : Seg) (x : Tx) (i : Slot) : KeepsFlags s (s.probeCut k x i) j := by
  cases hr : s.recAt i with
  | none =>
    rw [probeCut_free k x hr]
    exact .refl s j
  | some r =>
    have ended : KeepsFlags s ((s.putRec i (some (r.probeOff x))).afterEnd i) j :=
      (putRec_keepsFlags s i _ j).afterEnd i
    rw [probeCut_eq k x hr]
    split
    · exact ended.trans (requeueProbe_keepsFlags _ k j i)
    · exact ended

theorem forwardLost_keepsFlags (s : State) (k j : Seg) (x : Tx) (charged : Bool) :
    KeepsFlags s ((s.forwardLost k x).forwardOver x.slot charged) j := by
  rw [forwardLost_eq]
  have answered : KeepsFlags s (s.setUp (s.upLost k x)) j := .of_blocks rfl rfl
  exact answered.trans (forwardOver_keepsFlags _ x.slot charged j)

theorem cutOver_keepsFlags (s : State) (k j : Seg) (x : Tx) : KeepsFlags s (s.cutOver k x) j := by
  unfold State.cutOver
  split
  · exact forwardLost_keepsFlags s k j x false
  · exact forwardLost_keepsFlags s k j x false
  · split
    · exact deliveryCut_keepsFlags s k j _
    · exact .refl s j
  · split
    · exact probeCut_keepsFlags s k j x _
    · exact .refl s j
  · split
    · exact probeCut_keepsFlags s k j x _
    · exact .refl s j
  · exact discoveryCut_keepsFlags s k j

theorem stallOver_keepsFlags (s : State) (k j : Seg) (x : Tx) : KeepsFlags s (s.stallOver k x) j := by
  unfold State.stallOver
  split
  · exact forwardLost_keepsFlags s k j x true
  · exact forwardLost_keepsFlags s k j x true
  · split
    · exact deliveryOver_keepsFlags s k j _ true
    · exact .refl s j
  · split
    · exact probeOver_keepsFlags s k j x _ .notAnswered
    · exact .refl s j
  · split
    · exact probeOver_keepsFlags s k j x _ .notAnswered
    · exact .refl s j
  · unfold State.discoveryProbeOver
    split
    · exact .refl s j
    · exact afterAddress_keepsFlags s k j _

end

/-! ### What a cut leaves of requests and UP (R42, R47, R66) -/

section
variable {k : Seg} {x : Tx}

theorem cutOver_forward (hf : x.isForward = true) :
    s.cutOver k x = (s.setUp (s.upLost k x)).forwardOver x.slot false := by
  rw [← forwardLost_eq]
  unfold State.cutOver
  rcases (isForward_iff x).mp hf with e | e <;> rw [e]

theorem cutOver_delivery {i : Slot} (hk : x.kind = .delivery) (hi : x.slot = some i) :
    s.cutOver k x = s.deliveryCut k i := by
  unfold State.cutOver
  rw [hk, hi]

theorem cutOver_probe {i : Slot} (hp : x.isProbe = true) (hi : x.slot = some i) :
    s.cutOver k x = s.probeCut k x i := by
  unfold State.cutOver
  rcases (isProbe_iff x).mp hp with e | e <;> rw [e, hi]

theorem cutOver_discovery (hk : x.kind = .discoveryProbe) : s.cutOver k x = s.discoveryCut k := by
  unfold State.cutOver
  rw [hk]

/-- The engine's request waits on, and UP is as it was (R42). -/
def AsksOn (s m : State) (k : Seg) : Prop := (m.engine k).request = (s.engine k).request ∧ m.up = s.up

theorem AsksOn.trans {m n : State} (h : AsksOn s m k) (g : AsksOn m n k) : AsksOn s n k :=
  ⟨g.1.trans h.1, g.2.trans h.2⟩

theorem forwardOver_asksOn (law : s.RequestLaw) (slot : Option Slot) (k : Seg) :
    AsksOn s (s.forwardOver slot false) k := by
  cases slot with
  | none => exact ⟨rfl, rfl⟩
  | some i =>
    cases hr : s.recAt i with
    | none =>
      rw [forwardOver_free fun j hj => by cases hj; exact hr]
      exact ⟨rfl, rfl⟩
    | some r => exact (OutcomeApplied.of_inPlace (clearMarker_inPlace hr) hr rfl rfl k).quiet law rfl

theorem deliveryCut_asksOn (law : s.RequestLaw) (k : Seg) (i : Slot) : AsksOn s (s.deliveryCut k i) k := by
  have off : ∀ t : State, AsksOn t (t.clearTx k) k := fun t => ⟨by rw [State.clearTx, engine_modEngine_self], rfl⟩
  cases hq : (s.poolSeg k).queue with
  | nil =>
    rw [deliveryCut_empty hq]
    exact (off s).trans ⟨by simp [State.clearMarker], by simp⟩
  | cons e rest =>
    by_cases again : e.retried = true ∨ (s.poolSeg k).purgeMark = true
    · rw [deliveryCut_dropped hq again]
      cases hr : s.recAt i with
      | none =>
        have free : ((s.removeHead k).clearTx k).recAt i = none := hr
        have e : s.deliveryOver k i true false = (s.removeHead k).clearTx k := by
          unfold State.deliveryOver
          dsimp only
          rw [clearMarker_free free]
          simp only [if_true, Bool.false_eq_true, if_false]
          rw [undeliveredClaim_free free, afterEnd_free free]
        rw [e]
        exact AsksOn.trans (m := s.removeHead k) ⟨rfl, rfl⟩ (off _)
      | some r =>
        obtain ⟨u, applied, e, -⟩ := deliveryOver_dropped k hr
        rw [e]
        exact applied.quiet law rfl
    · push Not at again
      obtain ⟨first, unmarked⟩ := again
      cases hr : s.recAt i with
      | none =>
        have free : ((s.modPool k fun p => { p with queue := { e with retried := true } :: rest }).clearTx k).recAt i =
            none := hr
        have cut : s.deliveryCut k i =
            (s.modPool k fun p => { p with queue := { e with retried := true } :: rest }).clearTx k := by
          unfold State.deliveryCut
          rw [hq]
          refine (if_neg (by simp [first, unmarked])).trans ?_
          rw [clearMarker_free free, afterEnd_free free]
        rw [cut]
        exact AsksOn.trans (m := s.modPool k _) ⟨rfl, rfl⟩ (off _)
      | some r =>
        obtain ⟨u, applied, cut, -⟩ := deliveryCut_retried hr hq (by simpa using first) (by simpa using unmarked)
        rw [cut]
        exact applied.quiet law rfl

theorem probeCut_asksOn (law : s.RequestLaw) (k : Seg) (x : Tx) (i : Slot) : AsksOn s (s.probeCut k x i) k := by
  cases hr : s.recAt i with
  | none =>
    rw [probeCut_free k x hr]
    exact ⟨rfl, rfl⟩
  | some r =>
    have ended : AsksOn s ((s.putRec i (some (r.probeOff x))).afterEnd i) k := (probeOff_applied x hr k).quiet law rfl
    rw [probeCut_eq k x hr]
    split
    · exact ended.trans ⟨by rw [requeueProbe_engine, if_pos rfl], rfl⟩
    · exact ended

theorem OnlyDiscovery.asksOn {m : State} (h : OnlyDiscovery s m k) : AsksOn s m k := ⟨by rw [h.engine], h.up⟩

/-- A cut withdraws no request, and only that of a forward reaches UP. -/
theorem cutOver_asksOn (law : s.RequestLaw) (k : Seg) (x : Tx) :
    AsksOn (if x.isForward = true then s.setUp (s.upLost k x) else s) (s.cutOver k x) k := by
  by_cases hf : x.isForward = true
  · rw [if_pos hf, cutOver_forward hf]
    exact forwardOver_asksOn (s := s.setUp (s.upLost k x)) law x.slot k
  · rw [if_neg hf]
    rw [isForward_iff] at hf
    unfold State.cutOver
    split
    · exact absurd (.inl ‹_›) hf
    · exact absurd (.inr ‹_›) hf
    · split
      · exact deliveryCut_asksOn law k _
      · exact ⟨rfl, rfl⟩
    · split
      · exact probeCut_asksOn law k x _
      · exact ⟨rfl, rfl⟩
    · split
      · exact probeCut_asksOn law k x _
      · exact ⟨rfl, rfl⟩
    · exact (discoveryCut_only s k).asksOn

end

/-! ### UP's settings, over the loss of a forward -/

theorem upLost_settings (s : State) (k : Seg) (x : Tx) :
    (s.upLost k x).holdLimit = s.up.holdLimit ∧ (s.upLost k x).catchAll = s.up.catchAll := by
  have expired : s.answerAsExpired.up.holdLimit = s.up.holdLimit ∧ s.answerAsExpired.up.catchAll = s.up.catchAll := by
    unfold State.answerAsExpired
    split
    · exact ⟨rfl, rfl⟩
    · split <;> exact ⟨rfl, rfl⟩
    · exact ⟨rfl, rfl⟩
    · exact ⟨rfl, rfl⟩
  unfold State.upLost
  split
  · exact expired
  · exact ⟨rfl, rfl⟩

/-- UP's answer to the loss of the forward is made before its end. -/
theorem EndFrame.ofLost {m : State} {k j : Seg} {x : Tx} {i : Slot} (h : EndFrame (s.setUp (s.upLost k x)) m j i) :
    EndFrame s m j i := by
  obtain ⟨hold, catchAll⟩ := upLost_settings s k x
  obtain ⟨others, queues, share, reservation, index, engs, hold', catchAll', rest⟩ := h
  exact ⟨others, queues, share, reservation, index, engs, hold'.trans hold, catchAll'.trans catchAll, rest⟩

/-! ### A fault cuts the transaction (R66 to R68, R86, R121) -/

theorem exec_busFault {k : Seg} {x : Tx} (hr : s.inReset = false) (hx : (s.engine k).tx = some x) :
    exec (.busFault k) s =
      .next ((if x.silent = true then s.enterRecovering k else (s.cutOver k x).enterRecovering k).conclude) := by
  change execBusFault k s = _
  rw [execBusFault, live_running s hr]
  unfold State.takeFault
  rw [hx]

theorem BusFreed.pool {u n : State} {i : Slot} {k : Seg} (f : BusFreed (u.afterEnd i) n k) : n.pool = u.pool :=
  f.ends.pool.trans (by simp)

/-- The engine's entering RECOVERING leaves its discovery and the answers given. -/
theorem DiscoveryEnded.recovering {m : State} {k : Seg} {f : Discovery} {code : ResultCode}
    (h : DiscoveryEnded s m k f code) : DiscoveryEnded s (m.enterRecovering k) k f code := by
  obtain ⟨gone, answered⟩ := h
  exact ⟨by rw [State.enterRecovering, engine_modEngine_self]; exact gone, answered⟩

section
variable {k : Seg} {x : Tx} {i : Slot} {r : Record}

/-- A forward cut: the marker and what waited, with nothing purged. -/
theorem cutOver_forward_ends (hf : x.isForward = true) (hi : x.slot = some i) (hr : s.recAt i = some r) :
    EndFrame s ((s.cutOver k x).enterRecovering k) k i ∧
    LeftBehind s ((s.cutOver k x).enterRecovering k) i r { r with marker := .none } ∧
    ((s.cutOver k x).enterRecovering k).pool = s.pool := by
  have cleared := clearMarker_inPlace (s := s.setUp (s.upLost k x)) hr
  have applied := OutcomeApplied.of_inPlace cleared hr rfl rfl k
  have freed := enterRecovering_freed (((s.setUp (s.upLost k x)).clearMarker i).afterEnd i) k
  rw [cutOver_forward hf, hi]
  refine ⟨(applied.endFrame freed).ofLost, applied.leftBehind freed, freed.pool.trans cleared.pool⟩

end

/-- Settles O49: each kind of transaction is cut by its own rule, and the engine recovers. -/
theorem busFaultCutsTheTransaction : Obligations.BusFaultCutsTheTransaction := by
  unfold Obligations.BusFaultCutsTheTransaction
  intro k s x hres hx relayed closed
  have run := exec_busFault hres hx
  cases hsil : x.silent with
  | true =>
    rw [if_pos hsil] at run
    exact ⟨_, run, (KeepsFlags.refl s k).recovers, fun _ => ⟨rfl, rfl, rfl, rfl⟩, nofun⟩
  | false =>
    rw [if_neg (by simp [hsil])] at run
    have asks : s.WorkLaw → (((s.cutOver k x).enterRecovering k).engine k).request = (s.engine k).request ∧
        ((s.cutOver k x).enterRecovering k).up = if x.isForward = true then s.upLost k x else s.up := fun law => by
      obtain ⟨request, up⟩ := cutOver_asksOn law.2.2.2.2.1 k x
      rw [State.enterRecovering, engine_modEngine_self]
      refine ⟨request.trans (by split <;> rfl), up.trans (by split <;> rfl)⟩
    have lostUp : relayed → s.WorkLaw → ((s.cutOver k x).enterRecovering k).up = s.upLost k x := fun h law =>
      (asks law).2.trans (if_pos h.1)
    have closes : x.isForward = true → ¬relayed → s.upLost k x = closed := fun hf hn =>
      upLost_unrelayed fun c => hn ⟨hf, c.2, c.1⟩
    refine ⟨_, run, (cutOver_keepsFlags s k k x).recovers, nofun, fun _ => ⟨fun law => (asks law).1, fun hk hn => ?_,
      fun h law hh => ⟨fun hp => ?_, fun f hp hf => ?_⟩, fun h law hh => ⟨fun hp => ?_, fun hp => ?_⟩,
      fun law hf => (asks law).2.trans (if_neg (by simp [hf])), fun d hk hd => ?_, fun i hp hi => ?_,
      fun i r hi hr hk => ⟨fun hf => ?_, fun e rest hf hq => ?_⟩⟩⟩
    · have hf : x.isForward = true := (isForward_iff x).mpr (.inr hk)
      rw [cutOver_forward hf, hn]
      exact ⟨rfl, rfl, closes hf⟩
    · exact (lostUp h law).trans (upLost_nak h.2.2 h.2.1 hh hp)
    · rw [← fillByte_of_answer hf]
      exact (lostUp h law).trans (upLost_read h.2.2 h.2.1 hh hp)
    · exact (lostUp h law).trans (upLost_write_unheld h.2.2 h.2.1 hh hp)
    · exact (lostUp h law).trans (upLost_read_unheld h.2.2 h.2.1 hh hp)
    · rw [cutOver_discovery hk]
      obtain ⟨dir, pool, -⟩ := discoveryCut_only s k
      refine ⟨dir, pool, fun hc => ?_, fun hc => ?_⟩
      · have cut : s.discoveryCut k = s.putDiscovery k { d with onBus := none } := by
          unfold State.discoveryCut
          rw [hd]
          exact if_neg (by simp [hc])
        rw [cut, State.enterRecovering, engine_modEngine_self, putDiscovery_engine, if_pos rfl]
        exact ⟨rfl, rfl⟩
      · have cut : s.discoveryCut k = (s.putDiscovery k { d with onBus := none }).endDiscovery k .cancelled := by
          unfold State.discoveryCut
          rw [hd]
          exact if_pos hc
        rw [cut]
        exact (endDiscovery_ended s k { d with onBus := none } .cancelled).recovering
    · rw [cutOver_probe hp hi]
      refine ⟨fun hr => ?_, fun r hr => probeCut_recovering k x hr⟩
      rw [probeCut_free k x hr]
      exact probeOfFreeSlot_recovering s k
    · have isF : x.isForward = true := (isForward_iff x).mpr (.inl hf)
      obtain ⟨frame, left, pool⟩ := cutOver_forward_ends (k := k) isF hi hr
      exact ⟨frame, left, pool, fun law hn => (asks law).2.trans ((if_pos isF).trans (closes isF hn))⟩
    · rw [cutOver_delivery hf hi]
      by_cases again : e.retried = true ∨ (s.poolSeg k).purgeMark = true
      · obtain ⟨u, applied, ended, queue⟩ := deliveryOver_dropped k hr
        have freed := enterRecovering_freed (u.afterEnd i) k
        rw [deliveryCut_dropped hq again, ended]
        refine ⟨applied.endFrame freed, fun h hm => ?_, fun _ => ⟨applied.leftBehind freed, ?_⟩⟩
        · simp [h, hm] at again
        · rw [poolSeg_of_pool freed.pool, queue, hq]
          exact ⟨rfl, rfl⟩
      · obtain ⟨first, unmarked⟩ := not_or.mp again
        obtain ⟨u, applied, ended, queue⟩ := deliveryCut_retried hr hq (by simpa using first) (by simpa using unmarked)
        have freed := enterRecovering_freed (u.afterEnd i) k
        rw [ended]
        refine ⟨applied.endFrame freed, fun _ _ => ⟨applied.leftBehind freed, ?_⟩, fun c => absurd c again⟩
        rw [poolSeg_of_pool freed.pool, queue]

end Sys2Proof.Machine
end

section
namespace Sys2Proof.Machine

variable {s : State}

/-! ### The stall timer's start and stop (R59, R65) -/

theorem exec_stall_heldLow (hr : s.inReset = false) (k : Seg) : exec (.stall k .heldLow) s = .next (s.clockHeld k) :=
  congrArg Host.Outcome.next (live_running s hr fun s => s.clockHeld k)

theorem exec_stall_rises (hr : s.inReset = false) (k : Seg) : exec (.stall k .rises) s = .next (s.clockRises k) :=
  congrArg Host.Outcome.next (live_running s hr fun s => s.clockRises k)

theorem exec_stall_expires (hr : s.inReset = false) (k : Seg) (low : LowLines) :
    exec (.stall k (.expires low)) s = .next (s.takeStall k low) :=
  congrArg Host.Outcome.next (live_running s hr fun s => s.takeStall k low)

section
variable {k : Seg} {x : Tx}

theorem clockHeld_starts (hx : (s.engine k).tx = some x) (hs : (s.engine k).stall = none)
    (h : x.step ≠ .waitUp ∧ ∀ b, x.step ≠ .hold b) :
    s.clockHeld k = s.modEngine k fun e => { e with stall := s.stallStart } := by
  unfold State.clockHeld
  rw [hx, hs]
  exact if_pos ((BusStep.released_iff x.step).mpr h)

theorem clockHeld_ignored (hx : (s.engine k).tx = some x)
    (h : ¬(x.step ≠ .waitUp ∧ ∀ b, x.step ≠ .hold b) ∨ (s.engine k).stall ≠ none) : s.clockHeld k = s := by
  rcases clockHeld_cases s k with e | ⟨stopped, ⟨y, hy, released⟩, -⟩
  · exact e
  · cases hx.symm.trans hy
    exact absurd h (not_or.mpr ⟨not_not_intro ((BusStep.released_iff x.step).mp released), not_not_intro stopped⟩)

theorem clockHeld_noTx (hx : (s.engine k).tx = none) : s.clockHeld k = s := by
  unfold State.clockHeld
  rw [hx]

theorem clockRises_eq (s : State) (k : Seg) : s.clockRises k = s.setEng (s.eng.set k { s.engine k with
    tx := (s.engine k).tx.map fun t => { t with step := t.step.risen }, stall := none }) := rfl

theorem clockRises_noTx (hx : (s.engine k).tx = none) :
    s.clockRises k = s.setEng (s.eng.set k { s.engine k with stall := none }) := by
  have none : ((s.engine k).tx.map fun t => { t with step := t.step.risen }) = (s.engine k).tx := by rw [hx]; rfl
  rw [clockRises_eq, none]

/-- An engine that has a closing left by a restart gives it up at the closing's end (R76). -/
theorem exec_closingEnd (hx : (s.engine k).tx = some x) (hs : x.silent = true) (low : LowLines) :
    exec (.closingEnd k low) s = .next ((s.releaseBus k).settle low) := by
  have closing : s.closingSilently k = true := by
    unfold State.closingSilently
    rw [hx]
    exact hs
  exact congrArg Host.Outcome.next (if_pos closing)

theorem takeStall_noTx (hx : (s.engine k).tx = none) (low : LowLines) : s.takeStall k low = s := by
  unfold State.takeStall
  rw [hx]

/-- An expiry ends the transaction, or gives up a closing left by a restart (R65, R76). -/
theorem takeStall_running (hx : (s.engine k).tx = some x) (hs : (s.engine k).stall ≠ none) (low : LowLines) :
    s.takeStall k low = if x.silent = true then (s.releaseBus k).settle low
      else ((s.stallOver k x).enterRecovering k).conclude := by
  obtain ⟨timer, ht⟩ := Option.ne_none_iff_exists'.mp hs
  unfold State.takeStall
  rw [hx, ht]

/-! ### What a stall does by kind (R65, R84, R97, R121) -/

theorem stallOver_forward (hf : x.isForward = true) :
    s.stallOver k x = (s.setUp (s.upLost k x)).forwardOver x.slot true := by
  rw [← forwardLost_eq]
  unfold State.stallOver
  rcases (isForward_iff x).mp hf with e | e <;> rw [e]

theorem stallOver_delivery {i : Slot} (hk : x.kind = .delivery) (hi : x.slot = some i) :
    s.stallOver k x = s.deliveryOver k i true true := by
  unfold State.stallOver
  rw [hk, hi]

theorem stallOver_probe {i : Slot} (hp : x.isProbe = true) (hi : x.slot = some i) :
    s.stallOver k x = s.probeOver k x i .notAnswered := by
  unfold State.stallOver
  rcases (isProbe_iff x).mp hp with e | e <;> rw [e, hi]

theorem stallOver_discovery {d : Discovery} (hk : x.kind = .discoveryProbe) (hd : (s.engine k).discovery = some d) :
    s.stallOver k x = s.afterAddress k (d.finish x.target) := by
  unfold State.stallOver
  rw [hk]
  simp only [State.discoveryProbeOver, hd, Bool.false_eq_true, if_false]

theorem DiscoveryGoesOn.recovering {m : State} {f : Discovery} (h : DiscoveryGoesOn s m k f) :
    DiscoveryGoesOn s (m.enterRecovering k) k f := by
  obtain ⟨done, cancelled, on⟩ := h
  refine ⟨fun c => (done c).recovering, fun c g => (cancelled c g).recovering, fun c g => ?_⟩
  rw [State.enterRecovering, engine_modEngine_self]
  exact on c g

/-- The record of a FORWARD is at the engine's own segment, since the transaction owns its marker (R8). -/
theorem State.WorkLaw.forwardRecord (law : s.WorkLaw) (hx : s.onBus k x) (hf : x.isForward = true) {i : Slot}
    (hi : x.slot = some i) : ∃ r, s.recAt i = some r ∧ r.segment = k := by
  obtain ⟨htx, hsil⟩ := hx
  obtain ⟨-, slots, ⟨marks, owners, owning⟩, -⟩ := law
  have kind : x.kind = .forward := ((isForward_iff x).mp hf).resolve_right fun c => by
    have none := (slots k x htx).mpr (.inl c)
    rw [hi] at none
    cases none
  have owns := owning k x htx hsil (.inl kind)
  obtain ⟨j, r, hj, hr⟩ := owners k x htx owns
  cases hi.symm.trans hj
  exact ⟨r, hr, ((marks i r hr k .forward nofun).mp ⟨x, htx, hi, owns, hsil, by rw [kind]; rfl⟩).1⟩

/-- A forward that has stalled: charged, its marker cleared, and what waited done. -/
theorem stallOver_forward_ends {i : Slot} {r : Record} (hf : x.isForward = true) (hi : x.slot = some i)
    (hr : s.recAt i = some r) (hk : r.segment = k) :
    let q := { r with marker := .none }.charged s.hm.holdOff
    let m := (s.stallOver k x).enterRecovering k
    EndFrame s m k i ∧ LeftBehind s m i r q ∧ (q.state = r.state → m.pool = s.pool) ∧
    (q.state ≠ r.state → PurgedOf s m k i) ∧
    (s.RequestLaw → RequestAfter s (s.upLost k x) m k (LeavesFor i r q) False) := by
  intro q m
  subst hk
  have hrb : (s.setUp (s.upLost r.segment x)).recAt i = some r := hr
  obtain ⟨u, moved, ended⟩ := forwardOver_moved hrb true
  have applied := OutcomeApplied.of_moved moved hrb (r.ended_kept true _).1
  have freed := enterRecovering_freed (u.afterEnd i) r.segment
  have stalled : s.stallOver r.segment x = u.afterEnd i := by rw [stallOver_forward hf, hi, ended]
  have hm : m = (u.afterEnd i).enterRecovering r.segment := congrArg (State.enterRecovering · r.segment) stalled
  obtain ⟨stays, purges⟩ := forwardOver_pool hrb true (n := m) (by rw [hm, ended]; rfl)
  refine ⟨?_, ?_, stays, purges, fun law => ?_⟩
  · exact hm ▸ (applied.endFrame freed).ofLost
  · exact hm ▸ applied.leftBehind freed
  · exact hm ▸ (applied.requestLeft law).recovering

end

/-- Settles O48: the timer starts, stops or expires; then the transaction ends by its kind and the engine recovers. -/
theorem stallEndsTheTransaction : Obligations.StallEndsTheTransaction := by
  unfold Obligations.StallEndsTheTransaction
  intro k low s x hres released
  have held := exec_stall_heldLow hres k
  have rises := exec_stall_rises hres k
  have expires := exec_stall_expires hres k low
  refine ⟨fun hx => ⟨fun hrel hs => ?_, fun h => ?_, ?_, fun hs => ?_, fun hsil hs => ?_⟩,
    fun hx => ⟨?_, ?_, ?_⟩, fun hx hs => ?_⟩
  · rw [held, clockHeld_starts hx hs hrel]
    rfl
  · rw [held, clockHeld_ignored hx h]
  · rw [rises, clockRises_eq, hx]
    rfl
  · rw [expires, takeStall_stopped s k low hs]
  · rw [expires, takeStall_running hx hs, if_pos hsil, exec_closingEnd hx hsil]
  · rw [held, clockHeld_noTx hx]
  · rw [expires, takeStall_noTx hx]
  · rw [rises, clockRises_noTx hx]
    rfl
  · intro relayed closed
    obtain ⟨htx, hsil⟩ := id hx
    rw [takeStall_running htx hs, if_neg (by simp [hsil])] at expires
    have closes : x.isForward = true → ¬relayed → s.upLost k x = closed := fun hf hn =>
      upLost_unrelayed fun c => hn ⟨hf, c.2, c.1⟩
    have lostUp : relayed → s.WorkLaw → (s.engine k).request = none →
        ((s.stallOver k x).enterRecovering k).up = s.upLost k x := fun h law hn => by
      obtain ⟨hf, -⟩ := h
      cases hi : x.slot with
      | none => rw [stallOver_forward hf, hi]; rfl
      | some i =>
        obtain ⟨r, hr, hk⟩ := law.forwardRecord hx hf hi
        obtain ⟨-, -, -, -, request⟩ := stallOver_forward_ends hf hi hr hk
        exact (request law.2.2.2.2.1).of_none hn
    refine ⟨_, expires, (stallOver_keepsFlags s k k x).recovers, fun hk hn => ?_,
      fun h law hn hh => ⟨fun hp => ?_, fun f hp hf => ?_⟩, fun h law hn hh hp => ?_, fun d hk hd => ?_,
      fun i hp hi => ⟨fun hr => ?_, fun r hr => ?_⟩, fun i r hi hr hk => ⟨fun hf => ?_, fun e rest hf hq => ?_⟩⟩
    · have hf : x.isForward = true := (isForward_iff x).mpr (.inr hk)
      rw [stallOver_forward hf, hn]
      refine ⟨rfl, rfl, fun c => closes hf c ▸ ?_⟩
      exact (RequestAfter.of_same (s := s.setUp (s.upLost k x)) rfl rfl fun _ _ => id).recovering
    · exact (lostUp h law hn).trans (upLost_nak h.2.2 h.2.1 hh hp)
    · rw [← fillByte_of_answer hf]
      exact (lostUp h law hn).trans (upLost_read h.2.2 h.2.1 hh hp)
    · exact (lostUp h law hn).trans (upLost_read_unheld h.2.2 h.2.1 hh hp)
    · rw [stallOver_discovery hk hd]
      obtain ⟨dir, pool, up, au, engine⟩ := afterAddress_only s k (d.finish x.target)
      refine ⟨dir, pool, up, au, ?_, ?_, (afterAddress_goesOn s k (d.finish x.target)).recovering⟩
      · rw [State.enterRecovering, engine_modEngine_self, engine]
        rfl
      · rw [State.enterRecovering, engine_modEngine_self, engine]
        rfl
    · rw [stallOver_probe hp hi, probeOver_free k x i _ hr]
      exact probeOfFreeSlot_recovering s k
    · rw [stallOver_probe hp hi]
      by_cases ha : ProbeApplies x k r
      · obtain ⟨frame, applied⟩ := probeApplied_recovering hr ha .notAnswered rfl
        exact ⟨frame, fun c => absurd ha c, fun _ => applied⟩
      · obtain ⟨frame, discarded⟩ := probeDiscarded_recovering hr ha .notAnswered
        exact ⟨frame, fun _ => discarded, fun c => absurd c ha⟩
    · have isF : x.isForward = true := (isForward_iff x).mpr (.inl hf)
      obtain ⟨frame, left, stays, purges, request⟩ := stallOver_forward_ends isF hi hr hk
      refine ⟨frame, ⟨left, fun law hn => ?_⟩, stays, purges⟩
      rw [if_pos isF, ← closes isF hn]
      exact request law.2.2.2.2.1
    · have notF : ¬x.isForward = true := fun c => by rcases (isForward_iff x).mp c with g | g <;> simp [hf] at g
      obtain ⟨u, applied, ended, mark, queue⟩ := deliveryOver_charged hr hk ((deliveryOnBus_iff k).mpr ⟨x, htx, hf, hsil⟩)
      have freed := enterRecovering_freed (u.afterEnd i) k
      rw [stallOver_delivery hf hi, ended, if_neg notF, poolSeg_of_pool freed.pool, hq] at *
      exact ⟨applied.endFrame freed, ⟨applied.leftBehind freed, fun law _ => (applied.requestLeft law.2.2.2.2.1).recovering⟩,
        mark, queue⟩

end Sys2Proof.Machine
end

section
namespace Sys2Proof.Machine

variable {s : State}

/-! ### Slots that become FREE in one event, of those asked after (R24, R89) -/

/-- A RETIRING record owes nothing: no transaction on the bus, no queued entry (R24). -/
def State.OwesNothing (s : State) (i : Slot) (r : Record) : Prop :=
  r.state = .retiring ∧ r.marker = .none ∧ s.hasQueued r.segment i = false

theorem retireCheck_frees {i : Slot} {r : Record} (hr : s.recAt i = some r) (h : s.OwesNothing i r) :
    s.retireCheck i = s.freeSlot i := by
  unfold State.retireCheck
  rw [hr]
  exact if_pos h

theorem retireCheck_stays {i : Slot} (h : ∀ r, s.recAt i = some r → ¬s.OwesNothing i r) : s.retireCheck i = s := by
  cases hr : s.recAt i with
  | none => exact retireCheck_free i hr
  | some r =>
    unfold State.retireCheck
    rw [hr]
    exact if_neg (h r hr)

/-- The slot a long operation waits on, if it waits on one. -/
def LongWork.names (w : LongWork) (i : Slot) : Prop := (∃ n, w = .retire i n) ∨ ∃ b, w = .probe i b

/-- No request waits for a RETIRING record, since requests are for BOUND ones (R42). -/
def State.RetiringUnasked (s : State) : Prop := ∀ i r, s.recAt i = some r → r.state = .retiring → s.Unasked i

/-- From `s` to `m` some slots of RETIRING records have become FREE, and nothing else has happened. -/
structure OnlyFrees (s m : State) : Prop where
  records : ∀ i, m.recAt i = s.recAt i ∨ m.recAt i = none ∧ ∃ r, s.recAt i = some r ∧ r.state = .retiring
  engines : ∀ j, m.engine j = { s.engine j with
    tx := (m.engine j).tx, request := (m.engine j).request, probeQueue := (m.engine j).probeQueue }
  noTx : ∀ j, (s.engine j).tx = none → (m.engine j).tx = none
  noRequest : ∀ j, (s.engine j).request = none → (m.engine j).request = none
  fewer : ∀ j, (m.engine j).probeQueue ⊆ (s.engine j).probeQueue
  waits : ∀ j, ∀ i ∈ (s.engine j).probeQueue, m.recAt i = s.recAt i → i ∈ (m.engine j).probeQueue
  pool : m.pool = s.pool
  ops : OpsKept s m fun op => op.answer ≠ none ∨ ∀ i, op.work.names i → m.recAt i = s.recAt i
  rest : KeepsRest s m
  asks : s.RetiringUnasked → m.up = s.up ∧ ∀ j, (m.engine j).request = (s.engine j).request

theorem OnlyFrees.refl (s : State) : OnlyFrees s s :=
  ⟨fun _ => .inl rfl, fun _ => rfl, fun _ => id, fun _ => id, fun _ _ => id, fun _ _ hi _ => hi, rfl, .of_dc rfl _,
    .refl s, fun _ => ⟨rfl, fun _ => rfl⟩⟩

section
variable {m n : State} {i : Slot} {r : Record}

/-- A record that is there at the end was there before. -/
theorem OnlyFrees.same (h : OnlyFrees s m) (g : OnlyFrees m n) (e : n.recAt i = s.recAt i) : m.recAt i = s.recAt i := by
  rcases h.records i with c | ⟨gone, q, hq, -⟩
  · exact c
  · rcases g.records i with c | ⟨-, q', hq', -⟩
    · exact c.symm.trans e
    · rw [gone] at hq'
      cases hq'

theorem OnlyFrees.retiringUnasked (h : OnlyFrees s m) (quiet : s.RetiringUnasked) : m.RetiringUnasked := by
  intro i r hr hret k w hw
  rw [(h.asks quiet).2] at hw
  rcases h.records i with c | ⟨gone, -⟩
  · exact quiet i r (c ▸ hr) hret k w hw
  · rw [gone] at hr
    cases hr

theorem OnlyFrees.trans (h : OnlyFrees s m) (g : OnlyFrees m n) : OnlyFrees s n where
  records i := by
    rcases g.records i with c | ⟨gone, r, hr, hret⟩
    · rw [c]
      exact h.records i
    · rcases h.records i with c' | ⟨gone', -⟩
      · exact .inr ⟨gone, r, c' ▸ hr, hret⟩
      · rw [gone'] at hr
        cases hr
  engines j := by
    have e := g.engines j
    rw [h.engines j] at e
    exact e
  noTx j := g.noTx j ∘ h.noTx j
  noRequest j := g.noRequest j ∘ h.noRequest j
  fewer j := List.Subset.trans (g.fewer j) (h.fewer j)
  waits j i hi e := by
    have c := h.same g e
    exact g.waits j i (h.waits j i hi c) (e.trans c.symm)
  pool := g.pool.trans h.pool
  ops op ho c := by
    refine g.ops op (h.ops op ho (c.imp_right fun d i hi => h.same g (d i hi))) (c.imp_right fun d i hi => ?_)
    exact (d i hi).trans (h.same g (d i hi)).symm
  rest := h.rest.trans g.rest
  asks quiet := by
    obtain ⟨up, requests⟩ := h.asks quiet
    obtain ⟨up', requests'⟩ := g.asks (h.retiringUnasked quiet)
    exact ⟨up'.trans up, fun j => (requests' j).trans (requests j)⟩

theorem freeSlot_onlyFrees (hr : s.recAt i = some r) (hret : r.state = .retiring) : OnlyFrees s (s.freeSlot i) := by
  have engine := freeSlot_engine s i r hr
  have other : ∀ j, j ≠ i → (s.freeSlot i).recAt j = s.recAt j := fun j hj => by rw [freeSlot_recAt, if_neg (Ne.symm hj)]
  have here : (s.freeSlot i).recAt i ≠ s.recAt i := by rw [freeSlot_recAt, if_pos rfl, hr]; simp
  refine ⟨fun j => ?_, fun j => ?_, fun j hx => ?_, fun j hq => ?_, fun j => ?_, fun j l hl e => ?_, by simp, fun op ho c => ?_,
    freeSlot_keepsRest s i, fun quiet => freeSlot_unasked (quiet i r hr hret)⟩
  · by_cases hj : j = i
    · subst hj
      exact .inr ⟨by rw [freeSlot_recAt, if_pos rfl], r, hr, hret⟩
    · exact .inl (other j hj)
  · rw [engine]
    rfl
  · rw [engine]
    simp [Engine.forgetSlot, hx]
  · rw [engine]
    split <;> simp [hq]
  · rw [engine]
    exact List.filter_subset_self _
  · rw [engine]
    refine List.mem_filter.mpr ⟨hl, ?_⟩
    have ne : l ≠ i := fun c => here (c ▸ e)
    simpa using ne
  · refine freeSlot_kept s i op ho (c.imp_right fun d => ⟨fun n hw => ?_, fun b hw => ?_⟩)
    · exact here (d i (.inl ⟨n, hw⟩))
    · exact here (d i (.inr ⟨b, hw⟩))

theorem retireCheck_onlyFrees (s : State) (i : Slot) : OnlyFrees s (s.retireCheck i) := by
  by_cases h : ∃ r, s.recAt i = some r ∧ s.OwesNothing i r
  · obtain ⟨r, hr, owes⟩ := h
    rw [retireCheck_frees hr owes]
    exact freeSlot_onlyFrees hr owes.1
  · rw [retireCheck_stays fun r hr c => h ⟨r, hr, c⟩]
    exact .refl s

theorem retireChecks_onlyFrees (s : State) (es : List Entry) : OnlyFrees s (s.retireChecks es) := by
  induction es generalizing s with
  | nil => exact .refl s
  | cons e rest ih => exact (retireCheck_onlyFrees s e.slot).trans (ih _)

/-! ### A slot that has become FREE stays so (R12) -/

/-- What a FREE slot asks of the rest of the event: nothing takes it, and the answers given stay. -/
theorem FreedFrom.later (h : FreedFrom s m i r) (gone : n.recAt i = none) (index : n.lookupAlias r.aliasAddr = none)
    (changed : m.au.changed[i.val] = true → n.au.changed[i.val] = true)
    (fewer : ∀ j, (n.engine j).probeQueue ⊆ (m.engine j).probeQueue)
    (answered : OpsKept m n fun op => op.answer ≠ none) : FreedFrom s n i r := by
  obtain ⟨-, -, marked, queues, retires, probes⟩ := h
  exact ⟨gone, index, changed marked, fun j c => queues j (fewer j c), fun k => (retires k).kept answered,
    probes.kept answered⟩

theorem retireCheck_lookupAlias {a : Addr} (h : s.lookupAlias a = none) (j : Slot) :
    (s.retireCheck j).lookupAlias a = none := by
  by_cases c : ∃ q, s.recAt j = some q ∧ s.OwesNothing j q
  · obtain ⟨q, hq, owes⟩ := c
    rw [retireCheck_frees hq owes, freeSlot_lookupAlias s j q hq, h, ite_self]
  · rw [retireCheck_stays fun q hq g => c ⟨q, hq, g⟩]
    exact h

theorem retireChecks_lookupAlias {a : Addr} (h : s.lookupAlias a = none) (es : List Entry) :
    (s.retireChecks es).lookupAlias a = none := by
  induction es generalizing s with
  | nil => exact h
  | cons e rest ih => exact ih (retireCheck_lookupAlias h e.slot)

theorem FreedFrom.retireChecks (h : FreedFrom s m i r) (es : List Entry) : FreedFrom s (m.retireChecks es) i r := by
  obtain ⟨gone, index, -⟩ := id h
  have frees := retireChecks_onlyFrees m es
  refine h.later ?_ (retireChecks_lookupAlias index es) (frees.rest.changed i) frees.fewer
    (frees.ops.imp fun _ c => .inl c)
  rcases frees.records i with c | ⟨c, -⟩
  · exact c.trans gone
  · exact c

/-- What a record owes does not depend on other slots' becoming FREE. -/
theorem OnlyFrees.owesNothing (h : OnlyFrees s m) : m.OwesNothing i r ↔ s.OwesNothing i r := by
  unfold State.OwesNothing
  rw [State.hasQueued_of_pool h.pool]

/-- Of the slots asked after, the checks free those whose record owes nothing (R24). -/
theorem retireChecks_frees {es : List Entry} (hr : s.recAt i = some r) (owes : s.OwesNothing i r)
    (hi : ∃ e ∈ es, e.slot = i) : FreedFrom s (s.retireChecks es) i r := by
  induction es generalizing s with
  | nil => obtain ⟨e, he, -⟩ := hi; cases he
  | cons e rest ih =>
    by_cases here : e.slot = i
    · have freed := (freeSlot_freedFrom s i r hr).retireChecks rest
      rw [← retireCheck_frees hr owes] at freed
      subst here
      exact freed
    · have step := retireCheck_onlyFrees s e.slot
      have stays : (s.retireCheck e.slot).recAt i = s.recAt i := retireCheck_recAt_other s here
      have later : ∃ e ∈ rest, e.slot = i := by
        obtain ⟨f, hf, hs⟩ := hi
        rcases List.mem_cons.mp hf with rfl | hf
        · exact absurd hs here
        · exact ⟨f, hf, hs⟩
      refine (ih (stays.trans hr) (step.owesNothing.mpr owes) later).before rfl fun op ho c => step.ops op ho (.inr ?_)
      rintro j (⟨n, hj⟩ | ⟨b, hj⟩) <;> rcases c.2 with ⟨n', hc⟩ | hc <;> rw [hj] at hc <;> cases hc <;> exact stays

/-- They leave every other record. -/
theorem retireChecks_stays {es : List Entry} (h : ∀ r, s.recAt i = some r → s.OwesNothing i r → ∀ e ∈ es, e.slot ≠ i) :
    (s.retireChecks es).recAt i = s.recAt i := by
  induction es generalizing s with
  | nil => rfl
  | cons e rest ih =>
    have step := retireCheck_onlyFrees s e.slot
    have stays : (s.retireCheck e.slot).recAt i = s.recAt i := by
      by_cases here : e.slot = i
      · rw [← here, retireCheck_stays fun r hr c => h r (here ▸ hr) (here ▸ c) e (by simp) here]
      · exact retireCheck_recAt_other s here
    refine (ih fun r hr owes f hf => ?_).trans stays
    exact h r (stays ▸ hr) (step.owesNothing.mp owes) f (by simp [hf])

end

/-! ### Refused probe requests (R71, R98) -/

section
variable {es : List Slot} {i : Slot}

/-- A record whose probe request is refused. -/
def Record.refused (holdOff : Nat) (r : Record) : Record :=
  { r with holdOff := if r.state = .quarantined then holdOff else r.holdOff }

theorem refuseProbe_recAt (s : State) (i j : Slot) :
    (s.refuseProbe i).recAt j = if i = j then (s.recAt i).map (Record.refused s.hm.holdOff) else s.recAt j := by
  have e : ∀ r : Record, (if r.state = .quarantined then { r with holdOff := s.hm.holdOff } else r) =
      r.refused s.hm.holdOff := fun r => by unfold Record.refused; split <;> rfl
  unfold State.refuseProbe
  simp only [e]
  exact recAt_modRec s i j _

theorem refuseProbes_recAt (s : State) (es : List Slot) (j : Slot) :
    (s.refuseProbes es).recAt j = if j ∈ es then (s.recAt j).map (Record.refused s.hm.holdOff) else s.recAt j := by
  induction es generalizing s with
  | nil => rfl
  | cons i rest ih =>
    have hm : (s.refuseProbe i).hm = s.hm := by simp [State.refuseProbe]
    have twice : ∀ r : Record, (r.refused s.hm.holdOff).refused s.hm.holdOff = r.refused s.hm.holdOff := fun r => by
      unfold Record.refused; dsimp only; split <;> rfl
    refine (ih _).trans ?_
    rw [refuseProbe_recAt, hm]
    by_cases e : i = j
    · subst e
      cases s.recAt i <;> simp [twice]
    · simp [e, Ne.symm e]

theorem refuseProbe_aliasIndex (s : State) (i : Slot) : (s.refuseProbe i).dir.aliasIndex = s.dir.aliasIndex := by
  unfold State.refuseProbe State.modRec
  split <;> rfl

theorem refuseProbes_aliasIndex (s : State) (es : List Slot) :
    (s.refuseProbes es).dir.aliasIndex = s.dir.aliasIndex := by
  induction es generalizing s with
  | nil => rfl
  | cons i rest ih => exact (ih _).trans (refuseProbe_aliasIndex s i)

theorem refuseProbe_kept (s : State) (i : Slot) :
    OpsKept s (s.refuseProbe i) fun op => op.answer ≠ none ∨ op.work ≠ .probe i false := by
  refine OpsKept.trans (.of_dc ?_ _) ((settleOps_kept _ _).imp fun op h => h.imp_right fun c => if_neg c)
  unfold State.modRec
  split <;> rfl

theorem refuseProbes_kept (s : State) (es : List Slot) :
    OpsKept s (s.refuseProbes es) fun op => op.answer ≠ none ∨ ∀ i ∈ es, op.work ≠ .probe i false := by
  induction es generalizing s with
  | nil => exact .of_dc rfl _
  | cons i rest ih =>
    intro op ho c
    exact ih _ op (refuseProbe_kept s i op ho (c.imp_right fun d => d i (by simp)))
      (c.imp_right fun d j hj => d j (by simp [hj]))

theorem refuseProbe_answers (s : State) (i : Slot) : Answered s (s.refuseProbe i) (fun w => w = .probe i false)
    fun op => ⟨.probe, op.tag, .segmentFault, []⟩ := by
  refine Answered.of_dc ?_ (settleOps_answers _ _ _ _ fun op hw => if_pos hw)
  unfold State.modRec
  split <;> rfl

theorem refuseProbes_answers (s : State) (hi : i ∈ es) : Answered s (s.refuseProbes es) (fun w => w = .probe i false)
    fun op => ⟨.probe, op.tag, .segmentFault, []⟩ := by
  induction es generalizing s with
  | nil => cases hi
  | cons j rest ih =>
    by_cases e : j = i
    · subst e
      exact (refuseProbe_answers s j).kept ((refuseProbes_kept _ rest).imp fun _ c => .inl c)
    · refine Answered.after ((refuseProbe_kept s j).imp fun op c => .inr ?_) (ih _ ((List.mem_cons.mp hi).resolve_left
        (Ne.symm e)))
      rw [c.1]
      exact fun c => e (by cases c; rfl)

end

end Sys2Proof.Machine
end

section
namespace Sys2Proof.Machine

variable {s : State}

/-! ### An attempt that frees the bus (R70, R73, R96) -/

section
variable {k : Seg}

theorem attemptRuns_of (hs : (s.engine k).state = .recovering) (ha : (s.engine k).attempt = none) :
    s.attemptRuns k = true := by
  simp [State.attemptRuns, hs, ha]

theorem exec_recoveryAttemptSucceeds (hs : (s.engine k).state = .recovering) (ha : (s.engine k).attempt = none)
    (low : LowLines) : exec (.recoveryAttemptSucceeds k low) s = .next ((s.attemptSucceeds k).settle low) :=
  congrArg Host.Outcome.next (if_pos (attemptRuns_of hs ha))

theorem exec_recoveryAttemptFails (hs : (s.engine k).state = .recovering) (ha : (s.engine k).attempt = none) :
    exec (.recoveryAttemptFails k) s = .next ((s.attemptFails k).conclude) :=
  congrArg Host.Outcome.next (if_pos (attemptRuns_of hs ha))

/-- The attempt is over, and the segment's fault marks show it (R70). -/
def State.recovered (s : State) (k : Seg) : State :=
  (s.modEngine k fun e => { e with attemptCount := 0, attempt := none }).markFault k fun m => { m with recovered := true }

theorem recovered_engine (s : State) (k j : Seg) : (s.recovered k).engine j =
    if j = k then { s.engine k with attemptCount := 0, attempt := none } else s.engine j :=
  engine_modEngine s k j fun e => { e with attemptCount := 0, attempt := none }

/-- The engine enters PAUSED, or IDLE with or without the RESUME that began the recovery. -/
theorem attemptSucceeds_eq (s : State) (k : Seg) : s.attemptSucceeds k =
    if (s.engine k).pausePending = true then (s.recovered k).enterPaused k
    else if (s.engine k).resumeWaiting = true then (s.recovered k).resumeRecovered k
    else (s.recovered k).modEngine k fun e => { e with state := .idle } := by
  have engine := recovered_engine s k k
  rw [if_pos rfl] at engine
  have pause : ((s.recovered k).engine k).pausePending = (s.engine k).pausePending := by rw [engine]
  have resume : ((s.recovered k).engine k).resumeWaiting = (s.engine k).resumeWaiting := by rw [engine]
  rw [← pause, ← resume]
  rfl

/-- Requests for slots of this segment join its probe queue in their order, each unless it is queued (R56). -/
theorem requestProbes_queued {es : List Slot} (distinct : es.Nodup)
    (homes : ∀ i ∈ es, ∃ r, s.recAt i = some r ∧ r.segment = k) (hk : (s.engine k).state ≠ .failed) :
    s.requestProbes es = s.modEngine k fun e => { e with
      probeQueue := e.probeQueue ++ es.filter fun i => decide (i ∉ e.probeQueue) } := by
  induction es generalizing s with
  | nil =>
    refine (modEngine_same ?_).symm
    simp
  | cons i rest ih =>
    obtain ⟨new, distinct⟩ := List.nodup_cons.mp distinct
    obtain ⟨r, hr, rfl⟩ := homes i (by simp)
    have here := requestProbe_eq s i r hr hk
    have after : ((s.modEngine r.segment (Engine.enqueueProbe i)).engine r.segment).state ≠ .failed := by
      rw [engine_modEngine_self]
      exact hk
    refine (congrArg (State.requestProbes · rest) here).trans ?_
    rw [ih (s := s.modEngine r.segment (Engine.enqueueProbe i)) distinct (fun j hj => homes j (by simp [hj])) after,
      modEngine_modEngine]
    refine modEngine_agree ?_
    generalize s.engine r.segment = e
    have same : ∀ j ∈ rest, decide (j ∉ (e.enqueueProbe i).probeQueue) = decide (j ∉ e.probeQueue) := fun j hj => by
      have ne : j ≠ i := fun c => new (c ▸ hj)
      unfold Engine.enqueueProbe
      dsimp only
      split <;> simp [ne]
    have queue : (e.enqueueProbe i).probeQueue ++ rest.filter (fun j => decide (j ∉ (e.enqueueProbe i).probeQueue)) =
        e.probeQueue ++ (i :: rest).filter fun j => decide (j ∉ e.probeQueue) := by
      rw [List.filter_congr same]
      unfold Engine.enqueueProbe
      by_cases hi : i ∈ e.probeQueue <;> simp [hi]
    rw [queue]
    rfl

theorem pendingSlots_iff (p : Record → Bool) (i : Slot) :
    i ∈ s.pendingSlots p ↔ ∃ r, s.recAt i = some r ∧ r.state = .pending ∧ p r = true := by
  refine ⟨pendingSlots_mem s p i, fun ⟨r, hr, hp, hpr⟩ => List.mem_filter.mpr ⟨mem_allSlots i, ?_⟩⟩
  rw [hr]
  simp [hp, hpr]

theorem pendingSlots_ascending (s : State) (p : Record → Bool) : (s.pendingSlots p).Pairwise (· < ·) :=
  List.Pairwise.filter _ (List.pairwise_lt_finRange 48)

/-- The end of a recovery begun by RESUME asks for a probe of every PENDING record of the segment (R70, R96). -/
theorem resumeRecovered_eq (s : State) (k : Seg) :
    ∃ more, s.resumeRecovered k = ((s.modEngine k fun e => { e with state := .idle, resumeWaiting := false }).answerResume k
        .done).modEngine k (fun e => { e with probeQueue := e.probeQueue ++ more }) ∧ more.Pairwise (· < ·) ∧
      ∀ i, i ∈ more ↔ i ∉ (s.engine k).probeQueue ∧ ∃ r, s.recAt i = some r ∧ r.state = .pending ∧ r.segment = k := by
  let u := (s.modEngine k fun e => { e with state := .idle, resumeWaiting := false }).answerResume k .done
  have engine : u.engine k = { s.engine k with state := .idle, resumeWaiting := false } :=
    engine_modEngine_self s k fun e => { e with state := .idle, resumeWaiting := false }
  have homes : ∀ i, i ∈ u.pendingSlots (fun r => r.segment == k) ↔
      ∃ r, s.recAt i = some r ∧ r.state = .pending ∧ r.segment = k := fun i => by
    rw [pendingSlots_iff]
    simp only [beq_iff_eq]
    rfl
  have ascending := pendingSlots_ascending u fun r => r.segment == k
  refine ⟨(u.pendingSlots fun r => r.segment == k).filter fun i => decide (i ∉ (s.engine k).probeQueue), ?_,
    ascending.filter _, fun i => ?_⟩
  · have queued := requestProbes_queued (s := u) (k := k) (es := u.pendingSlots fun r => r.segment == k)
      (ascending.imp fun h => ne_of_lt h)
      (fun i hi => by obtain ⟨r, hr, -, hk⟩ := (homes i).mp hi; exact ⟨r, hr, hk⟩) (by rw [engine]; simp)
    refine queued.trans (modEngine_agree ?_)
    rw [engine]
  · rw [List.mem_filter, homes, decide_eq_true_eq]
    exact and_comm

theorem answerResume_answers (s : State) (k : Seg) (code : ResultCode) :
    Answered s (s.answerResume k code) (fun w => w = .resume k) fun op => ⟨.resume, op.tag, code, []⟩ :=
  settleOps_answers s _ _ _ fun _ hw => if_pos hw

theorem answerPause_answers (s : State) (k : Seg) (code : ResultCode) :
    Answered s (s.answerPause k code) (fun w => w = .pause k) fun op => ⟨.pause, op.tag, code, []⟩ :=
  settleOps_answers s _ _ _ fun _ hw => if_pos hw

theorem answerResume_kept (s : State) (k : Seg) (code : ResultCode) :
    OpsKept s (s.answerResume k code) fun op => op.answer ≠ none ∨ op.work ≠ .resume k :=
  (settleOps_kept s _).imp fun _ h => h.imp_right fun c => if_neg c

theorem answerPause_kept (s : State) (k : Seg) (code : ResultCode) :
    OpsKept s (s.answerPause k code) fun op => op.answer ≠ none ∨ op.work ≠ .pause k :=
  (settleOps_kept s _).imp fun _ h => h.imp_right fun c => if_neg c

end

/-! ### The third failure (R71, R89, R98, R145) -/

section
variable {k : Seg} {i : Slot} {r : Record}

theorem undeliveredClaims_changed {es : List Entry} (hr : s.recAt i = some r) (hu : r.undelivered < 255)
    (hi : ∃ e ∈ es, e.slot = i) : (s.undeliveredClaims es).au.changed[i.val] = true := by
  induction es generalizing s with
  | nil => obtain ⟨e, he, -⟩ := hi; cases he
  | cons e rest ih =>
    by_cases here : e.slot = i
    · have marked : (s.undeliveredClaim e.slot).au.changed[i.val] = true := by
        rw [here, undeliveredClaim_counted hr hu]
        exact markChanged_self _ i
      exact (undeliveredClaims_keepsRest _ rest).changed i marked
    · refine ih (s := s.undeliveredClaim e.slot) ?_ ?_
      · rw [undeliveredClaim_recAt, if_neg here, hr]
      · obtain ⟨f, hf, hs⟩ := hi
        rcases List.mem_cons.mp hf with rfl | hf
        · exact absurd hs here
        · exact ⟨f, hf, hs⟩

/-- The engine has failed, and its request is withdrawn (R42, R71). -/
def State.failure (s : State) (k : Seg) : State :=
  ((s.modEngine k fun e => { e with attemptCount := e.attemptCount + 1, attempt := some ⟨10, 0⟩ }).failing k).withdraw k
    .standIn

/-- Its entries are purged, each with its claim (R89). -/
def State.failurePurged (s : State) (k : Seg) : State := (s.failure k).purge k fun _ => true

/-- Retirements that the purge ends have freed their slots (R24). -/
def State.failureRetired (s : State) (k : Seg) : State :=
  (s.failurePurged k).retireChecks ((s.failure k).purgeable k fun _ => true)

theorem failure_engine (s : State) (k j : Seg) : (s.failure k).engine j = if j = k then { s.engine k with
      state := .failed, attemptCount := (s.engine k).attemptCount + 1, attempt := none, stall := none, tx := none,
      pausePending := false, resumeWaiting := false, request := none } else s.engine j := by
  unfold State.failure State.failing
  rw [withdraw_engine, engine_modEngine_self, engine_modEngine_self]
  split
  · rfl
  · rename_i h
    rw [engine_modEngine_other _ h, engine_modEngine_other _ h]

theorem failure_keepsRest (s : State) (k : Seg) : KeepsRest s (s.failure k) :=
  ((modEngine_keepsRest s k _).trans (modEngine_keepsRest _ k _)).trans (withdraw_keepsRest _ k .standIn)

theorem failure_requestAfter (s : State) (k : Seg) : RequestAfter s s.up (s.failure k) k (fun _ => True) False := by
  have w := withdraw_request ((s.modEngine k fun e => { e with
    attemptCount := e.attemptCount + 1, attempt := some ⟨10, 0⟩ }).failing k) k .standIn
  rw [show (Withdrawal.standIn = .nak) = False by simp] at w
  refine w.ofSame (s := s) ?_
  rw [State.failing, engine_modEngine_self, engine_modEngine_self]

theorem failure_blocks (s : State) (k : Seg) :
    (s.failure k).dir = s.dir ∧ (s.failure k).pool = s.pool ∧ (s.failure k).dc = s.dc ∧ (s.failure k).au = s.au := by
  simp [State.failure, State.failing]

/-- With no transaction on the bus every entry of the segment waits, and the purge takes it (R89). -/
theorem failure_purgeable (htx : (s.engine k).tx = none) :
    ((s.failure k).purgeable k fun _ => true) = s.waitingEntries k := by
  have engine := failure_engine s k k
  rw [if_pos rfl] at engine
  have pool := (failure_blocks s k).2.1
  unfold State.purgeable
  rw [waitingEntries_of (s := s) (by rw [engine, htx]) (by rw [poolSeg_of_pool pool])]
  exact List.filter_eq_self.mpr fun _ _ => rfl

theorem failurePurged_recAt (htx : (s.engine k).tx = none) (i : Slot) : (s.failurePurged k).recAt i =
    (s.recAt i).map fun r => { r with undelivered := moreLost r.undelivered (s.purged k i).length } := by
  unfold State.failurePurged
  rw [purge_recAt, failure_purgeable htx, recAt_of_dir (failure_blocks s k).1]
  rfl

theorem failurePurged_blocks (s : State) (k : Seg) : (s.failurePurged k).eng = (s.failure k).eng ∧
    (s.failurePurged k).up = (s.failure k).up ∧ (s.failurePurged k).dc = s.dc := by
  have dc := (failure_blocks s k).2.2.1
  refine ⟨by simp [State.failurePurged], by simp [State.failurePurged], ?_⟩
  rw [← dc]
  simp [State.failurePurged]

theorem failurePurged_queue (s : State) (k j : Seg) : ((s.failurePurged k).poolSeg k).queue = [] ∧
    (j ≠ k → (s.failurePurged k).poolSeg j = s.poolSeg j) := by
  have pool := (failure_blocks s k).2.1
  have engine := failure_engine s k k
  rw [if_pos rfl] at engine
  have off : (s.failure k).deliveryOnBus k = false := by
    unfold State.deliveryOnBus
    rw [engine]
  unfold State.failurePurged
  refine ⟨?_, fun hj => ?_⟩
  · rw [purge_queue]
    simp [State.busEntries, off]
  · rw [purge_poolSeg, if_neg hj, poolSeg_of_pool pool]

end

end Sys2Proof.Machine
end

section
namespace Sys2Proof.Machine

variable {s : State}

/-! ### The probe requests, the discovery and the commands of a segment that has failed (R71, R98, R145) -/

section
variable {g m : State} {k : Seg} {i : Slot} {r : Record}

/-- The probe requests of segment `k` refused, its discovery ended, and its PAUSE and RESUME answered. -/
def State.failureAnswered (g : State) (k : Seg) : State :=
  (((((g.modEngine k fun e => { e with probeQueue := [] }).refuseProbes (g.engine k).probeQueue).endDiscovery k
    .segmentFault).answerPause k .segmentFault).answerResume k .segmentFault).markFault k fun m => { m with failed := true }

/-- From `g` to `m` segment `k` has given up its probe requests and its discovery, and refused what waited. -/
structure FailureAnswered (g m : State) (k : Seg) : Prop where
  records : ∀ i, m.recAt i =
    if i ∈ (g.engine k).probeQueue then (g.recAt i).map (Record.refused g.hm.holdOff) else g.recAt i
  index : m.dir.aliasIndex = g.dir.aliasIndex
  pool : m.pool = g.pool
  up : m.up = g.up
  hm : m.hm = g.hm
  pu : m.pu = g.pu
  au : m.au = { g.au with faults := g.au.faults.set k { g.au.faults.get k with failed := true } }
  engines : ∀ j, m.engine j =
    if j = k then { g.engine k with probeQueue := [], discovery := none } else g.engine j
  answered : OpsKept g m fun op => op.answer ≠ none
  pauses : Answered g m (fun w => w = .pause k) fun op => ⟨.pause, op.tag, .segmentFault, []⟩
  resumes : Answered g m (fun w => w = .resume k) fun op => ⟨.resume, op.tag, .segmentFault, []⟩
  discovers : ∀ d, (g.engine k).discovery = some d →
    Answered g m (fun w => w = .discover k) fun op => ⟨.discover, op.tag, .segmentFault, d.results⟩
  probes : ∀ i ∈ (g.engine k).probeQueue,
    Answered g m (fun w => w = .probe i false) fun op => ⟨.probe, op.tag, .segmentFault, []⟩

theorem endDiscovery_kept (s : State) (k : Seg) (code : ResultCode) :
    OpsKept s (s.endDiscovery k code) fun op => op.answer ≠ none ∨ op.work ≠ .discover k := by
  unfold State.endDiscovery
  split
  · exact .of_dc rfl _
  · exact (settleOps_kept _ _).imp fun _ h => h.imp_right fun c => if_neg c

theorem endDiscovery_answers {d : Discovery} (hd : (s.engine k).discovery = some d) (code : ResultCode) :
    Answered s (s.endDiscovery k code) (fun w => w = .discover k) fun op => ⟨.discover, op.tag, code, d.results⟩ := by
  unfold State.endDiscovery
  rw [hd]
  exact settleOps_answers (s.modEngine k fun e => { e with discovery := none })
    (fun op => if op.work = .discover k then some ⟨.discover, op.tag, code, d.results⟩ else none) (· = .discover k)
    (fun op => ⟨.discover, op.tag, code, d.results⟩) fun op hw => if_pos hw

theorem failureAnswered_answers (g : State) (k : Seg) : FailureAnswered g (g.failureAnswered k) k := by
  let u := (g.modEngine k fun e => { e with probeQueue := [] }).refuseProbes (g.engine k).probeQueue
  have eng : u.eng = (g.modEngine k fun e => { e with probeQueue := [] }).eng := (refuseProbes_frame _ _).2.2.2.2.2.2.2.1
  have engine : ∀ j, u.engine j = if j = k then { g.engine k with probeQueue := [] } else g.engine j := fun j =>
    (engine_of_eng eng j).trans (engine_modEngine g k j fun e => { e with probeQueue := [] })
  have refused : OpsKept g u fun op => op.answer ≠ none ∨ ∀ i ∈ (g.engine k).probeQueue, op.work ≠ .probe i false :=
    refuseProbes_kept (g.modEngine k _) _
  have ended := endDiscovery_kept u k .segmentFault
  have paused := answerPause_kept (u.endDiscovery k .segmentFault) k .segmentFault
  have resumed := answerResume_kept ((u.endDiscovery k .segmentFault).answerPause k .segmentFault) k .segmentFault
  have last : OpsKept u (g.failureAnswered k) fun op => op.answer ≠ none :=
    ((ended.imp fun _ => .inl).trans (paused.imp fun _ => .inl)).trans (resumed.imp fun _ => .inl)
  refine ⟨fun i => ?_, ?_, ?_, ?_, ?_, ?_, ?_, fun j => ?_, (refused.imp fun _ => .inl).trans last, ?_, ?_,
    fun d hd => ?_, fun i hi => ?_⟩
  · have dir : (g.failureAnswered k).dir = u.dir := by simp [State.failureAnswered, u]
    rw [recAt_of_dir dir]
    exact refuseProbes_recAt (g.modEngine k _) (g.engine k).probeQueue i
  · have dir : (g.failureAnswered k).dir = u.dir := by simp [State.failureAnswered, u]
    rw [dir]
    exact refuseProbes_aliasIndex (g.modEngine k _) _
  · simp [State.failureAnswered]
  · simp [State.failureAnswered]
  · simp [State.failureAnswered]
  · simp [State.failureAnswered]
  · simp [State.failureAnswered]
  · have same : (g.failureAnswered k).engine j = (u.endDiscovery k .segmentFault).engine j :=
      engine_of_eng (by simp [State.failureAnswered, u]) j
    rw [same, endDiscovery_engine, engine, engine, if_pos rfl]
    split <;> rfl
  · refine .after (refused.imp fun op c => .inr fun i _ => ?_) (.after (ended.imp fun op c => .inr ?_)
      ((answerPause_answers _ k _).kept (resumed.imp fun _ => .inl)))
    · simp [c.1]
    · simp [c.1]
  · refine .after (refused.imp fun op c => .inr fun i _ => ?_) (.after (ended.imp fun op c => .inr ?_)
      (.after (paused.imp fun op c => .inr ?_) (answerResume_answers _ k _)))
    · simp [c.1]
    · simp [c.1]
    · simp [c.1]
  · have hu : (u.engine k).discovery = some d := by rw [engine, if_pos rfl]; exact hd
    refine .after (refused.imp fun op c => .inr fun i _ => ?_)
      ((endDiscovery_answers hu .segmentFault).kept ((paused.imp fun _ => .inl).trans (resumed.imp fun _ => .inl)))
    simp [c.1]
  · exact (refuseProbes_answers (g.modEngine k _) hi).kept last

end

/-! ### The engine that has failed -/

section
variable {k : Seg} {i : Slot} {r : Record}

/-- With no flag set the engine is IDLE again (R70). -/
theorem recovered_idle (s : State) (k : Seg) : ((s.recovered k).modEngine k fun e => { e with state := .idle }) =
    (s.modEngine k fun e => { e with attemptCount := 0, attempt := none, state := .idle }).markFault k
      fun m => { m with recovered := true } :=
  congrArg (fun t : State => t.markFault k fun m => { m with recovered := true })
    (modEngine_modEngine (fun e => { e with attemptCount := 0, attempt := none }) fun e => { e with state := .idle })

theorem attemptFails_again (h : (s.engine k).attemptCount < 2) : s.attemptFails k =
    s.modEngine k fun e => { e with attemptCount := e.attemptCount + 1, attempt := some ⟨10, 0⟩ } := by
  unfold State.attemptFails
  dsimp only
  rw [engine_modEngine_self]
  exact if_pos (Nat.succ_lt_succ h)

theorem attemptFails_third (h : 2 ≤ (s.engine k).attemptCount) :
    s.attemptFails k = (s.failureRetired k).failureAnswered k := by
  unfold State.attemptFails
  dsimp only
  rw [engine_modEngine_self]
  exact if_neg (Nat.not_lt.mpr (Nat.succ_le_succ h))

theorem failureRetired_onlyFrees (s : State) (k : Seg) : OnlyFrees (s.failurePurged k) (s.failureRetired k) :=
  retireChecks_onlyFrees _ _

theorem failureRetired_keepsRest (s : State) (k : Seg) : KeepsRest s (s.failureRetired k) :=
  ((failure_keepsRest s k).trans (purge_keepsRest _ k _)).trans (failureRetired_onlyFrees s k).rest

/-- The engine has failed with its request withdrawn; its probe queue has lost at most slots that became FREE. -/
theorem failureRetired_engine (htx : (s.engine k).tx = none) : (s.failureRetired k).engine k = { s.engine k with
    state := .failed, attemptCount := (s.engine k).attemptCount + 1, attempt := none, stall := none,
    pausePending := false, resumeWaiting := false, request := none,
    probeQueue := ((s.failureRetired k).engine k).probeQueue } := by
  have frees := failureRetired_onlyFrees s k
  have engine := failure_engine s k k
  rw [if_pos rfl, ← engine_of_eng (failurePurged_blocks s k).1] at engine
  have e := frees.engines k
  rw [frees.noTx k (by rw [engine]), frees.noRequest k (by rw [engine]), engine] at e
  rw [e, ← htx]

theorem failureRetired_ops (s : State) (k : Seg) : OpsKept s (s.failureRetired k) fun op =>
    op.answer ≠ none ∨ ∀ i, op.work.names i → (s.failureRetired k).recAt i = (s.failurePurged k).recAt i :=
  (OpsKept.of_dc (failurePurged_blocks s k).2.2 _).trans (failureRetired_onlyFrees s k).ops

/-- An operation that waits on no slot waits on. -/
theorem failureRetired_unnamed (s : State) (k : Seg) {w : LongWork} (h : ∀ i, ¬w.names i) :
    OpsKept s (s.failureRetired k) fun op => op.work = w ∧ op.answer = none :=
  (failureRetired_ops s k).imp fun _ c => .inr fun i hi => absurd (c.1 ▸ hi) (h i)

/-- A segment's probe requests stay, but for those of the slots freed. -/
theorem failureRetired_waits (hi : i ∈ (s.engine k).probeQueue)
    (h : (s.failureRetired k).recAt i = (s.failurePurged k).recAt i) : i ∈ ((s.failureRetired k).engine k).probeQueue := by
  refine (failureRetired_onlyFrees s k).waits k i ?_ h
  rw [engine_of_eng (failurePurged_blocks s k).1, failure_engine, if_pos rfl]
  exact hi

theorem failureRetired_fewer (s : State) (k : Seg) :
    ((s.failureRetired k).engine k).probeQueue ⊆ (s.engine k).probeQueue := by
  have fewer := (failureRetired_onlyFrees s k).fewer k
  rw [engine_of_eng (failurePurged_blocks s k).1, failure_engine, if_pos rfl] at fewer
  exact fewer

/-- Only a RETIRING record can have left its slot. -/
theorem failureRetired_stays (h : ∀ r, s.recAt i = some r → r.state ≠ .retiring) (htx : (s.engine k).tx = none) :
    (s.failureRetired k).recAt i = (s.failurePurged k).recAt i := by
  rcases (failureRetired_onlyFrees s k).records i with c | ⟨-, q, hq, hret⟩
  · exact c
  · rw [failurePurged_recAt htx] at hq
    obtain ⟨r, hr, rfl⟩ := Option.map_eq_some_iff.mp hq
    exact absurd hret (h r hr)

/-- The request that waited at the failed engine is withdrawn, and no other (R42). -/
theorem failureRetired_request (law : s.RequestLaw) (htx : (s.engine k).tx = none) :
    RequestAfter s s.up (s.failureRetired k) k (fun _ => True) False := by
  obtain ⟨eng, up, -⟩ := failurePurged_blocks s k
  have engine := engine_of_eng eng
  have quiet : (s.failurePurged k).RetiringUnasked := by
    intro i q hq hret j w hw hi
    rw [failurePurged_recAt htx] at hq
    obtain ⟨r, hr, rfl⟩ := Option.map_eq_some_iff.mp hq
    rw [engine, failure_engine] at hw
    split at hw
    · cases hw
    · obtain ⟨p, hp, -, hb⟩ := law j w i hw hi
      cases hr.symm.trans hp
      exact absurd (hb.symm.trans hret) nofun
  obtain ⟨up', requests⟩ := (failureRetired_onlyFrees s k).asks quiet
  exact (failure_requestAfter s k).andSame ((requests k).trans (congrArg Engine.request (engine k))) (up'.trans up)

/-- The slot is one whose retirement the purge has ended. -/
theorem purged_ne_nil (s : State) (k : Seg) (i : Slot) : s.purged k i ≠ [] ↔ ∃ e ∈ s.waitingEntries k, e.slot = i := by
  unfold State.purged
  simp

/-- What the failure leaves in each slot (R19, R24, R89, R98). -/
theorem failure_leftByPurge (hr : s.recAt i = some r) (htx : (s.engine k).tx = none) :
    LeftByPurge s ((s.failureRetired k).failureAnswered k) k i r { r with
      holdOff := if r.state = .quarantined ∧ i ∈ (s.engine k).probeQueue then s.hm.holdOff else r.holdOff } := by
  have last := failureAnswered_answers (s.failureRetired k) k
  have frees := failureRetired_onlyFrees s k
  have purged : (s.failurePurged k).recAt i =
      some { r with undelivered := moreLost r.undelivered (s.purged k i).length } := by
    rw [failurePurged_recAt htx, hr]
    rfl
  have queued : ((s.failureRetired k).failureAnswered k).hasQueued r.segment i =
      (s.failurePurged k).hasQueued r.segment i := State.hasQueued_of_pool (last.pool.trans frees.pool) _ _
  have changed : (s.failureRetired k).au.changed[i.val] = true →
      ((s.failureRetired k).failureAnswered k).au.changed[i.val] = true := fun c => by rw [last.au]; exact c
  have retired : s.failureRetired k = (s.failurePurged k).retireChecks (s.waitingEntries k) :=
    congrArg (State.retireChecks _) (failure_purgeable htx)
  unfold LeftByPurge
  rw [queued]
  split
  · rename_i c
    obtain ⟨ret, mark, some_, empty⟩ := c
    have freed := retireChecks_frees purged ⟨ret, mark, empty⟩ ((purged_ne_nil s k i).mp some_)
    rw [← retired] at freed
    have freed' : FreedFrom s (s.failureRetired k) i r := freed.before rfl (.of_dc (failurePurged_blocks s k).2.2 _)
    obtain ⟨gone, index, -⟩ := id freed'
    refine freed'.later ?_ ((lookupAlias_of_index last.index _).trans index) changed (fun j => ?_) last.answered
    · rw [last.records, gone]
      simp
    · rw [last.engines]
      split
      · exact List.nil_subset _
      · exact fun _ => id
  · rename_i c
    have stays : (s.failureRetired k).recAt i = (s.failurePurged k).recAt i := by
      rw [retired]
      refine retireChecks_stays fun q hq owes e he hs => c ?_
      cases purged.symm.trans hq
      obtain ⟨ret, mark, empty⟩ := owes
      exact ⟨ret, mark, (purged_ne_nil s k i).mpr ⟨e, he, hs⟩, empty⟩
    have queue : i ∈ ((s.failureRetired k).engine k).probeQueue ↔ i ∈ (s.engine k).probeQueue :=
      ⟨fun h => failureRetired_fewer s k h, fun h => failureRetired_waits h stays⟩
    refine ⟨?_, fun some_ hu => changed (frees.rest.changed i ?_)⟩
    · rw [last.records, stays, purged, (failureRetired_keepsRest s k).hm]
      by_cases h : i ∈ (s.engine k).probeQueue
      · rw [if_pos (queue.mpr h)]
        simp [Record.refused, h]
      · rw [if_neg fun c => h (queue.mp c)]
        simp [h]
    · unfold State.failurePurged State.purge
      refine undeliveredClaims_changed (r := r) ?_ hu ?_
      · exact (recAt_of_dir (failure_blocks s k).1 i).trans hr
      · rw [failure_purgeable htx]
        exact (purged_ne_nil s k i).mp some_

end

/-- Settles O52: an attempt succeeds by the flags of its engine, fails by its count, and the closing's end frees the bus. -/
theorem recoveryAttemptsEnd : Obligations.RecoveryAttemptsEnd := by
  unfold Obligations.RecoveryAttemptsEnd
  intro k low s e freed
  refine ⟨fun hs ha => ?_, fun hs ha => ?_, fun x hx hsil => ?_⟩
  · have succeeds := exec_recoveryAttemptSucceeds hs ha low
    have fails := exec_recoveryAttemptFails hs ha
    rw [attemptSucceeds_eq] at succeeds
    have base := recovered_engine s k
    refine ⟨fun hp hr => ?_, fun hp => ?_, fun hp hr => ?_, fun hn => ?_, fun hn htx => ?_⟩
    · rw [if_neg (Bool.eq_false_iff.mp hp), if_neg (Bool.eq_false_iff.mp hr)] at succeeds
      rw [succeeds]
      exact congrArg (fun t : State => Host.Outcome.next (t.settle low)) (recovered_idle s k)
    · rw [if_pos hp] at succeeds
      obtain ⟨-, -, -, -, -, -, dir, pool, au⟩ := enterPaused_frame (s.recovered k) k
      have engine := enterPaused_engine (s.recovered k) k
      refine ⟨_, succeeds, ?_, fun j hj => ?_, au, dir, pool,
        (enterPaused_requestAfter (s.recovered k) k).ofSame (by rw [base, if_pos rfl]),
        .of_dc rfl (enterPaused_answers (s.recovered k) k)⟩
      · rw [engine, if_pos rfl, base, if_pos rfl]
      · rw [engine, if_neg hj, base, if_neg hj]
    · rw [if_neg (Bool.eq_false_iff.mp hp), if_pos hr] at succeeds
      obtain ⟨more, eq, ascending, mem⟩ := resumeRecovered_eq (s.recovered k) k
      have here : ((s.recovered k).resumeRecovered k).engine k = { e with
          attemptCount := 0, attempt := none, state := .idle, resumeWaiting := false, probeQueue := e.probeQueue ++ more } := by
        rw [eq, engine_modEngine_self, engine_of_eng (answerResume_frame _ k _).2.2.2.2.2.2.2.2.1, engine_modEngine_self,
          base, if_pos rfl]
      have answered := answerResume_answers
        ((s.recovered k).modEngine k fun e => { e with state := .idle, resumeWaiting := false }) k .done
      refine ⟨_, succeeds, by rw [here], ⟨more, by rw [here], ascending, fun i => ?_⟩, fun j hj => ?_, ?_, ?_, ?_, ?_, ?_⟩
      · rw [mem, base, if_pos rfl]
        rfl
      · rw [eq, engine_modEngine_other _ hj, engine_of_eng (answerResume_frame _ k _).2.2.2.2.2.2.2.2.1,
          engine_modEngine_other _ hj, base, if_neg hj]
      all_goals rw [eq]
      · rfl
      · rfl
      · rfl
      · rfl
      · exact .of_dc rfl answered
    · rw [attemptFails_again hn] at fails
      exact fails
    · rw [attemptFails_third hn] at fails
      have last := failureAnswered_answers (s.failureRetired k) k
      have rest := failureRetired_keepsRest s k
      have waits := failureRetired_ops s k
      have engine := failureRetired_engine htx
      refine ⟨_, fails, ?_, ?_, fun j hj => ?_, ?_, last.hm.trans rest.hm, last.pu.trans rest.pu, fun law => ?_,
        ?_, ?_, fun d hd => ?_, fun i hi hret => ?_, fun i => ⟨fun hr => ?_, fun r hr => failure_leftByPurge hr htx⟩⟩
      · rw [last.engines, if_pos rfl, engine, ha]
      · rw [poolSeg_of_pool (last.pool.trans (failureRetired_onlyFrees s k).pool), (failurePurged_queue s k k).1]
      · rw [poolSeg_of_pool (last.pool.trans (failureRetired_onlyFrees s k).pool), (failurePurged_queue s k j).2 hj]
      · rw [last.au, rest.faults]
      · refine (failureRetired_request law.2.2.2.2.1 htx).andSame ?_ last.up
        rw [last.engines, if_pos rfl]
      · exact .after (failureRetired_unnamed s k fun i c => by rcases c with ⟨_, c⟩ | ⟨_, c⟩ <;> cases c) last.pauses
      · exact .after (failureRetired_unnamed s k fun i c => by rcases c with ⟨_, c⟩ | ⟨_, c⟩ <;> cases c) last.resumes
      · exact .after (failureRetired_unnamed s k fun i c => by rcases c with ⟨_, c⟩ | ⟨_, c⟩ <;> cases c)
          (last.discovers d (by rw [engine]; exact hd))
      · have stays := failureRetired_stays hret htx
        refine .after (waits.imp fun op c => .inr fun j hj => ?_) (last.probes i (failureRetired_waits hi stays))
        rw [c.1] at hj
        rcases hj with ⟨n, hj⟩ | ⟨b, hj⟩ <;> cases hj
        exact stays
      · have stays := failureRetired_stays (k := k) (fun r c => by rw [hr] at c; cases c) htx
        rw [last.records, stays, failurePurged_recAt htx, hr]
        simp
  · exact congrArg Host.Outcome.next (if_pos ⟨hs, Option.isSome_iff_ne_none.mpr ha⟩)
  · exact ⟨_, exec_closingEnd hx hsil low, (KeepsFlags.refl s k).released, by simp, by simp, by simp, by simp, by simp,
      (releaseBus_freed s k).engines, releaseBus_requestAfter s k⟩

end Sys2Proof.Machine
end

section
namespace Sys2Proof.Machine

variable {s m u : State} {k : Seg} {low : LowLines}

/-! ### An arbiter's choice among the choices of all (R54) -/

/-- From `s` to `t` engines other than `k` have made choices. -/
inductive OtherChoices (low : LowLines) (k : Seg) (s : State) : State → Prop
  | refl : OtherChoices low k s s
  | step {t : State} {j : Seg} : OtherChoices low k s t → j ≠ k → OtherChoices low k s (t.arbitrate low j)

/-- Engine `k` chooses after some of the others and before the rest. -/
theorem arbitrateAll_splits (m : State) (low : LowLines) (k : Seg) :
    ∃ u, OtherChoices low k m u ∧ OtherChoices low k (u.arbitrate low k) (m.arbitrateAll low) := by
  match k with
  | 0 => exact ⟨_, .refl, ((OtherChoices.refl.step (j := 1) (by decide)).step (j := 2) (by decide)).step (by decide)⟩
  | 1 => exact ⟨_, OtherChoices.refl.step (j := 0) (by decide), (OtherChoices.refl.step (j := 2) (by decide)).step (by decide)⟩
  | 2 => exact ⟨_, (OtherChoices.refl.step (j := 0) (by decide)).step (j := 1) (by decide), OtherChoices.refl.step (by decide)⟩
  | 3 => exact ⟨_, ((OtherChoices.refl.step (j := 0) (by decide)).step (j := 1) (by decide)).step (j := 2) (by decide), .refl⟩

theorem OtherChoices.engine {t : State} (h : OtherChoices low k s t) : t.engine k = s.engine k := by
  induction h with
  | refl => rfl
  | step _ hj ih => exact (arbitrate_engine_other _ low (Ne.symm hj)).trans ih

theorem OtherChoices.pool {t : State} (h : OtherChoices low k s t) : t.pool = s.pool := by
  induction h with
  | refl => rfl
  | step _ _ ih => exact (arbitrate_frame _ low _).1.trans ih

theorem OtherChoices.unmarked {t : State} (h : OtherChoices low k s t) (i : Slot) :
    (t.recAt i).map Record.unmarked = (s.recAt i).map Record.unmarked := by
  induction h with
  | refl => rfl
  | step _ _ ih => exact ((arbitrate_onlyArbiters _ low _).1 i).trans ih

/-- A record is there with what it says, but for its marker. -/
theorem OtherChoices.record {t : State} (h : OtherChoices low k s t) {i : Slot} {r : Record} (hr : s.recAt i = some r) :
    ∃ q, t.recAt i = some q ∧ q = { r with marker := q.marker } :=
  recAt_of_unmarked ((h.unmarked i).trans (by rw [hr]))

theorem OtherChoices.recordBefore {t : State} (h : OtherChoices low k s t) {i : Slot} {q : Record}
    (hq : t.recAt i = some q) : ∃ r, s.recAt i = some r ∧ r = { q with marker := r.marker } :=
  recAt_of_unmarked ((h.unmarked i).symm.trans (by rw [hq]))

/-! ### One engine's choice, by what it finds (R54, R58, R66) -/

section
variable {w : Work}

theorem arbitrate_faults (hk : (s.engine k).state = .idle) (hw : s.chooseWork k = some w) (hl : k ∈ low) :
    s.arbitrate low k = s.enterRecovering k := by
  unfold State.arbitrate
  rw [if_pos hk, hw]
  exact if_pos hl

theorem arbitrate_begins (hk : (s.engine k).state = .idle) (hw : s.chooseWork k = some w) (hl : k ∉ low) :
    s.arbitrate low k = (s.beginWork k w).putOnBus k w.tx := by
  unfold State.arbitrate
  rw [if_pos hk, hw]
  exact if_neg hl

theorem arbitrate_offers (hk : (s.engine k).state = .idle) (hw : s.chooseWork k = none) :
    s.arbitrate low k = s.offerDiscovery k low := by
  unfold State.arbitrate
  rw [if_pos hk, hw]

theorem arbitrate_busy (hk : (s.engine k).state ≠ .idle) : s.arbitrate low k = s := by
  unfold State.arbitrate
  exact if_neg hk

/-- A choice's three outcomes. -/
theorem arbitrate_cases (s : State) (low : LowLines) (j : Seg) : s.arbitrate low j = s ∨
    (s.engine j).state = .idle ∧ (s.arbitrate low j = s.enterRecovering j ∨ s.arbitrate low j = s.offerDiscovery j low ∨
      ∃ w, s.chooseWork j = some w ∧ s.arbitrate low j = (s.beginWork j w).putOnBus j w.tx) := by
  by_cases hk : (s.engine j).state = .idle
  · refine .inr ⟨hk, ?_⟩
    cases hw : s.chooseWork j with
    | none => exact .inr (.inl (arbitrate_offers hk hw))
    | some w =>
      by_cases hl : j ∈ low
      · exact .inl (arbitrate_faults hk hw hl)
      · exact .inr (.inr ⟨w, rfl, arbitrate_begins hk hw hl⟩)
  · exact .inl (arbitrate_busy hk)

theorem putOnBus_engine (s : State) (k : Seg) (x : Tx) : (s.putOnBus k x).engine k =
    { s.engine k with state := .active, tx := some x, busRate := (s.engine k).rate, stall := none } :=
  engine_modEngine_self s k fun e => { e with state := .active, tx := some x, busRate := e.rate, stall := none }

/-- A request is available unless an entry of its record is queued (R54). -/
theorem availableForward_iff {q : FwdRequest} : s.availableForward k = some q ↔
    (s.engine k).request = some q ∧ ∀ i, q.slot = some i → ∀ e ∈ (s.poolSeg k).queue, e.slot ≠ i := by
  unfold State.availableForward
  cases hr : (s.engine k).request with
  | none => simp
  | some w =>
    cases hs : w.slot with
    | none =>
      dsimp only
      rw [hs]
      refine ⟨fun h => ⟨h, fun i hi => ?_⟩, fun h => h.1⟩
      rw [← Option.some.inj h, hs] at hi
      cases hi
    | some j =>
      dsimp only
      rw [hs]
      dsimp only
      by_cases queued : s.hasQueued k j = true
      · rw [if_pos queued]
        refine ⟨nofun, fun ⟨h, free⟩ => ?_⟩
        obtain ⟨e, he, hj⟩ := List.any_eq_true.mp queued
        exact absurd (beq_iff_eq.mp hj) (free j (Option.some.inj h ▸ hs) e he)
      · rw [if_neg queued]
        refine ⟨fun h => ⟨h, fun i hi e he c => queued (List.any_eq_true.mpr ⟨e, he, beq_iff_eq.mpr ?_⟩)⟩, fun h => h.1⟩
        rw [← Option.some.inj h, hs] at hi
        exact c.trans (Option.some.inj hi).symm

theorem firstProbe_finds {before after : List Slot} {i : Slot} {r : Record}
    (skipped : ∀ j ∈ before, ∀ q, s.recAt j = some q → q.state = .retiring) (hr : s.recAt i = some r)
    (hs : r.state ≠ .retiring) : s.firstProbe (before ++ i :: after) = some (i, r) := by
  induction before with
  | nil => simp only [List.nil_append, State.firstProbe, hr, if_neg hs]
  | cons j rest ih =>
    have later := ih fun l hl => skipped l (by simp [hl])
    rw [List.cons_append, State.firstProbe]
    cases hj : s.recAt j with
    | none => exact later
    | some q => exact (if_pos (skipped j (by simp) q hj)).trans later

theorem firstProbe_findsNone {es : List Slot} (skipped : ∀ j ∈ es, ∀ q, s.recAt j = some q → q.state = .retiring) :
    s.firstProbe es = none := by
  induction es with
  | nil => rfl
  | cons j rest ih =>
    have later := ih fun l hl => skipped l (by simp [hl])
    rw [State.firstProbe]
    cases hj : s.recAt j with
    | none => exact later
    | some q => exact (if_pos (skipped j (by simp) q hj)).trans later

theorem availableEntry_of {e : Entry} {rest : List Entry} {r : Record} (hq : (s.poolSeg k).queue = e :: rest)
    (hr : s.recAt e.slot = some r) : s.availableEntry k = some (e, r) := by
  unfold State.availableEntry
  simp only [hq, hr]

theorem availableEntry_empty (hq : (s.poolSeg k).queue = []) : s.availableEntry k = none := by
  unfold State.availableEntry
  rw [hq]

/-- The marker of the record a start serves (R8, R58); no other record changes. -/
theorem beginWork_marks {i : Slot} {r : Record} (hs : w.tx.slot = some i) (hr : s.recAt i = some r) :
    (s.beginWork k w).recAt i = some { r with marker := w.tx.kind.marker } := by
  have mark : ∀ (t : State) (a : Marker), t.recAt i = some r →
      (t.modRec i fun r => { r with marker := a }).recAt i = some { r with marker := a } := fun t a ht => by
    rw [recAt_modRec, if_pos rfl, ht]
    rfl
  cases w with
  | forward q =>
    have hq : q.slot = some i := hs
    simp only [State.beginWork, hq, Work.tx, Tx.start]
    exact mark _ _ hr
  | delivery e p =>
    cases hs
    exact mark s _ hr
  | probe j p =>
    cases hs
    have kind : (Work.probe i p).tx.kind.marker = .probe := by
      unfold Work.tx Tx.start
      dsimp only
      split <;> rfl
    rw [kind]
    exact mark ((s.modEngine k fun e => { e with probeQueue := e.probeQueue.erase i }).moveNotes i true) _ hr

theorem beginWork_leaves {i : Slot} (hs : w.tx.slot ≠ some i) : (s.beginWork k w).recAt i = s.recAt i := by
  have other : ∀ (t : State) (j : Slot) (a : Marker), j ≠ i →
      (t.modRec j fun r => { r with marker := a }).recAt i = t.recAt i := fun t j a hj => by
    rw [recAt_modRec, if_neg hj]
  cases w with
  | forward q =>
    simp only [State.beginWork]
    split
    · rename_i j hj
      exact other _ j _ fun c => hs (hj.trans (congrArg some c))
    · rfl
  | delivery e p => exact other s e.slot _ fun c => hs (congrArg some c)
  | probe j p =>
    exact other ((s.modEngine k fun e => { e with probeQueue := e.probeQueue.erase j }).moveNotes j true) j _ fun c =>
      hs (congrArg some c)

end

/-! ### Slots that another engine has no work for (R54, R55, R56, R81) -/

/-- Engine `j` has no work for slot `i`. -/
structure State.NoWorkFor (s : State) (j : Seg) (i : Slot) : Prop where
  request : ∀ q, (s.engine j).request = some q → q.slot ≠ some i
  entries : (s.engine j).state = .idle → ∀ e ∈ (s.poolSeg j).queue, e.slot ≠ i
  probes : i ∉ (s.engine j).probeQueue

theorem State.NoWorkFor.chosen {j : Seg} {i : Slot} (h : s.NoWorkFor j i) (hk : (s.engine j).state = .idle) {w : Work}
    (hw : s.chooseWork j = some w) : w.tx.slot ≠ some i := by
  cases w with
  | forward q => exact h.request q (chooseWork_forward hw)
  | delivery e r =>
    obtain ⟨⟨rest, hq⟩, -⟩ := chooseWork_delivery hw
    exact fun c => h.entries hk e (by rw [hq]; simp) (Option.some.inj c)
  | probe l r =>
    obtain ⟨hl, -⟩ := firstProbe_some s (chooseWork_probe hw)
    exact fun c => h.probes (Option.some.inj c ▸ hl)

theorem arbitrate_leaves {j : Seg} {i : Slot} (h : s.NoWorkFor j i) : (s.arbitrate low j).recAt i = s.recAt i := by
  rcases arbitrate_cases s low j with e | ⟨hk, e | e | ⟨w, hw, e⟩⟩
  · rw [e]
  · rw [e]; rfl
  · rw [e, recAt_of_dir (offerDiscovery_frame s j low).2.1]
  · rw [e, recAt_of_dir (putOnBus_frame _ j _).2.1]
    exact beginWork_leaves (h.chosen hk hw)

theorem arbitrate_request (s : State) (low : LowLines) (l j : Seg) :
    ((s.arbitrate low l).engine j).request = (s.engine j).request ∨ ((s.arbitrate low l).engine j).request = none := by
  by_cases hj : j = l
  · subst hj
    rcases arbitrate_cases s low j with e | ⟨-, e | e | ⟨w, -, e⟩⟩
    · rw [e]; exact .inl rfl
    · rw [e, State.enterRecovering, engine_modEngine_self]; exact .inl rfl
    · rw [e]; exact .inl (offerDiscovery_keeps s j j low).1
    · rw [e, putOnBus_engine]; exact beginWork_request s j w
  · rw [arbitrate_engine_other s low hj]; exact .inl rfl

theorem State.NoWorkFor.arbitrate {j : Seg} {i : Slot} (h : s.NoWorkFor j i) (l : Seg) :
    (s.arbitrate low l).NoWorkFor j i where
  request q hq := by
    rcases arbitrate_request s low l j with e | e
    · exact h.request q (e.symm.trans hq)
    · rw [e] at hq; cases hq
  entries hk := by
    rw [poolSeg_of_pool (arbitrate_frame s low l).1]
    refine h.entries ?_
    by_contra c
    rw [arbitrate_engine_state s low l j c] at hk
    exact c hk
  probes hi := h.probes ((arbitrate_probeQueue s low l j).subset hi)

theorem OtherChoices.noWorkFor {t : State} (h : OtherChoices low k s t) {j : Seg} {i : Slot} (hn : s.NoWorkFor j i) :
    t.NoWorkFor j i := by
  induction h with
  | refl => exact hn
  | step _ _ ih => exact ih.arbitrate _

theorem OtherChoices.leaves {t : State} (h : OtherChoices low k s t) {i : Slot} (hn : ∀ j, j ≠ k → s.NoWorkFor j i) :
    t.recAt i = s.recAt i := by
  induction h with
  | refl => rfl
  | step g hj ih => exact (arbitrate_leaves (g.noWorkFor (hn _ hj))).trans ih

/-- An IDLE engine has no transaction, so all its entries wait. -/
theorem State.WorkLaw.waiting (law : s.WorkLaw) (hk : (s.engine k).state = .idle) :
    s.waitingEntries k = (s.poolSeg k).queue := by
  have none : (s.engine k).tx = none := by
    by_contra c
    have active := (law.1 k).mp (Option.isSome_iff_ne_none.mpr c)
    rw [hk] at active
    cases active
  unfold State.waitingEntries State.deliveryOnBus
  rw [none]
  exact if_neg (by simp)

/-- The work for a record is on its own segment. -/
theorem State.WorkLaw.noWorkFor (law : s.WorkLaw) {i : Slot} {r : Record} (hr : s.recAt i = some r) {j : Seg}
    (hj : j ≠ r.segment) : s.NoWorkFor j i where
  request q hq hi := by
    obtain ⟨p, hp, hs, -⟩ := law.2.2.2.2.1 j q i hq hi
    cases hr.symm.trans hp
    exact hj hs.symm
  entries hk e he hi := by
    obtain ⟨p, hp, hs, -⟩ := (law.2.2.2.1 j).1 e (by rw [law.waiting hk]; exact he)
    rw [hi] at hp
    cases hr.symm.trans hp
    exact hj hs.symm
  probes hi := by
    obtain ⟨p, hp, hs⟩ := law.2.2.2.2.2 j i hi
    cases hr.symm.trans hp
    exact hj hs.symm

end Sys2Proof.Machine
end

section
namespace Sys2Proof.Machine

variable {s m u : State} {k : Seg} {low : LowLines}

/-! ### Long operations through the choices (R125, R143) -/

theorem moveNotes_keeps (s : State) (i : Slot) (b : Bool) :
    OpsKept s (s.moveNotes i b) fun op => ∀ c, op.work ≠ .probe i c := by
  intro op ho h
  refine List.mem_map.mpr ⟨op, ho, ?_⟩
  obtain ⟨work, tag, answer⟩ := op
  cases work with
  | probe j c =>
    have ne : j ≠ i := fun e => h c (by rw [e])
    exact if_neg ne
  | _ => rfl

theorem moveNotes_moves {i : Slot} {b c : Bool} {op : LongOp} (ho : op ∈ s.dc.ops) (hw : op.work = .probe i c) :
    { op with work := .probe i b } ∈ (s.moveNotes i b).dc.ops := by
  refine List.mem_map.mpr ⟨op, ho, ?_⟩
  obtain ⟨work, tag, answer⟩ := op
  cases hw
  exact if_pos rfl

/-- A start moves the notes of the slot it probes, and touches no other operation. -/
theorem beginWork_ops (s : State) (k : Seg) (w : Work) :
    (s.beginWork k w).dc = s.dc ∨ ∃ i, (s.beginWork k w).dc = (s.moveNotes i true).dc := by
  cases w with
  | forward q =>
    left
    simp only [State.beginWork]
    split <;> simp
  | delivery e r => exact .inl (by simp [State.beginWork])
  | probe i r => exact .inr ⟨i, by simp [State.beginWork]; rfl⟩

/-- What a choice does to the long operations. -/
theorem arbitrate_ops (s : State) (low : LowLines) (j : Seg) : (s.arbitrate low j).dc = s.dc ∨
    (∃ i, (s.arbitrate low j).dc = (s.moveNotes i true).dc) ∨
    ∃ d, (s.arbitrate low j).dc = ((s.putDiscovery j d).endDiscovery j .done).dc := by
  rcases arbitrate_cases s low j with e | ⟨-, e | e | ⟨w, -, e⟩⟩
  · rw [e]; exact .inl rfl
  · rw [e]; exact .inl (enterRecovering_frame s j).2.2.2.2.2.2.2.2.2.1
  · rw [e]
    unfold State.offerDiscovery
    split
    · exact .inl rfl
    · dsimp only
      split
      · exact .inr (.inr ⟨_, rfl⟩)
      · split <;> exact .inl rfl
  · rw [e, (putOnBus_frame _ j _).2.2.2.1]
    exact (beginWork_ops s j w).imp_right .inl

/-- Choices keep an operation that is no PROBE, and that no discovery's end answers. -/
theorem arbitrate_keeps (s : State) (low : LowLines) (j : Seg) : OpsKept s (s.arbitrate low j) fun op =>
    (∀ i c, op.work ≠ .probe i c) ∧ (op.answer ≠ none ∨ op.work ≠ .discover j) := by
  intro op ho h
  rcases arbitrate_ops s low j with e | ⟨i, e⟩ | ⟨d, e⟩ <;> rw [e]
  · exact ho
  · exact moveNotes_keeps s i true op ho (h.1 i)
  · exact endDiscovery_kept (s.putDiscovery j d) j .done op ho h.2

theorem OtherChoices.keeps {t : State} (h : OtherChoices low k s t) : OpsKept s t fun op =>
    (∀ i c, op.work ≠ .probe i c) ∧ (op.answer ≠ none ∨ ∃ j, op.work = .discover j ∧ j = k) := by
  induction h with
  | refl => exact .of_dc rfl _
  | step _ hj ih =>
    refine ih.trans ((arbitrate_keeps _ low _).imp fun op c => ⟨c.1, c.2.imp_right ?_⟩)
    rintro ⟨l, hw, rfl⟩ hd
    rw [hw] at hd
    exact hj (by cases hd; rfl)

/-- A PROBE that waits has its note where it was, or with the probe on the bus. -/
def Noted (s : State) (i : Slot) (tag : Byte) (onBus : Bool) : Prop :=
  ⟨.probe i true, tag, none⟩ ∈ s.dc.ops ∨ onBus = false ∧ ⟨.probe i false, tag, none⟩ ∈ s.dc.ops

theorem Noted.moved {i : Slot} {tag : Byte} {b : Bool} (h : Noted s i tag b) :
    Noted (s.moveNotes i true) i tag true := by
  rcases h with h | ⟨-, h⟩ <;> exact .inl (moveNotes_moves h rfl)

theorem Noted.arbitrate {i : Slot} {tag : Byte} {b : Bool} (h : Noted s i tag b) (j : Seg) :
    Noted (s.arbitrate low j) i tag b := by
  have of : ∀ {t : State}, (s.arbitrate low j).dc = t.dc → Noted t i tag b → Noted (s.arbitrate low j) i tag b :=
    fun e g => by unfold Noted at g ⊢; rwa [e]
  rcases arbitrate_ops s low j with e | ⟨l, e⟩ | ⟨d, e⟩
  · exact of e h
  · by_cases hl : l = i
    · subst hl
      exact of e (h.moved.imp_right fun c => absurd c.1 (by simp))
    · have kept : ∀ c, ⟨.probe i c, tag, none⟩ ∈ s.dc.ops → ⟨.probe i c, tag, none⟩ ∈ (s.moveNotes l true).dc.ops :=
        fun c ho => moveNotes_keeps s l true _ ho fun c' hw => hl (by cases hw; rfl)
      exact of e (h.imp (kept true) fun c => ⟨c.1, kept false c.2⟩)
  · have kept := endDiscovery_kept (s.putDiscovery j d) j .done
    exact of e (h.imp (fun ho => kept _ ho (.inr nofun)) fun c => ⟨c.1, kept _ c.2 (.inr nofun)⟩)

theorem OtherChoices.noted {t : State} (h : OtherChoices low k s t) {i : Slot} {tag : Byte} {b : Bool}
    (hn : Noted s i tag b) : Noted t i tag b := by
  induction h with
  | refl => exact hn
  | step _ _ ih => exact ih.arbitrate _

/-- UP opens nothing while no request waits elsewhere. -/
theorem OtherChoices.up {t : State} (h : OtherChoices low k s t) (none : ∀ j, j ≠ k → (s.engine j).request = none) :
    t.up = s.up ∧ ∀ j, j ≠ k → (t.engine j).request = .none := by
  induction h with
  | refl => exact ⟨rfl, none⟩
  | @step t l _ hl ih =>
    obtain ⟨up, requests⟩ := ih
    refine ⟨Eq.trans ?_ up, fun j hj => ?_⟩
    · rcases arbitrate_cases t low l with e | ⟨-, e | e | ⟨w, hw, e⟩⟩
      · rw [e]
      · rw [e, (enterRecovering_frame t l).2.2.2.2.2.2.1]
      · rw [e, (offerDiscovery_frame t l low).1]
      · rw [e, (putOnBus_frame _ l _).1]
        cases w with
        | forward q =>
          have waits := chooseWork_forward hw
          rw [requests l hl] at waits
          cases waits
        | delivery e r => simp [State.beginWork]
        | probe i r => simp [State.beginWork]
    · rcases arbitrate_request t low l j with e | e
      · exact e.trans (requests j hj)
      · exact e

/-! ### The end of the event (R132) -/

theorem settle_engine (m : State) (low : LowLines) (k : Seg) :
    (m.settle low).engine k = (m.arbitrateAll low).engine k := engine_of_eng (conclude_frame _).2.2.1 k

theorem settle_recAt (m : State) (low : LowLines) (i : Slot) :
    (m.settle low).recAt i = (m.arbitrateAll low).recAt i := recAt_of_dir (conclude_frame _).2.1 i

theorem settle_waits {op : LongOp} (h : op ∈ (m.arbitrateAll low).dc.ops) (hn : op.answer = none) :
    op ∈ (m.settle low).dc.ops := by
  refine List.mem_filter.mpr ⟨h, ?_⟩
  rw [hn]
  rfl

theorem settle_answers {op : LongOp} {answer : Response} (h : op ∈ (m.arbitrateAll low).dc.ops)
    (ha : op.answer = some answer) : answer ∈ (m.settle low).mp.responses :=
  List.mem_append.mpr (.inr (List.mem_filterMap.mpr ⟨op, h, ha⟩))

/-! ### The window addresses a discovery passes over (R57, R120) -/

/-- A record of segment `k` has this target, by its number. -/
def State.targets (s : State) (k : Seg) (t : Nat) : Prop :=
  ∃ j r, s.recAt j = some r ∧ r.segment = k ∧ r.target.toNat = t

theorem lookupPair_iff (s : State) (k : Seg) (t : Addr) : (s.lookupPair k t).isSome = true ↔ s.targets k t.toNat := by
  rw [lookupPair_isSome_iff]
  unfold State.targets
  simp only [BitVec.toNat_inj]

theorem passKnown_known {d : Discovery} {t : Addr} (fuel : Nat) (hn : d.next = some t) (hk : s.targets k t.toNat) :
    s.passKnown k (fuel + 1) d = s.passKnown k fuel { d with
      known := d.known + 1, lastFinished := some t, next := if t = d.high then none else some (t + 1) } := by
  rw [State.passKnown, hn]
  exact if_pos ((lookupPair_iff s k t).mpr hk)

theorem passKnown_stops {d : Discovery} {t : Addr} (fuel : Nat) (hn : d.next = some t) (hk : ¬s.targets k t.toNat) :
    s.passKnown k (fuel + 1) d = d := by
  rw [State.passKnown, hn]
  exact if_neg fun c => hk ((lookupPair_iff s k t).mp c)

theorem passKnown_end {d : Discovery} (fuel : Nat) (hn : d.next = none) : s.passKnown k fuel d = d := by
  cases fuel with
  | zero => rfl
  | succ f => rw [State.passKnown, hn]

/-- The context once `n` addresses from `t` have been passed over, and the next is one no record holds. -/
def Discovery.passed (d : Discovery) (t : Addr) (n : Nat) : Discovery :=
  { d with known := d.known + n, next := some (BitVec.ofNat 7 (t.toNat + n)),
           lastFinished := if n = 0 then d.lastFinished else some (BitVec.ofNat 7 (t.toNat + n) - 1) }

theorem addr_succ {t high : Addr} {n : Nat} (h : t.toNat + (n + 1) ≤ high.toNat) :
    t ≠ high ∧ (t + 1).toNat = t.toNat + 1 := by
  have := high.isLt
  refine ⟨fun c => ?_, ?_⟩
  · subst c; omega
  · rw [BitVec.toNat_add]
    exact Nat.mod_eq_of_lt (show t.toNat + 1 < 128 by omega)

theorem passKnown_passes (n : Nat) : ∀ {d : Discovery} {t : Addr} {fuel : Nat}, d.next = some t → n < fuel →
    t.toNat + n ≤ d.high.toNat → (∀ v, v < n → s.targets k (t.toNat + v)) → ¬s.targets k (t.toNat + n) →
    s.passKnown k fuel d = d.passed t n := by
  induction n with
  | zero =>
    intro d t fuel hn hf _ _ free
    obtain ⟨f, rfl⟩ := Nat.exists_eq_add_one_of_ne_zero (Nat.ne_of_gt hf)
    rw [passKnown_stops f hn free]
    simp [Discovery.passed, ← hn]
  | succ n ih =>
    intro d t fuel hn hf hh known free
    obtain ⟨f, rfl⟩ := Nat.exists_eq_add_one_of_ne_zero (Nat.ne_of_gt (Nat.zero_lt_of_lt hf))
    obtain ⟨ne, next⟩ := addr_succ hh
    have shift : ∀ v, (t + 1).toNat + v = t.toNat + (v + 1) := fun v => by rw [next]; omega
    rw [passKnown_known f hn (known 0 (by omega)), if_neg ne]
    rw [ih (t := t + 1) rfl (by omega) (by rw [shift]; exact hh) (fun v hv => by rw [shift]; exact known (v + 1) (by omega))
      (by rw [shift]; exact free)]
    unfold Discovery.passed
    rw [shift]
    have last : BitVec.ofNat 7 (t.toNat + 1) - 1 = t := by
      rw [← next, BitVec.ofNat_toNat, BitVec.setWidth_eq, BitVec.add_sub_cancel]
    cases n with
    | zero => simp only [Nat.zero_add, if_true, last, Nat.one_ne_zero, if_false, Nat.add_zero]
    | succ n =>
      simp only [Nat.add_one_ne_zero, if_false, Discovery.mk.injEq, and_true, true_and]
      omega

/-- A window passed to its end. -/
theorem passKnown_finishes (n : Nat) : ∀ {d : Discovery} {t : Addr} {fuel : Nat}, d.next = some t → n < fuel →
    t.toNat + n = d.high.toNat → (∀ v, t.toNat ≤ v → v ≤ d.high.toNat → s.targets k v) →
    s.passKnown k fuel d = { d with known := d.known + (n + 1), next := none, lastFinished := some d.high } := by
  induction n with
  | zero =>
    intro d t fuel hn hf hh known
    obtain ⟨f, rfl⟩ := Nat.exists_eq_add_one_of_ne_zero (Nat.ne_of_gt hf)
    have last : t = d.high := BitVec.eq_of_toNat_eq hh
    rw [passKnown_known f hn (known _ (by omega) (by omega)), if_pos last, passKnown_end f rfl, ← last]
  | succ n ih =>
    intro d t fuel hn hf hh known
    obtain ⟨f, rfl⟩ := Nat.exists_eq_add_one_of_ne_zero (Nat.ne_of_gt (Nat.zero_lt_of_lt hf))
    obtain ⟨ne, next⟩ := addr_succ (le_of_eq hh)
    rw [passKnown_known f hn (known _ (by omega) (by omega)), if_neg ne]
    have bound : (t + 1).toNat + n = d.high.toNat := by omega
    have later := ih (fuel := f) (t := t + 1) (d := { d with
      known := d.known + 1, lastFinished := some t, next := some (t + 1) }) rfl (by omega) bound
      fun v hv hv' => known v (by omega) hv'
    rw [later]
    simp only [Discovery.mk.injEq, and_true, true_and]
    omega

end Sys2Proof.Machine
end

section
namespace Sys2Proof.Machine

variable {m u : State} {k : Seg} {low : LowLines} {w : Work}

/-! ### What the event leaves of an engine that chose (R54, R58, R66) -/

/-- A start leaves the engine's rate and its discovery. -/
theorem beginWork_keeps (s : State) (k : Seg) (w : Work) :
    ((s.beginWork k w).engine k).rate = (s.engine k).rate ∧
    ((s.beginWork k w).engine k).discovery = (s.engine k).discovery := by
  rw [beginWork_engine_self]
  cases w <;> exact ⟨rfl, rfl⟩

section
variable (hk : (m.engine k).state = .idle) (before : OtherChoices low k m u)
  (after : OtherChoices low k (u.arbitrate low k) (m.arbitrateAll low))
include after

theorem settled_engine : (m.settle low).engine k = (u.arbitrate low k).engine k := by
  rw [settle_engine, after.engine]

include hk before

theorem choice_faults (hw : u.chooseWork k = some w) (hl : k ∈ low) :
    (m.settle low).engine k = (m.engine k).toRecovering := by
  rw [settled_engine after, arbitrate_faults (before.engine ▸ hk) hw hl, State.enterRecovering, engine_modEngine_self,
    before.engine]

theorem choice_begins (hw : u.chooseWork k = some w) (hl : k ∉ low) : (m.settle low).engine k =
    { (u.beginWork k w).engine k with
      state := .active, tx := some w.tx, busRate := ((u.beginWork k w).engine k).rate, stall := none } := by
  rw [settled_engine after, arbitrate_begins (before.engine ▸ hk) hw hl, putOnBus_engine]

theorem choice_starts (hw : u.chooseWork k = some w) (hl : k ∉ low) : ((m.settle low).engine k).state = .active ∧
    ((m.settle low).engine k).tx = some w.tx ∧ ((m.settle low).engine k).busRate = (m.engine k).rate ∧
    ((m.settle low).engine k).discovery = (m.engine k).discovery := by
  obtain ⟨rate, discovery⟩ := beginWork_keeps u k w
  rw [choice_begins hk before after hw hl, ← before.engine]
  exact ⟨rfl, rfl, rate, discovery⟩

/-- The record of the work chosen gets its marker, and no other engine's choice reaches it (R8, R58). -/
theorem choice_marks {i : Slot} {r : Record} (hw : u.chooseWork k = some w) (hl : k ∉ low) (hs : w.tx.slot = some i)
    (law : m.WorkLaw) (hr : m.recAt i = some r) (hseg : r.segment = k) :
    (m.settle low).recAt i = some { r with marker := w.tx.kind.marker } := by
  have noWork : ∀ j, j ≠ k → m.NoWorkFor j i := fun j hj => law.noWorkFor hr (hseg ▸ hj)
  have here : u.recAt i = some r := (before.leaves noWork).trans hr
  rw [settle_recAt, after.leaves fun j hj => (before.noWorkFor (noWork j hj)).arbitrate k,
    arbitrate_begins (before.engine ▸ hk) hw hl, recAt_of_dir (putOnBus_frame _ k _).2.1]
  exact beginWork_marks hs here

end

/-! ### What engine `k` finds, in the state it chooses in (R54) -/

/-- A request that waits is available in the state of `m` and of the choice alike. -/
def State.Ready (m : State) (k : Seg) (q : FwdRequest) : Prop :=
  (m.engine k).request = some q ∧ ∀ i, q.slot = some i → ∀ e ∈ (m.poolSeg k).queue, e.slot ≠ i

theorem OtherChoices.availableForward (before : OtherChoices low k m u) {q : FwdRequest} :
    u.availableForward k = some q ↔ m.Ready k q := by
  rw [availableForward_iff, before.engine, poolSeg_of_pool before.pool]
  rfl

theorem OtherChoices.noForward (before : OtherChoices low k m u) (h : ∀ q, ¬m.Ready k q) :
    u.availableForward k = none :=
  Option.eq_none_iff_forall_ne_some.mpr fun q hq => h q (before.availableForward.mp hq)

theorem chooseWork_ofForward {q : FwdRequest} (h : u.availableForward k = some q) :
    u.chooseWork k = some (.forward q) := by
  unfold State.chooseWork
  simp only [h]

theorem chooseWork_ofEntry {e : Entry} {r : Record} (hf : u.availableForward k = none)
    (h : u.availableEntry k = some (e, r)) : u.chooseWork k = some (.delivery e r) := by
  unfold State.chooseWork
  simp only [hf, h]

theorem chooseWork_ofProbe {i : Slot} {r : Record} (hf : u.availableForward k = none)
    (he : u.availableEntry k = none) (h : u.firstProbe (u.engine k).probeQueue = some (i, r)) :
    u.chooseWork k = some (.probe i r) := by
  unfold State.chooseWork
  simp only [hf, he, h]

theorem chooseWork_ofNothing (hf : u.availableForward k = none) (he : u.availableEntry k = none)
    (h : u.firstProbe (u.engine k).probeQueue = none) : u.chooseWork k = none := by
  unfold State.chooseWork
  simp only [hf, he, h]

theorem OtherChoices.targets (before : OtherChoices low k m u) (j : Seg) (t : Nat) :
    u.targets j t ↔ m.targets j t := by
  refine ⟨fun ⟨i, r, hr, hs, ht⟩ => ?_, fun ⟨i, r, hr, hs, ht⟩ => ?_⟩
  · obtain ⟨q, hq, e⟩ := before.recordBefore hr
    exact ⟨i, q, hq, by rw [e]; exact hs, by rw [e]; exact ht⟩
  · obtain ⟨q, hq, e⟩ := before.record hr
    exact ⟨i, q, hq, by rw [e]; exact hs, by rw [e]; exact ht⟩

/-- A record that is RETIRING in the one state is in the other. -/
theorem OtherChoices.skips (before : OtherChoices low k m u) {es : List Slot}
    (h : ∀ j ∈ es, ∀ q, m.recAt j = some q → q.state = .retiring) :
    ∀ j ∈ es, ∀ q, u.recAt j = some q → q.state = .retiring := fun j hj q hq => by
  obtain ⟨r, hr, e⟩ := before.recordBefore hq
  have retiring := h j hj r hr
  rw [e] at retiring
  exact retiring

/-! ### The offer of a discovery's next address (R57, R120, R125) -/

section
variable {s : State} {d d1 : Discovery} {t : Addr}

theorem offerDiscovery_done (hd : (s.engine k).discovery = some d) (hp : s.passKnown k 128 d = d1)
    (hn : d1.next = none) : s.offerDiscovery k low = (s.putDiscovery k d1).endDiscovery k .done := by
  unfold State.offerDiscovery
  simp only [hd, hp, hn]
  rfl

theorem offerDiscovery_faults (hd : (s.engine k).discovery = some d) (hp : s.passKnown k 128 d = d1)
    (hn : d1.next = some t) (hl : k ∈ low) : s.offerDiscovery k low = (s.putDiscovery k d1).enterRecovering k := by
  unfold State.offerDiscovery
  simp only [hd, hp, hn]
  exact if_pos hl

theorem offerDiscovery_begins (hd : (s.engine k).discovery = some d) (hp : s.passKnown k 128 d = d1)
    (hn : d1.next = some t) (hl : k ∉ low) : s.offerDiscovery k low =
      (s.putDiscovery k { d1 with onBus := some t }).putOnBus k (.start .discoveryProbe none t .write none false) := by
  unfold State.offerDiscovery
  simp only [hd, hp, hn]
  exact if_neg hl

end

/-! ### The transaction of a piece of work, by its case (R58, R60 to R62) -/

theorem forward_tx {q : FwdRequest} {i : Slot} (hi : q.slot = some i) :
    (Work.forward q).tx = .start .forward (some i) q.target q.dir none true := by
  simp only [Work.tx, hi, Option.isSome_some, if_true]

theorem catchAll_tx {q : FwdRequest} (hi : q.slot = none) :
    (Work.forward q).tx = .start .catchAll none q.target q.dir none false := by
  simp only [Work.tx, hi, Option.isSome_none, Bool.false_eq_true, if_false]

theorem quickProbe_tx {i : Slot} {r : Record} (h : r.probeReg = none) :
    (Work.probe i r).tx = .start .quickProbe (some i) r.target .write none true := by
  simp only [Work.tx, h, Option.isSome_none, Bool.false_eq_true, if_false]

theorem identityProbe_tx {i : Slot} {r : Record} {b : Byte} (h : r.probeReg = some b) :
    (Work.probe i r).tx = .start .identityProbe (some i) r.target .write (some b) true := by
  simp only [Work.tx, h, Option.isSome_some, if_true]

theorem probe_tx_marker (i : Slot) (r : Record) : (Work.probe i r).tx.kind.marker = .probe := by
  cases h : r.probeReg with
  | none => rw [quickProbe_tx h]; rfl
  | some b => rw [identityProbe_tx h]; rfl

/-- The start of a probe moves the notes of its slot to the bus (R143). -/
theorem beginProbe_dc (s : State) (k : Seg) (i : Slot) (r : Record) :
    (s.beginWork k (.probe i r)).dc = (s.moveNotes i true).dc := by
  simp [State.beginWork]
  rfl

/-- Settles O50: what the engine finds first, it takes; and no other engine's choice changes what it finds or takes. -/
theorem arbiterOrder : Obligations.ArbiterOrder := by
  unfold Obligations.ArbiterOrder
  intro m low k hk starts marks recovering faults fresh ready known
  obtain ⟨u, before, after⟩ := arbitrateAll_splits m low k
  have faulted : ∀ {w}, u.chooseWork k = some w → faults := fun hw hl => choice_faults hk before after hw hl
  have started : ∀ {w}, u.chooseWork k = some w → starts w.tx := fun hw hl => choice_starts hk before after hw hl
  have queue : (u.poolSeg k).queue = (m.poolSeg k).queue := by rw [poolSeg_of_pool before.pool]
  refine ⟨fun q hq => ?_, fun e rest r hn hqueue hr => ?_, fun front i back r hn hqueue hprobes hfront hskip hr hs => ?_,
    fun d t hn hqueue hskip hd ht hle => ?_⟩
  · have hw := chooseWork_ofForward (before.availableForward.mpr hq)
    refine ⟨faulted hw, fun hl => ?_, fun hl others => ?_, fun i hi => ⟨?_, fun hl law r hr => ?_⟩, fun hi => ?_⟩
    · rw [choice_begins hk before after hw hl, beginWork_engine_self]
    · obtain ⟨up, requests⟩ := before.up others
      have chosen := after.up fun j hj => (arbitrate_request u low k j).elim (fun c => c.trans (requests j hj)) id
      have settled : (m.settle low).up = (m.arbitrateAll low).up := (conclude_frame _).1
      rw [settled, chosen.1, arbitrate_begins (before.engine ▸ hk) hw hl, (putOnBus_frame _ k _).1, ← up]
      simp only [State.beginWork]
      split <;> simp
    · have tx := started hw
      rw [forward_tx hi] at tx
      exact tx
    · obtain ⟨p, hp, hseg, -⟩ := law.2.2.2.2.1 k q i hq.1 hi
      cases hr.symm.trans hp
      have mark := choice_marks hk before after hw hl hi law hr hseg
      rwa [forward_tx hi] at mark
    · have tx := started hw
      rw [catchAll_tx hi] at tx
      exact tx
  · obtain ⟨p, hp, ep⟩ := before.record hr
    have hw := chooseWork_ofEntry (before.noForward hn) (availableEntry_of (queue.trans hqueue) hp)
    refine ⟨faulted hw, ?_, fun hl law r' hr' => ?_, (settle_frame m low).1⟩
    · have target : p.target = r.target := by rw [ep]
      have tx : starts (.start .delivery (some e.slot) p.target .write none true) := started hw
      rw [target] at tx
      exact tx
    · cases hr.symm.trans hr'
      obtain ⟨p', hp', hseg, -⟩ := (law.2.2.2.1 k).1 e (by rw [law.waiting hk, hqueue]; simp)
      cases hr.symm.trans hp'
      exact choice_marks hk before after hw hl rfl law hr hseg
  · obtain ⟨p, hp, ep⟩ := before.record hr
    have found : u.firstProbe (u.engine k).probeQueue = some (i, p) := by
      rw [before.engine, hprobes]
      exact firstProbe_finds (before.skips hskip) hp (by rw [ep]; exact hs)
    have hw := chooseWork_ofProbe (before.noForward hn) (availableEntry_empty (queue.trans hqueue)) found
    have tx := started hw
    have same : p.target = r.target ∧ p.probeReg = r.probeReg := by rw [ep]; exact ⟨rfl, rfl⟩
    refine ⟨faulted hw, fun hl => ?_, fun hl law r' hr' => ?_, fun hl op ho hwork hans => ?_, fun hreg => ?_,
      fun reg hreg => ?_⟩
    · rw [choice_begins hk before after hw hl, beginWork_engine_self]
      dsimp only
      rw [before.engine, hprobes, List.erase_append_right _ hfront, List.erase_cons_head]
    · cases hr.symm.trans hr'
      obtain ⟨p', hp', hseg⟩ := law.2.2.2.2.2 k i (by rw [hprobes]; simp)
      cases hr.symm.trans hp'
      have mark := choice_marks hk before after hw hl rfl law hr hseg
      rwa [probe_tx_marker] at mark
    · obtain ⟨work, tag, answer⟩ := op
      cases hwork
      cases hans
      have noted : Noted (u.arbitrate low k) i tag true := by
        have waits := (before.noted (Or.inr ⟨rfl, ho⟩ : Noted m i tag false)).moved
        rw [arbitrate_begins (before.engine ▸ hk) hw hl]
        unfold Noted at waits ⊢
        rwa [(putOnBus_frame _ k _).2.2.2.1, beginProbe_dc]
      rcases after.noted noted with h | ⟨c, -⟩
      · exact settle_waits h rfl
      · cases c
    · rw [quickProbe_tx (same.2.trans hreg), same.1] at tx
      exact tx
    · rw [identityProbe_tx (same.2.trans hreg), same.1] at tx
      exact tx
  · have idle : (u.engine k).state = .idle := before.engine ▸ hk
    have running : (u.engine k).discovery = some d := before.engine ▸ hd
    have nothing : u.chooseWork k = none :=
      chooseWork_ofNothing (before.noForward hn) (availableEntry_empty (queue.trans hqueue))
        (by rw [before.engine]; exact firstProbe_findsNone (before.skips hskip))
    have offered : (m.settle low).engine k = (u.offerDiscovery k low).engine k := by
      rw [settled_engine after, arbitrate_offers idle nothing]
    have fits := d.high.isLt
    refine ⟨fun n hlast hknown hfree => ?_, fun hall => ?_⟩
    · intro here passed
      have hp : u.passKnown k 128 d = passed := passKnown_passes n ht (by omega) hlast
        (fun v hv => (before.targets k _).mpr (hknown v hv)) fun c => hfree ((before.targets k _).mp c)
      refine ⟨fun hl => ?_, fun hl => ?_⟩
      · rw [offered, offerDiscovery_faults running hp rfl hl, State.enterRecovering, engine_modEngine_self,
          putDiscovery_engine_self, before.engine]
        rfl
      · rw [offered, offerDiscovery_begins running hp rfl hl, putOnBus_engine, putDiscovery_engine_self, before.engine]
        exact ⟨rfl, rfl, rfl, rfl⟩
    · have hp := passKnown_finishes (s := u) (k := k) (fuel := 128) (d.high.toNat - t.toNat) ht (by omega) (by omega)
        fun v hv hv' => (before.targets k v).mpr (hall v hv hv')
      have done := offerDiscovery_done (low := low) running hp rfl
      refine ⟨?_, fun op ho hwork hans => ?_⟩
      · rw [offered, done, endDiscovery_engine, if_pos rfl, putDiscovery_engine_self, before.engine]
      · have noProbe : ∀ i c, op.work ≠ .probe i c := fun i c hc => by rw [hwork] at hc; cases hc
        have waits := before.keeps op ho ⟨noProbe, .inr ⟨k, hwork, rfl⟩⟩
        obtain ⟨-, answered⟩ := endDiscovery_ended u k _ .done
        have given := answered op waits hwork hans
        rw [← done, ← arbitrate_offers idle nothing] at given
        exact settle_answers (after.keeps _ given ⟨noProbe, .inl nofun⟩) rfl

end Sys2Proof.Machine
end

section
namespace Sys2Proof.Machine

variable {s t : State} {k : Seg} {i : Slot}

/-! ### A forward that starts (R54)

Outside the arbiters' choice no event puts a forward on a bus: an engine without a forward of slot `i` keeps none
through every operation of the model, by one lemma per operation in the order of the model. -/

/-- Engine `k` carries no forward of slot `i`. -/
def State.NoForward (s : State) (k : Seg) (i : Slot) : Prop :=
  ∀ x, (s.engine k).tx = some x → ¬(x.kind = .forward ∧ x.slot = some i)

/-- A forward of slot `i` on segment `k` has no entry of its record in the queue. -/
def State.Follows (t : State) (k : Seg) (i : Slot) : Prop :=
  t.NoForward k i ∨ ∀ e ∈ (t.poolSeg k).queue, e.slot ≠ i

theorem State.NoForward.of_tx (h : s.NoForward k i) (tx : (t.engine k).tx = (s.engine k).tx) : t.NoForward k i :=
  fun x hx => h x (tx ▸ hx)

/-- A transaction that changes in its other fields. -/
theorem State.NoForward.of_map (h : s.NoForward k i) {f : Tx → Tx} (hf : ∀ x, (f x).kind = x.kind ∧ (f x).slot = x.slot)
    (tx : (t.engine k).tx = (s.engine k).tx.map f) : t.NoForward k i := fun x hx forward => by
  rw [tx] at hx
  obtain ⟨y, hy, rfl⟩ := Option.map_eq_some_iff.mp hx
  obtain ⟨kind, slot⟩ := hf y
  exact h y hy ⟨kind ▸ forward.1, slot ▸ forward.2⟩

theorem State.NoForward.of_noTx (tx : (t.engine k).tx = none) : t.NoForward k i := fun x hx => by
  rw [tx] at hx
  cases hx

theorem State.NoForward.fewer (h : s.NoForward k i) (f : Fewer s t) : t.NoForward k i :=
  fun x hx forward => by
    obtain ⟨y, hy, e⟩ := some_of_core (f.engines k).tx hx
    obtain ⟨kind, slot, -⟩ := core_eq.mp e
    exact h y hy ⟨kind ▸ forward.1, slot ▸ forward.2⟩

/-- An engine whose transaction stays, or ends, starts no forward. -/
theorem State.NoForward.modEngine (h : s.NoForward k i) (j : Seg) (f : Engine → Engine)
    (hf : ∀ e, (f e).tx = e.tx ∨ (f e).tx = none) : (s.modEngine j f).NoForward k i := by
  by_cases hk : k = j
  · subst hk
    rcases hf (s.engine k) with e | e
    · exact h.of_tx (by rw [engine_modEngine_self, e])
    · exact .of_noTx (by rw [engine_modEngine_self, e])
  · exact h.of_tx (by rw [engine_modEngine_other _ hk])

/-! #### Records that change or go -/

theorem State.NoForward.moveRec (h : s.NoForward k i) (j : Slot) (f : Record → Record) :
    (s.moveRec j f).NoForward k i := by
  cases hr : s.recAt j with
  | none =>
    unfold State.moveRec
    rw [hr]
    exact h
  | some r =>
    obtain ⟨moved, -⟩ := moveRec_moved j f r _ hr (moveRec_recAt s j f r hr) rfl
    exact h.of_tx (by rw [moved.engines])

theorem State.NoForward.freeSlot (h : s.NoForward k i) (j : Slot) : (s.freeSlot j).NoForward k i := by
  cases hr : s.recAt j with
  | none =>
    unfold State.freeSlot
    rw [hr]
    exact h
  | some r =>
    refine h.of_map (f := fun x => if x.slot = some j then { x with sameRecord := false, ownsMarker := false } else x)
      (fun x => ?_) (by rw [freeSlot_engine s j r hr]; rfl)
    split <;> exact ⟨rfl, rfl⟩

theorem State.NoForward.retireCheck (h : s.NoForward k i) (j : Slot) : (s.retireCheck j).NoForward k i := by
  unfold State.retireCheck
  split
  · split
    · exact h.freeSlot j
    · exact h
  · exact h

theorem State.NoForward.retireChecks (h : s.NoForward k i) (es : List Entry) : (s.retireChecks es).NoForward k i := by
  induction es generalizing s with
  | nil => exact h
  | cons e rest ih => exact ih (h.retireCheck e.slot)

theorem State.NoForward.purgeAndRetire (h : s.NoForward k i) (j : Seg) (covers : Entry → Bool) :
    (s.purgeAndRetire j covers).NoForward k i := (h.fewer (.purge s j covers)).retireChecks _

theorem State.NoForward.putRec (h : s.NoForward k i) (j : Slot) (r : Option Record) : (s.putRec j r).NoForward k i :=
  h.of_tx rfl

theorem State.NoForward.absenceExpiry (h : s.NoForward k i) (j : Slot) : (s.absenceExpiry j).NoForward k i := by
  unfold State.absenceExpiry
  split
  · split
    · split
      · exact h.freeSlot j
      · exact h.putRec j _
    · exact h
  · exact h

theorem State.NoForward.afterEnd (h : s.NoForward k i) (j : Slot) : (s.afterEnd j).NoForward k i := by
  unfold State.afterEnd
  dsimp only
  have checked := h.retireCheck j
  split
  · split
    · exact (checked.putRec j _).absenceExpiry j
    · exact checked
  · exact checked

theorem State.NoForward.charge (h : s.NoForward k i) (j : Slot) : (s.charge j).NoForward k i := by
  unfold State.charge
  split
  · split
    · split
      · exact h.moveRec j _
      · exact h.putRec j _
    · exact h
  · exact h

theorem State.NoForward.storeIdentity (h : s.NoForward k i) (j : Slot) (byte : Option Byte) :
    (s.storeIdentity j byte).NoForward k i := by
  unfold State.storeIdentity
  split
  · split
    · exact h
    · exact h.of_tx rfl
  · exact h

theorem State.NoForward.reprobeFailed (h : s.NoForward k i) (j : Slot) (r : Record) (o : ProbeOutcome) :
    (s.reprobeFailed j r o).NoForward k i := by
  unfold State.reprobeFailed
  split
  · exact h.moveRec j _
  · exact h.of_tx (by simp)

theorem State.NoForward.applyOutcome (h : s.NoForward k i) (j : Slot) (r : Record) (o : ProbeOutcome)
    (byte : Option Byte) : (s.applyOutcome j r o byte).NoForward k i := by
  unfold State.applyOutcome
  split
  · exact h.storeIdentity j byte
  · exact h
  · exact (h.moveRec j _).storeIdentity j byte
  · exact h.reprobeFailed j r _
  · exact h
  · exact h.moveRec j _
  · exact h.reprobeFailed j r _
  · exact h
  · exact h
  · exact h.moveRec j _

theorem State.NoForward.requestProbe (h : s.NoForward k i) (j : Slot) : (s.requestProbe j).NoForward k i := by
  unfold State.requestProbe
  split
  · split
    · exact h.fewer (.refuseProbe s j)
    · exact h.modEngine _ _ fun _ => .inl rfl
  · exact h

theorem State.NoForward.requestProbes (h : s.NoForward k i) (es : List Slot) : (s.requestProbes es).NoForward k i := by
  induction es generalizing s with
  | nil => exact h
  | cons j rest ih => exact ih (h.requestProbe j)

/-! #### Buses that are left (R17, R69 to R71) -/

theorem State.NoForward.clearMarker (h : s.NoForward k i) (j : Slot) : (s.clearMarker j).NoForward k i :=
  h.of_tx (by rw [engine_of_eng (s := s) (by simp)])

theorem State.NoForward.clearTx (h : s.NoForward k i) (j : Seg) : (s.clearTx j).NoForward k i :=
  h.modEngine j _ fun _ => .inr rfl

theorem State.NoForward.enterRecovering (h : s.NoForward k i) (j : Seg) : (s.enterRecovering j).NoForward k i :=
  h.modEngine j _ fun _ => .inr rfl

theorem State.NoForward.enterPaused (h : s.NoForward k i) (j : Seg) : (s.enterPaused j).NoForward k i :=
  ((h.modEngine j _ fun _ => .inr rfl).fewer (.settleOps _ _)).fewer (.withdraw _ j _)

theorem State.NoForward.releaseBus (h : s.NoForward k i) (j : Seg) : (s.releaseBus j).NoForward k i := by
  unfold State.releaseBus
  split
  · exact h.enterPaused j
  · exact h.modEngine j _ fun _ => .inr rfl

theorem State.NoForward.enterFailed (h : s.NoForward k i) (j : Seg) : (s.enterFailed j).NoForward k i := by
  have failing : (s.failing j).NoForward k i := h.modEngine j _ fun _ => .inr rfl
  have emptied : (s.failedEmptied j).NoForward k i := (failing.fewer (.withdraw _ j .standIn)).purgeAndRetire j _
  have dropped : ((s.failedEmptied j).modEngine j fun e => { e with probeQueue := [] }).NoForward k i :=
    emptied.modEngine j _ fun _ => .inl rfl
  have refused : (s.failedRefused j).NoForward k i := dropped.fewer (.refuseProbes _ _)
  rw [enterFailed_eq]
  exact (refused.fewer (.endDiscovery _ j .segmentFault)).fewer (.of_blocks rfl rfl rfl)

theorem State.NoForward.attemptFails (h : s.NoForward k i) (j : Seg) : (s.attemptFails j).NoForward k i := by
  have counted := h.modEngine j
    (fun e => { e with attemptCount := e.attemptCount + 1, attempt := some { limit := Config.attemptWait, elapsed := 0 } })
    fun _ => .inl rfl
  unfold State.attemptFails
  dsimp only
  split
  · exact counted
  · exact counted.enterFailed j

theorem State.NoForward.attemptSucceeds (h : s.NoForward k i) (j : Seg) : (s.attemptSucceeds j).NoForward k i := by
  have counted : (s.modEngine j fun e => { e with attemptCount := 0, attempt := none }).NoForward k i :=
    h.modEngine j _ fun _ => .inl rfl
  have freed : ((s.modEngine j fun e => { e with attemptCount := 0, attempt := none }).markFault j
      fun m => { m with recovered := true }).NoForward k i := counted.of_tx rfl
  unfold State.attemptSucceeds
  dsimp only
  split
  · exact freed.enterPaused j
  · split
    · unfold State.resumeRecovered
      refine State.NoForward.requestProbes (State.NoForward.fewer ?_ (.settleOps _ _)) _
      exact freed.modEngine j _ fun _ => .inl rfl
    · exact freed.modEngine j _ fun _ => .inl rfl

/-! #### Transactions that end (R17, R64 to R68) -/

theorem State.NoForward.forwardOver (h : s.NoForward k i) (slot : Option Slot) (charged : Bool) :
    (s.forwardOver slot charged).NoForward k i := by
  unfold State.forwardOver
  split
  · rename_i j
    have cleared := h.clearMarker j
    refine State.NoForward.afterEnd ?_ j
    split
    · exact cleared.charge j
    · exact cleared
  · exact h

theorem State.NoForward.deliveryOver (h : s.NoForward k i) (j : Seg) (l : Slot) (lost charged : Bool) :
    (s.deliveryOver j l lost charged).NoForward k i := by
  have off : (((s.removeHead j).clearTx j).clearMarker l).NoForward k i :=
    ((h.of_tx rfl : (s.removeHead j).NoForward k i).clearTx j).clearMarker l
  have claimed : (if lost then (((s.removeHead j).clearTx j).clearMarker l).undeliveredClaim l
      else (((s.removeHead j).clearTx j).clearMarker l).usedClaim l).NoForward k i := by
    split
    · exact off.fewer (.undeliveredClaim _ l)
    · exact off.fewer (.usedClaim _ l)
  refine State.NoForward.afterEnd ?_ l
  split
  · exact claimed.charge l
  · exact claimed

theorem State.NoForward.deliveryCut (h : s.NoForward k i) (j : Seg) (l : Slot) : (s.deliveryCut j l).NoForward k i := by
  unfold State.deliveryCut
  split
  · rename_i e rest _
    split
    · exact h.deliveryOver j l true false
    · have kept : (s.modPool j fun p => { p with queue := { e with retried := true } :: rest }).NoForward k i := h.of_tx rfl
      exact ((kept.clearTx j).clearMarker l).afterEnd l
  · exact (h.clearTx j).clearMarker l

theorem State.NoForward.clearProbeMarker (h : s.NoForward k i) (x : Tx) (j : Slot) :
    (s.clearProbeMarker x j).NoForward k i := h.of_tx (by rw [clearProbeMarker_engine])

theorem State.NoForward.probeOver (h : s.NoForward k i) (j : Seg) (x : Tx) (l : Slot) (answer : ProbeAnswer) :
    (s.probeOver j x l answer).NoForward k i := by
  have cleared := h.clearProbeMarker x l
  unfold State.probeOver
  dsimp only
  split
  · split
    · exact ((cleared.applyOutcome l _ _ _).fewer (.answerBusProbes _ l _ _)).afterEnd l
    · exact cleared.afterEnd l
  · exact cleared

theorem State.NoForward.probeCut (h : s.NoForward k i) (j : Seg) (x : Tx) (l : Slot) :
    (s.probeCut j x l).NoForward k i := by
  have off := (h.clearProbeMarker x l).afterEnd l
  unfold State.probeCut
  dsimp only
  split
  · split
    · exact (off.modEngine j
        (fun e => { e with probeQueue := if l ∈ e.probeQueue then e.probeQueue else l :: e.probeQueue })
        fun _ => .inl rfl).of_tx rfl
    · exact off
  · exact off

theorem State.NoForward.putDiscovery (h : s.NoForward k i) (j : Seg) (d : Discovery) :
    (s.putDiscovery j d).NoForward k i := h.modEngine j _ fun _ => .inl rfl

theorem State.NoForward.afterAddress (h : s.NoForward k i) (j : Seg) (d : Discovery) :
    (s.afterAddress j d).NoForward k i := by
  have put := h.putDiscovery j d
  unfold State.afterAddress
  dsimp only
  split
  · exact put.fewer (.endDiscovery _ j _)
  · split
    · exact put.fewer (.endDiscovery _ j _)
    · exact put

theorem State.NoForward.deviceFound (h : s.NoForward k i) (j : Seg) (d : Discovery) (a : Addr) :
    (s.deviceFound j d a).NoForward k i := by
  have created : ((s.judgeCreation j a (d.aliasOf a)).records j a (d.aliasOf a) s).NoForward k i :=
    h.of_tx (by rw [creation_engine])
  unfold State.deviceFound
  dsimp only
  split
  · exact (created.putDiscovery j _).fewer (.endDiscovery _ j _)
  · exact created.afterAddress j _

theorem State.NoForward.discoveryProbeOver (h : s.NoForward k i) (j : Seg) (a : Addr) (found : Bool) :
    (s.discoveryProbeOver j a found).NoForward k i := by
  unfold State.discoveryProbeOver
  split
  · exact h
  · split
    · exact h.deviceFound j _ a
    · exact h.afterAddress j _

theorem State.NoForward.discoveryCut (h : s.NoForward k i) (j : Seg) : (s.discoveryCut j).NoForward k i := by
  unfold State.discoveryCut
  split
  · exact h
  · dsimp only
    split
    · exact (h.putDiscovery j _).fewer (.endDiscovery _ j _)
    · exact h.putDiscovery j _

theorem State.NoForward.stallOver (h : s.NoForward k i) (j : Seg) (x : Tx) : (s.stallOver j x).NoForward k i := by
  have lost := h.fewer (.forwardLost s j x)
  unfold State.stallOver
  split
  · exact lost.forwardOver _ true
  · exact lost.forwardOver _ true
  · split
    · exact h.deliveryOver j _ true true
    · exact h
  · split
    · exact h.probeOver j x _ _
    · exact h
  · split
    · exact h.probeOver j x _ _
    · exact h
  · exact h.discoveryProbeOver j _ false

theorem State.NoForward.cutOver (h : s.NoForward k i) (j : Seg) (x : Tx) : (s.cutOver j x).NoForward k i := by
  have lost := h.fewer (.forwardLost s j x)
  unfold State.cutOver
  split
  · exact lost.forwardOver _ false
  · exact lost.forwardOver _ false
  · split
    · exact h.deliveryCut j _
    · exact h
  · split
    · exact h.probeCut j x _
    · exact h
  · split
    · exact h.probeCut j x _
    · exact h
  · exact h.discoveryCut j

theorem State.NoForward.takeFault (h : s.NoForward k i) (j : Seg) : (s.takeFault j).NoForward k i := by
  unfold State.takeFault
  split
  · split
    · exact h.enterRecovering j
    · exact (h.cutOver j _).enterRecovering j
  · exact h

end Sys2Proof.Machine
end

section
namespace Sys2Proof.Machine

variable {s : State} {k : Seg} {i : Slot}

/-! #### The arbiters' choice (R54) -/

/-- A piece of work whose transaction is a forward of slot `i` is the request of slot `i`. -/
theorem tx_forward {w : Work} (hk : w.tx.kind = .forward) (hs : w.tx.slot = some i) :
    ∃ q, w = .forward q ∧ q.slot = some i := by
  cases w with
  | forward q => exact ⟨q, rfl, hs⟩
  | delivery e r => cases hk
  | probe j r =>
    have marker := probe_tx_marker j r
    rw [hk] at marker
    cases marker

theorem chooseWork_availableForward {q : FwdRequest} (h : s.chooseWork k = some (.forward q)) :
    s.availableForward k = some q := by
  unfold State.chooseWork at h
  split at h
  · cases h
    assumption
  · repeat' split at h
    all_goals cases h

theorem State.NoForward.putOnBus (h : s.NoForward k i) (j : Seg) (x : Tx)
    (hx : ¬(k = j ∧ x.kind = .forward ∧ x.slot = some i)) : (s.putOnBus j x).NoForward k i := by
  by_cases hk : k = j
  · subst hk
    intro y hy forward
    rw [putOnBus_engine] at hy
    cases hy
    exact hx ⟨rfl, forward⟩
  · exact h.of_tx (by rw [State.putOnBus, engine_modEngine_other _ hk])

theorem State.NoForward.offerDiscovery (h : s.NoForward k i) (j : Seg) (low : LowLines) :
    (s.offerDiscovery j low).NoForward k i := by
  unfold State.offerDiscovery
  split
  · exact h
  · dsimp only
    split
    · exact (h.putDiscovery j _).fewer (.endDiscovery _ j _)
    · split
      · exact (h.putDiscovery j _).enterRecovering j
      · exact (h.putDiscovery j _).putOnBus j _ nofun

theorem State.NoForward.beginWork (h : s.NoForward k i) (j : Seg) (w : Work) : (s.beginWork j w).NoForward k i := by
  by_cases hk : k = j
  · subst hk
    exact h.of_tx (by rw [beginWork_engine_self]; cases w <;> rfl)
  · exact h.of_tx (by rw [beginWork_engine s j k hk])

/-- The forward that a choice starts was available: no entry of its record is queued. -/
theorem State.NoForward.begin (h : s.NoForward k i) {j : Seg} {w : Work} (hw : s.chooseWork j = some w) :
    ((s.beginWork j w).putOnBus j w.tx).NoForward k i ∨ ∀ e ∈ (s.poolSeg k).queue, e.slot ≠ i := by
  by_cases hx : k = j ∧ w.tx.kind = .forward ∧ w.tx.slot = some i
  · obtain ⟨rfl, kind, slot⟩ := hx
    obtain ⟨q, rfl, hq⟩ := tx_forward kind slot
    exact .inr ((availableForward_iff.mp (chooseWork_availableForward hw)).2 i hq)
  · exact .inl ((h.beginWork j w).putOnBus j w.tx hx)

theorem State.Follows.arbitrate (h : s.Follows k i) (low : LowLines) (j : Seg) : (s.arbitrate low j).Follows k i := by
  have pool : (s.arbitrate low j).poolSeg k = s.poolSeg k := poolSeg_of_pool (by simp) k
  unfold State.Follows
  rw [pool]
  refine h.elim (fun h => ?_) .inr
  rcases arbitrate_cases s low j with e | ⟨-, e | e | ⟨w, hw, e⟩⟩ <;> rw [e]
  · exact .inl h
  · exact .inl (h.enterRecovering j)
  · exact .inl (h.offerDiscovery j low)
  · exact h.begin hw

theorem State.Follows.arbitrateAll (h : s.Follows k i) (low : LowLines) : (s.arbitrateAll low).Follows k i :=
  (((h.arbitrate low 0).arbitrate low 1).arbitrate low 2).arbitrate low 3

/-- Operations that keep the queues' entries and start no forward. -/
theorem State.Follows.keep {t : State} (h : s.Follows k i) (queue : (t.poolSeg k).queue = (s.poolSeg k).queue)
    (tx : s.NoForward k i → t.NoForward k i) : t.Follows k i := by
  unfold State.Follows
  rw [queue]
  exact h.imp_left tx

theorem State.Follows.settle (h : s.Follows k i) (low : LowLines) : (s.settle low).Follows k i := by
  obtain ⟨-, -, -, pool, -⟩ := conclude_frame (s.arbitrateAll low)
  exact (h.arbitrateAll low).keep (congrArg PoolSeg.queue (poolSeg_of_pool pool k)) fun g => g.fewer (.conclude _)

theorem State.Follows.settleWith (h : s.Follows k i) (low : LowLines) (r : Response) :
    (s.settleWith low r).Follows k i := by
  obtain ⟨-, -, -, pool, -⟩ := concludeWith_frame (s.arbitrateAll low) r
  exact (h.arbitrateAll low).keep (congrArg PoolSeg.queue (poolSeg_of_pool pool k)) fun g => g.fewer (.concludeWith _ r)

theorem State.NoForward.settle (h : s.NoForward k i) (low : LowLines) : (s.settle low).Follows k i :=
  State.Follows.settle (.inl h) low

theorem State.NoForward.settleDone (h : s.NoForward k i) (low : LowLines) (c : Command) (results : List Byte) :
    (s.settleDone low c results).Follows k i := State.Follows.settleWith (.inl h) low _

end Sys2Proof.Machine
end

section
namespace Sys2Proof.Machine

variable {s : State} {k : Seg} {i : Slot}

/-! #### The upstream port (R30 to R42) -/

theorem State.NoForward.commit (h : s.NoForward k i) : s.commit.NoForward k i := by
  have released := h.fewer (.releaseReservation s)
  unfold State.commit
  split
  · split
    · exact h.of_tx rfl
    · split
      · exact released.fewer (.undeliveredClaim _ _)
      · exact released
  · exact released

theorem State.NoForward.closeForStop (h : s.NoForward k i) : s.closeForStop.NoForward k i := by
  unfold State.closeForStop
  split
  · exact h.commit.fewer (.leaveTransaction _)
  · exact h.fewer (((Fewer.dropRequest s).trans (.requestEndOpen _)).trans (.leaveTransaction _))

theorem State.NoForward.closeForRestart (h : s.NoForward k i) (cut : Bool) : (s.closeForRestart cut).NoForward k i := by
  unfold State.closeForRestart
  split
  · exact h.commit.fewer (.leaveTransaction _)
  · split
    · split
      · exact h.fewer (.leaveTransaction s)
      · exact h.fewer ((Fewer.requestEndOpen s).trans (.leaveTransaction _))
    · exact h.fewer ((Fewer.dropRequest s).trans (.leaveTransaction _))
  · exact h.fewer ((Fewer.requestEndOpen s).trans (.leaveTransaction _))

theorem State.Follows.abandonOpen (h : s.Follows k i) : s.abandonOpen.Follows k i :=
  h.keep (by simp) fun g => g.fewer (.abandonOpen s)

theorem State.Follows.resolveRefused (h : s.Follows k i) : s.resolveRefused.Follows k i :=
  h.abandonOpen.keep (congrArg PoolSeg.queue (poolSeg_of_pool (by simp [State.resolveRefused]) k)) fun g =>
    g.fewer (.upNak _)

theorem State.Follows.resolveStandIn (h : s.Follows k i) (a : Addr) (d : Dir) (j : Slot) (r : Record) :
    (s.resolveStandIn a d j r).Follows k i :=
  h.keep (congrArg PoolSeg.queue (poolSeg_of_pool (by simp [State.resolveStandIn]) k)) fun g =>
    g.fewer (.resolveStandIn s a d j r)

theorem State.Follows.resolvePosted (h : s.Follows k i) (a : Addr) (d : Dir) (j : Slot) (r : Record) :
    (s.resolvePosted a d j r).Follows k i :=
  h.abandonOpen.keep rfl fun g => g.of_tx rfl

theorem State.Follows.resolveCarried (h : s.Follows k i) (mode : UpMode) (a : Addr) (d : Dir) (j : Seg)
    (slot : Option Slot) (target : Addr) (answer : Option Answer) :
    (s.resolveCarried mode a d j slot target answer).Follows k i := by
  unfold State.resolveCarried
  dsimp only
  split
  · exact h.keep rfl fun g => g.fewer ((Fewer.mapTx j
      (fun t => { t with dir := d, phase := .address, step := .address }) fun _ => rfl).trans (.setUp _ _))
  · refine h.abandonOpen.keep rfl fun g => State.NoForward.fewer ?_ (.setUp _ _)
    exact g.modEngine j _ fun _ => .inl rfl

theorem State.Follows.resolveRecord (h : s.Follows k i) (a : Addr) (d : Dir) (j : Slot) (r : Record) :
    (s.resolveRecord a d j r).Follows k i := by
  unfold State.resolveRecord
  split
  · split
    · exact h.resolvePosted a d j r
    · split
      · exact h.resolveCarried _ a d _ _ _ _
      · exact h.resolveStandIn a d j r
  · exact h.resolveStandIn a d j r

theorem State.Follows.resolveUnknown (h : s.Follows k i) (a : Addr) (d : Dir) : (s.resolveUnknown a d).Follows k i := by
  unfold State.resolveUnknown
  split
  · split
    · exact h.resolveCarried _ a d _ _ _ _
    · exact h.resolveRefused
  · exact h.resolveRefused

theorem State.Follows.resolve (h : s.Follows k i) (a : Addr) (d : Dir) : (s.resolve a d).Follows k i := by
  have noticed : (s.setHm s.hm.notice).Follows k i := h.keep rfl fun g => g.of_tx rfl
  unfold State.resolve
  dsimp only
  split
  · exact noticed.resolveRefused
  · split
    · split
      · exact noticed.resolveRecord a d _ _
      · exact noticed.resolveUnknown a d
    · exact noticed.resolveUnknown a d

/-! #### Events of the segment buses -/

theorem State.NoForward.conclude (h : s.NoForward k i) : s.conclude.NoForward k i := h.fewer (.conclude s)

theorem State.NoForward.endForward (h : s.NoForward k i) (j : Seg) (low : LowLines) :
    (s.endForward j low).Follows k i := by
  unfold State.endForward
  split
  · split
    · exact (((h.fewer (.closeDownstream s j)).forwardOver _ _).releaseBus j).settle low
    · exact .inl h
  · exact .inl h

theorem State.NoForward.endDelivery (h : s.NoForward k i) (j : Seg) (o : DeliveryEnd) (low : LowLines) :
    (s.endDelivery j o low).Follows k i := by
  unfold State.endDelivery
  split
  · split
    · exact ((h.deliveryOver j _ _ _).releaseBus j).settle low
    · exact .inl h
  · exact .inl h

theorem State.NoForward.endProbe (h : s.NoForward k i) (j : Seg) (answer : ProbeAnswer) (low : LowLines) :
    (s.endProbe j answer low).Follows k i := by
  unfold State.endProbe
  split
  · split
    · split
      · exact ((h.probeOver j _ _ answer).releaseBus j).settle low
      · exact .inl h
    · exact .inl h
  · exact .inl h

theorem State.NoForward.endDiscoveryProbe (h : s.NoForward k i) (j : Seg) (found : Bool) (low : LowLines) :
    (s.endDiscoveryProbe j found low).Follows k i := by
  unfold State.endDiscoveryProbe
  split
  · split
    · exact ((h.discoveryProbeOver j _ found).releaseBus j).settle low
    · exact .inl h
  · exact .inl h

theorem State.NoForward.takeStall (h : s.NoForward k i) (j : Seg) (low : LowLines) :
    (s.takeStall j low).Follows k i := by
  unfold State.takeStall
  split
  · split
    · exact (h.releaseBus j).settle low
    · exact .inl ((h.stallOver j _).enterRecovering j).conclude
  · exact .inl h

/-! #### The timers (R101, R107, R112) -/

theorem State.NoForward.surveyPass (h : s.NoForward k i) : s.surveyPass.NoForward k i := by
  have asked := (h.requestProbes s.surveyed).fewer (.clearUsed _)
  unfold State.surveyPass
  exact asked.fewer (.setHm _ _)

theorem State.NoForward.holdOffSteps (h : s.NoForward k i) (es : List Slot) : (s.holdOffSteps es).NoForward k i := by
  induction es generalizing s with
  | nil => exact h
  | cons j rest ih =>
    refine ih ?_
    unfold State.holdOffStep
    split
    · split
      · dsimp only
        split
        · exact (h.putRec j _).requestProbe j
        · exact h.putRec j _
      · exact h
    · exact h

theorem State.NoForward.absenceSeconds (h : s.NoForward k i) (es : List Slot) :
    (s.absenceSeconds es).NoForward k i := by
  induction es generalizing s with
  | nil => exact h
  | cons j rest ih =>
    refine ih ?_
    unfold State.absenceSecond
    split
    · split
      · dsimp only
        split
        · exact (h.putRec j _).absenceExpiry j
        · exact h.putRec j _
      · exact h
    · exact h

/-! #### Commands -/

theorem State.NoForward.answer (h : s.NoForward k i) (c : Command) (code : ResultCode) :
    (s.answer c code).NoForward k i := h.fewer (.concludeWith s _)

theorem State.NoForward.answerDone (h : s.NoForward k i) (c : Command) (results : List Byte) :
    (s.answerDone c results).NoForward k i := h.fewer (.concludeWith s _)

theorem State.NoForward.runLookup (h : s.NoForward k i) (c : Command) : (s.runLookup c).NoForward k i := by
  unfold State.runLookup
  split
  · exact h.answer c _
  · split
    · exact h.answer c _
    · split
      · exact h.answer c _
      · exact h.answerDone c _

theorem State.NoForward.runBind (h : s.NoForward k i) (low : LowLines) (c : Command) :
    (s.runBind low c).Follows k i := by
  unfold State.runBind
  split
  · exact .inl (h.answer c _)
  · rename_i f _
    split
    · exact .inl (h.answer c _)
    · rename_i j _
      have created : (s.createRec j (boundRecord f)).NoForward k i := h.of_tx rfl
      exact (created.requestProbe j).settleDone low c _

theorem State.NoForward.applyThreshold (h : s.NoForward k i) (j : Slot) : (s.applyThreshold j).NoForward k i := by
  unfold State.applyThreshold
  split
  · split
    · split
      · exact h.moveRec j _
      · exact h
    · exact h.putRec j _
  · exact h

theorem State.NoForward.applyEdit (h : s.NoForward k i) (j : Slot) (r : Record) (sel : Selection) :
    (s.applyEdit j r sel).NoForward k i := by
  have edited : (s.editedFields j r sel).NoForward k i := by
    unfold State.editedFields
    split <;> exact h.of_tx rfl
  rw [applyEdit_eq]
  split
  · exact edited.applyThreshold j
  · exact edited

theorem State.NoForward.runEdit (h : s.NoForward k i) (c : Command) : (s.runEdit c).NoForward k i := by
  unfold State.runEdit
  split
  · exact h.answer c _
  · split
    · exact h.answer c _
    · split
      · exact h.answer c _
      · split
        · exact h.answer c _
        · exact (h.applyEdit _ _ _).answerDone c _

/-- The transactions of a record that moves to another pair stay on their buses (R20). -/
theorem State.NoForward.rebound (h : s.NoForward k i) (j : Slot) (r : Record) (l : Seg) (a : Addr) :
    (s.rebound j r l a).NoForward k i := by
  refine (h.moveRec j (Record.toRebound l a)).of_map (fun x => ?_)
    (congrArg Engine.tx (rebound_engine (r := r) rfl k))
  split <;> exact ⟨rfl, rfl⟩

theorem State.NoForward.runRebind (h : s.NoForward k i) (low : LowLines) (c : Command) :
    (s.runRebind low c).Follows k i := by
  unfold State.runRebind
  split
  · exact .inl (h.answer c _)
  · split
    · exact .inl (h.answer c _)
    · rw [applyRebind_eq]
      exact ((h.rebound _ _ _ _).requestProbe _).settleDone low c _
    · exact .inl (h.answer c _)

theorem State.NoForward.enterRetiring (h : s.NoForward k i) (j : Slot) : (s.enterRetiring j).NoForward k i := by
  unfold State.enterRetiring
  split
  · split
    · exact h
    · exact h.moveRec j _
  · exact h

theorem State.NoForward.finishRetire (h : s.NoForward k i) (c : Command) (j : Slot) (removed : Nat) :
    (s.finishRetire c j removed).NoForward k i := by
  unfold State.finishRetire
  split
  · exact h.answerDone c _
  · split
    · exact ((h.enterRetiring j).fewer (.addOp _ _ _)).conclude
    · exact (h.freeSlot j).answerDone c _

theorem State.NoForward.runRetire (h : s.NoForward k i) (c : Command) : (s.runRetire c).NoForward k i := by
  unfold State.runRetire
  split
  · exact h.answer c _
  · split
    · exact h.answer c _
    · split
      · exact h.answer c _
      · unfold State.applyRetire
        dsimp only
        have answered := fun j => h.fewer (t := s.answerProbes j .retired) (.settleOps s _)
        split
        · exact ((answered _).purgeAndRetire _ _).finishRetire c _ _
        · exact (answered _).finishRetire c _ 0

theorem State.NoForward.runClearCounts (h : s.NoForward k i) (c : Command) : (s.runClearCounts c).NoForward k i := by
  unfold State.runClearCounts
  split
  · exact h.answer c _
  · exact (h.fewer (.mapSlots s Record.clearCounts fun _ => rfl)).answerDone c _
  · split
    · exact h.answer c _
    · exact (h.fewer (.modRec _ Record.clearCounts fun _ => rfl)).answerDone c _

theorem State.NoForward.runProbe (h : s.NoForward k i) (low : LowLines) (c : Command) :
    (s.runProbe low c).Follows k i := by
  unfold State.runProbe
  split
  · exact .inl (h.answer c _)
  · split
    · exact .inl (h.answer c _)
    · split
      · exact .inl (h.answer c _)
      · split
        · exact .inl (h.answer c _)
        · have queued : ∀ j l, (s.modEngine j (Engine.enqueueProbe l)).NoForward k i :=
            fun j _ => h.modEngine j _ fun _ => .inl rfl
          exact ((queued _ _).fewer (.addOp _ _ _)).settle low

theorem State.NoForward.runDiscover (h : s.NoForward k i) (low : LowLines) (c : Command) :
    (s.runDiscover low c).Follows k i := by
  unfold State.runDiscover
  split
  · exact .inl (h.answer c _)
  · split
    · exact .inl (h.answer c _)
    · split
      · exact .inl (h.answer c _)
      · exact ((h.putDiscovery _ _).fewer (.addOp _ _ _)).settle low

theorem State.NoForward.cancelOn (h : s.NoForward k i) (tag : Byte) (j : Seg) : (s.cancelOn tag j).NoForward k i := by
  unfold State.cancelOn
  split
  · split
    · split
      · exact h.putDiscovery j _
      · exact h.fewer (.endDiscovery s j _)
    · exact h
  · exact h

theorem State.NoForward.runCancel (h : s.NoForward k i) (c : Command) : (s.runCancel c).NoForward k i := by
  unfold State.runCancel
  split
  · exact h.answer c _
  · split
    · exact ((((h.cancelOn _ 0).cancelOn _ 1).cancelOn _ 2).cancelOn _ 3).answerDone c _
    · exact h.answer c _

theorem State.NoForward.runPause (h : s.NoForward k i) (c : Command) : (s.runPause c).NoForward k i := by
  have pending : ∀ j, ((s.modEngine j fun e => { e with pausePending := true }).addOp (.pause j) c.tag).conclude.NoForward
      k i := fun j => ((h.fewer (.pausePending s j true)).fewer (.addOp _ _ _)).conclude
  unfold State.runPause
  split
  · exact h.answer c _
  · split
    · exact h.answer c _
    · unfold State.presentPause
      split
      · exact (h.enterPaused _).answerDone c _
      · exact pending _
      · exact pending _
      · exact h.answerDone c _
      · exact h.answer c _

theorem State.NoForward.runResume (h : s.NoForward k i) (low : LowLines) (c : Command) :
    (s.runResume low c).Follows k i := by
  have lifted : ∀ j, (((s.modEngine j fun e => { e with pausePending := false }).answerPause j .cancelled).answerDone c
      []).NoForward k i := fun j => ((h.fewer (.pausePending s j false)).fewer (.settleOps _ _)).answerDone c _
  unfold State.runResume
  split
  · exact .inl (h.answer c _)
  · rename_i j _
    split
    · exact .inl (h.answer c _)
    · unfold State.presentResume
      split
      · have idle : (s.modEngine j fun e => { e with state := .idle }).NoForward k i := h.modEngine j _ fun _ => .inl rfl
        exact idle.settleDone low c _
      · exact .inl (lifted j)
      · exact .inl (lifted j)
      · exact .inl (h.answerDone c _)
      · exact .inl (((h.fewer (.resumeWaiting s j true)).enterRecovering j).fewer (.addOp _ _ _)).conclude

theorem State.NoForward.runFlush (h : s.NoForward k i) (low : LowLines) (c : Command) :
    (s.runFlush low c).Follows k i := by
  unfold State.runFlush
  split
  · exact .inl (h.answer c _)
  · exact (h.purgeAndRetire _ _).settleDone low c _

theorem State.NoForward.runPartition (h : s.NoForward k i) (c : Command) : (s.runPartition c).NoForward k i := by
  unfold State.runPartition
  split
  · exact h.answer c _
  · split
    · split
      · exact (h.fewer (.setShares s _)).answerDone c _
      · exact h.answer c _
    · exact h.answer c _

theorem State.NoForward.runSetTiming (h : s.NoForward k i) (c : Command) : (s.runSetTiming c).NoForward k i := by
  unfold State.runSetTiming
  split
  · exact h.answer c _
  · exact (h.fewer (.retime s _)).answerDone c _

theorem State.NoForward.runSetProtect (h : s.NoForward k i) (c : Command) : (s.runSetProtect c).NoForward k i := by
  unfold State.runSetProtect
  split
  · exact h.answer c _
  · split
    · exact h.answer c _
    · split
      · exact h.answer c _
      · split
        · exact h.answer c _
        · exact (h.fewer (.setPu s _)).answerDone c _

theorem State.NoForward.runFixProtect (h : s.NoForward k i) (c : Command) : (s.runFixProtect c).NoForward k i := by
  unfold State.runFixProtect
  split
  · exact h.answer c _
  · exact (h.fewer (.setPu s _)).answerDone c _

theorem State.NoForward.runSetAlert (h : s.NoForward k i) (c : Command) : (s.runSetAlert c).NoForward k i := by
  unfold State.runSetAlert
  split
  · exact h.answer c _
  · exact (h.fewer (.setAu s _)).answerDone c _

theorem State.NoForward.runChanges (h : s.NoForward k i) (c : Command) : (s.runChanges c).NoForward k i :=
  (h.fewer (.setAu s _)).answerDone c _

theorem State.NoForward.restartBlocks (h : s.NoForward k i) (level2 : Bool) :
    (s.restartBlocks level2).NoForward k i := fun x hx forward => by
  obtain ⟨-, -, y, hy, kind, slot⟩ := restartBlocks_tx level2 hx
  exact h y hy ⟨kind ▸ forward.1, slot ▸ forward.2⟩

theorem State.NoForward.runRestart (h : s.NoForward k i) (bytes : List Byte) (low : LowLines) :
    (s.runRestart bytes low).Follows k i := by
  have framed : ∀ m, (s.setMp m).NoForward k i := fun m => h.fewer (.setMp s m)
  unfold State.runRestart
  split
  · exact (((framed _).restartBlocks _).requestProbes _).settle low
  · exact .inl (framed _)

/-! #### Every event -/

theorem State.NoForward.live (h : s.NoForward k i) {f : State → State} (hf : (f s).Follows k i) :
    (s.live f).Follows k i := by
  rcases live_cases s f with e | e <;> rw [e]
  · exact .inl h
  · exact hf

theorem State.NoForward.timed (h : s.NoForward k i) {f : State → State} (hf : (f s).Follows k i) :
    (s.timed f).Follows k i := by
  rcases timed_cases s f with e | e <;> rw [e]
  · exact .inl h
  · exact hf

theorem State.NoForward.frame (h : s.NoForward k i) {f : State → State} (hf : (f s).Follows k i) :
    (s.frame f).Follows k i := by
  rcases frame_cases s f with e | e | e <;> rw [e]
  · exact .inl h
  · exact .inl (h.fewer (.setMp s _))
  · exact hf

theorem State.NoForward.taking (h : s.NoForward k i) {kind : CmdKind} {f : Command → State → State}
    (hf : ∀ c u, State.NoForward u k i → (f c u).Follows k i) : (s.taking kind f).Follows k i := by
  rcases taking_cases s kind f with e | ⟨c, rest, -, -, e⟩ <;> rw [e]
  · exact .inl h
  · exact hf c _ (h.fewer (.of_blocks rfl rfl rfl))

theorem exec_follows (h : s.NoForward k i) (c : Instr) (t : State) (he : exec c s = .next t) : t.Follows k i := by
  cases c with
  | addressEvent a d low =>
    cases he
    refine h.live (State.Follows.settle (State.Follows.resolve ?_ a d) low)
    split
    · exact .inl h
    · exact State.Follows.arbitrateAll (.inl (h.closeForRestart false)) low
  | repeatedStart cut next low =>
    cases he
    have closed := h.closeForRestart cut
    refine h.live ?_
    dsimp only
    split
    · exact ((State.Follows.arbitrateAll (.inl closed) low).resolve _ _).settle low
    · exact closed.settle low
  | stopCondition low => cases he; exact h.live (h.closeForStop.settle low)
  | writeEvent b => cases he; exact h.live (.inl (h.fewer (.takeByte s b)).conclude)
  | masterReadAnswer ack => cases he; exact h.live (.inl (h.fewer (.takeReadAnswer s ack)).conclude)
  | targetAddressAnswer j ack => cases he; exact h.live (.inl (h.fewer (.addressAnswer s j ack)).conclude)
  | targetByteAnswer j ack => cases he; exact h.live (.inl (h.fewer (.byteAnswer s j ack)).conclude)
  | readByteArrives j b => cases he; exact h.live (.inl (h.fewer (.byteArrives s j b)).conclude)
  | holdLimitExpiry => cases he; exact h.live (.inl (h.fewer (.holdExpiry s)).conclude)
  | forwardEnd j low => cases he; exact h.live (h.endForward j low)
  | deliveryEnd j o low => cases he; exact h.live (h.endDelivery j o low)
  | probeEnd j answer low => cases he; exact h.live (h.endProbe j answer low)
  | discoveryProbeEnd j found low => cases he; exact h.live (h.endDiscoveryProbe j found low)
  | stall j clock =>
    cases he
    refine h.live ?_
    cases clock with
    | heldLow => exact .inl (h.fewer (.clockHeld s j))
    | rises => exact .inl (h.fewer (.clockRises s j))
    | expires low => exact h.takeStall j low
  | busFault j => cases he; exact h.live (.inl (h.takeFault j).conclude)
  | recoveryAttemptSucceeds j low =>
    cases he
    split
    · exact (h.attemptSucceeds j).settle low
    · exact .inl h
  | recoveryAttemptFails j =>
    cases he
    split
    · exact .inl (h.attemptFails j).conclude
    · exact .inl h
  | attemptTimerExpiry j =>
    cases he
    split
    · exact .inl (h.fewer (.onBus j _ rfl fun _ => ⟨rfl, rfl, rfl, rfl⟩))
    · exact .inl h
  | closingEnd j low =>
    cases he
    split
    · exact (h.releaseBus j).settle low
    · exact .inl h
  | surveyTimerExpiry low => cases he; exact h.timed (h.surveyPass.settle low)
  | idleTimerExpiry =>
    cases he
    refine h.timed (.inl ?_)
    split
    · exact h.fewer (.setHm s _)
    · exact h
  | stepTimerExpiry low =>
    cases he
    exact h.timed (((h.fewer (.setHm s _)).holdOffSteps allSlots).settle low)
  | secondTimerExpiry =>
    cases he
    exact h.timed (.inl ((h.fewer (.setHm s _)).absenceSeconds allSlots).conclude)
  | lookup => cases he; exact h.taking fun c _ hu => .inl (hu.runLookup c)
  | bind low => cases he; exact h.taking fun c _ hu => hu.runBind low c
  | edit => cases he; exact h.taking fun c _ hu => .inl (hu.runEdit c)
  | rebind low => cases he; exact h.taking fun c _ hu => hu.runRebind low c
  | retire => cases he; exact h.taking fun c _ hu => .inl (hu.runRetire c)
  | clearCounts => cases he; exact h.taking fun c _ hu => .inl (hu.runClearCounts c)
  | probe low => cases he; exact h.taking fun c _ hu => hu.runProbe low c
  | discover low => cases he; exact h.taking fun c _ hu => hu.runDiscover low c
  | cancel => cases he; exact h.taking fun c _ hu => .inl (hu.runCancel c)
  | pause => cases he; exact h.taking fun c _ hu => .inl (hu.runPause c)
  | resume low => cases he; exact h.taking fun c _ hu => hu.runResume low c
  | flush low => cases he; exact h.taking fun c _ hu => hu.runFlush low c
  | partition => cases he; exact h.taking fun c _ hu => .inl (hu.runPartition c)
  | setTiming => cases he; exact h.taking fun c _ hu => .inl (hu.runSetTiming c)
  | setProtect => cases he; exact h.taking fun c _ hu => .inl (hu.runSetProtect c)
  | fixProtect => cases he; exact h.taking fun c _ hu => .inl (hu.runFixProtect c)
  | setAlert => cases he; exact h.taking fun c _ hu => .inl (hu.runSetAlert c)
  | changes => cases he; exact h.taking fun c _ hu => .inl (hu.runChanges c)
  | status c => cases he; exact h.frame (.inl (h.fewer (.setMp s _)))
  | writeEnable => cases he; exact h.frame (.inl (h.fewer (.setMp s _)))
  | writeDisable => cases he; exact h.frame (.inl (h.fewer (.setMp s _)))
  | push bytes => cases he; exact h.frame (.inl (h.fewer (.runPush s bytes)))
  | pop clocks e => cases he; exact h.frame (.inl (h.fewer (.runPop s clocks e)))
  | restartEnable => cases he; exact h.frame (.inl (h.fewer (.setMp s _)))
  | restart bytes low => cases he; exact h.frame (h.runRestart bytes low)
  | ackRestart => cases he; exact h.frame (.inl ((h.fewer (.setMp s _)).fewer (.evaluate _)))
  | unknownFrame code =>
    cases he
    split
    · exact h.frame (.inl (h.fewer (.setMp s _)))
    · exact .inl h
  | partialFrame bits =>
    cases he
    split
    · exact h.frame (.inl (h.fewer (.setMp s _)))
    · exact .inl h
  | emptyFrame => cases he; exact h.frame (.inl h)
  | fullReset =>
    cases he
    exact .inl (.of_noTx (congrArg Engine.tx (reset_engine k)))
  | protChange high => cases he; exact .inl (h.fewer (.setPu s _))
  | fullResetEnd mcs =>
    cases he
    split
    · exact .inl (h.fewer (.of_blocks rfl rfl rfl))
    · exact .inl h

/-- Settles O51: only the arbiters' choice starts a forward, and it finds the queue without an entry of the record. -/
theorem forwardsFollowTheQueue : Obligations.ForwardsFollowTheQueue := by
  unfold Obligations.ForwardsFollowTheQueue
  intro c s t k x i he hx kind slot before
  rcases exec_follows (k := k) (i := i) before c t he with unserved | clear
  · exact absurd ⟨kind, slot⟩ (unserved x hx.1)
  · exact clear

end Sys2Proof.Machine
end

section
namespace Sys2Proof.Machine

variable {s t : State}

/-! ### The law of the pool through every operation (R48, R77, R79)

The law is on the pool and on the bytes UP has staged. Four operations alone put something new there: a posted write
reserves 18 bytes and then joins its queue, UP stages a byte, and a PARTITION sets the shares. Every other operation
leaves the queues as they were or cheaper, by one lemma per operation in the order of the model. -/

theorem queueCost_append (es fs : List Entry) : queueCost (es ++ fs) = queueCost es + queueCost fs := by
  induction es with
  | nil => exact (Nat.zero_add _).symm
  | cons e rest ih => simp only [List.cons_append, queueCost, ih, Nat.add_assoc]

/-- A queue that has lost entries costs no more. -/
theorem queueCost_sublist {es fs : List Entry} (h : es.Sublist fs) : queueCost es ≤ queueCost fs := by
  induction h with
  | slnil => exact Nat.le_refl _
  | cons e _ ih => exact ih.trans (Nat.le_add_left _ _)
  | cons_cons e _ ih => exact Nat.add_le_add_left ih _

/-- Cheaper queues under the same shares, with the reservation kept or released and no more bytes staged. -/
theorem State.PoolLaw.eased (h : s.PoolLaw)
    (queue : ∀ k, queueCost (t.poolSeg k).queue ≤ queueCost (s.poolSeg k).queue)
    (share : ∀ k, (t.poolSeg k).share = (s.poolSeg k).share)
    (reservation : t.pool.reservation = none ∨ t.pool.reservation = s.pool.reservation)
    (staged : t.up.ctx.staged.length ≤ s.up.ctx.staged.length) : t.PoolLaw := by
  obtain ⟨uses, shares, bytes⟩ := h
  refine ⟨fun k => ?_, ?_, staged.trans bytes⟩
  · have use := uses k
    have cheaper := queue k
    unfold State.use at use ⊢
    rw [share]
    rcases reservation with e | e <;> rw [e]
    · simp only [reduceCtorEq, if_false]
      omega
    · omega
  · have sum : t.shareSum = s.shareSum := by simp only [State.shareSum, share]
    rwa [sum]

theorem State.PoolLaw.samePool (h : s.PoolLaw) (pool : t.pool = s.pool)
    (staged : t.up.ctx.staged.length ≤ s.up.ctx.staged.length) : t.PoolLaw :=
  h.eased (fun k => by rw [poolSeg_of_pool pool]) (fun k => by rw [poolSeg_of_pool pool]) (.inr (by rw [pool])) staged

theorem State.PoolLaw.kept (h : s.PoolLaw) (pool : t.pool = s.pool) (up : t.up = s.up) : t.PoolLaw :=
  h.samePool pool (by rw [up])

/-- A segment's queue changes to one that costs no more. -/
theorem State.PoolLaw.modPool (h : s.PoolLaw) (k : Seg) (f : PoolSeg → PoolSeg)
    (queue : queueCost (f (s.poolSeg k)).queue ≤ queueCost (s.poolSeg k).queue)
    (share : ∀ p, (f p).share = p.share) : (s.modPool k f).PoolLaw := by
  refine h.eased (fun j => ?_) (fun j => ?_) (.inr rfl) (Nat.le_refl _)
  · rw [poolSeg_modPool]
    split
    · rename_i here; rw [here]; exact queue
    · exact Nat.le_refl _
  · rw [poolSeg_modPool]
    split
    · rename_i here; rw [here]; exact share _
    · rfl

/-! #### The other blocks -/

theorem State.PoolLaw.setDir (h : s.PoolLaw) (d : Directory) : (s.setDir d).PoolLaw := h.kept rfl rfl

theorem State.PoolLaw.setPu (h : s.PoolLaw) (p : Protection) : (s.setPu p).PoolLaw := h.kept rfl rfl

theorem State.PoolLaw.setAu (h : s.PoolLaw) (a : Alerts) : (s.setAu a).PoolLaw := h.kept rfl rfl

theorem State.PoolLaw.setMp (h : s.PoolLaw) (m : Port) : (s.setMp m).PoolLaw := h.kept rfl rfl

theorem State.PoolLaw.setHm (h : s.PoolLaw) (m : Health) : (s.setHm m).PoolLaw := h.kept rfl rfl

theorem State.PoolLaw.evaluate (h : s.PoolLaw) : s.evaluate.PoolLaw := h.kept rfl rfl

/-! #### UP's answers and withdrawn requests (R35, R42) -/

theorem upStandIn_staged (s : State) : s.upStandIn.up.ctx.staged.length ≤ s.up.ctx.staged.length := by
  unfold State.upStandIn
  dsimp only
  split
  · exact Nat.le_refl _
  · exact Nat.zero_le _

theorem State.PoolLaw.upNak (h : s.PoolLaw) : s.upNak.PoolLaw := h.samePool rfl (Nat.zero_le _)

theorem State.PoolLaw.upStandIn (h : s.PoolLaw) : s.upStandIn.PoolLaw := h.samePool (by simp) (upStandIn_staged s)

theorem State.PoolLaw.modEngine (h : s.PoolLaw) (k : Seg) (f : Engine → Engine) : (s.modEngine k f).PoolLaw :=
  h.kept rfl rfl

theorem State.PoolLaw.settleOps (h : s.PoolLaw) (f : LongOp → Option Response) : (s.settleOps f).PoolLaw := h.kept rfl rfl

theorem State.PoolLaw.withdraw (h : s.PoolLaw) (k : Seg) (how : Withdrawal) : (s.withdraw k how).PoolLaw := by
  have dropped := h.modEngine k fun e => { e with request := none }
  unfold State.withdraw
  split
  · exact h
  · dsimp only
    split
    · exact dropped.upStandIn
    · exact dropped.upNak

theorem State.PoolLaw.withdrawSlot (h : s.PoolLaw) (k : Seg) (i : Slot) (how : Withdrawal) :
    (s.withdrawSlot k i how).PoolLaw := by
  unfold State.withdrawSlot
  split
  · split
    · exact h.withdraw k how
    · exact h
  · exact h

/-! #### Purges and records that change or go (R11, R12, R87) -/

theorem State.PoolLaw.putRec (h : s.PoolLaw) (i : Slot) (r : Option Record) : (s.putRec i r).PoolLaw := h.kept rfl rfl

theorem State.PoolLaw.purge (h : s.PoolLaw) (k : Seg) (covers : Entry → Bool) : (s.purge k covers).PoolLaw := by
  have emptied : (s.modPool k fun p => { p with
      queue := s.busEntries k ++ (s.waitingEntries k).filter fun e => !covers e
      purgeMark := p.purgeMark || (s.busEntries k).any covers }).PoolLaw := by
    refine h.modPool k _ (queueCost_sublist ?_) fun _ => rfl
    rw [← bus_waiting_append s k]
    exact (List.Sublist.refl _).append List.filter_sublist
  exact emptied.kept (undeliveredClaims_frame _ _).2.2.2.2.2.2.2.2.1 (undeliveredClaims_frame _ _).2.2.2.2.2.2.1

theorem State.PoolLaw.freeSlot (h : s.PoolLaw) (i : Slot) : (s.freeSlot i).PoolLaw := by
  unfold State.freeSlot
  split
  · exact h
  · refine State.PoolLaw.settleOps (State.PoolLaw.settleOps (State.PoolLaw.withdrawSlot ?_ _ i .nak) _) _
    exact h.kept rfl rfl

theorem State.PoolLaw.retireCheck (h : s.PoolLaw) (i : Slot) : (s.retireCheck i).PoolLaw := by
  rcases retireCheck_cases s i with e | e <;> rw [e]
  · exact h.freeSlot i
  · exact h

theorem State.PoolLaw.retireChecks (h : s.PoolLaw) (es : List Entry) : (s.retireChecks es).PoolLaw := by
  induction es generalizing s with
  | nil => exact h
  | cons e rest ih => exact ih (h.retireCheck e.slot)

theorem State.PoolLaw.purgeAndRetire (h : s.PoolLaw) (k : Seg) (covers : Entry → Bool) :
    (s.purgeAndRetire k covers).PoolLaw := (h.purge k covers).retireChecks _

theorem State.PoolLaw.moveRec (h : s.PoolLaw) (i : Slot) (f : Record → Record) : (s.moveRec i f).PoolLaw := by
  unfold State.moveRec
  split
  · exact h
  · rename_i r _
    have marked : ((s.putRec i (some (f r))).markChanged i).PoolLaw := h.kept rfl rfl
    have answered := marked.withdrawSlot r.segment i .standIn
    dsimp only
    split
    · unfold State.leaveBound
      dsimp only
      split
      · exact answered.purge _ _
      · exact answered
    · exact marked

theorem State.PoolLaw.charge (h : s.PoolLaw) (i : Slot) : (s.charge i).PoolLaw := by
  unfold State.charge
  split
  · split
    · split
      · exact h.moveRec i _
      · exact h.putRec i _
    · exact h
  · exact h

theorem State.PoolLaw.absenceExpiry (h : s.PoolLaw) (i : Slot) : (s.absenceExpiry i).PoolLaw := by
  unfold State.absenceExpiry
  split
  · split
    · split
      · exact h.freeSlot i
      · exact h.putRec i _
    · exact h
  · exact h

theorem State.PoolLaw.afterEnd (h : s.PoolLaw) (i : Slot) : (s.afterEnd i).PoolLaw := by
  have checked := h.retireCheck i
  unfold State.afterEnd
  dsimp only
  split
  · split
    · exact (checked.putRec i _).absenceExpiry i
    · exact checked
  · exact checked

theorem State.PoolLaw.storeIdentity (h : s.PoolLaw) (i : Slot) (byte : Option Byte) : (s.storeIdentity i byte).PoolLaw := by
  unfold State.storeIdentity
  split
  · split
    · exact h
    · exact h.kept rfl rfl
  · exact h

theorem State.PoolLaw.reprobeFailed (h : s.PoolLaw) (i : Slot) (r : Record) (o : ProbeOutcome) :
    (s.reprobeFailed i r o).PoolLaw := by
  unfold State.reprobeFailed
  split
  · exact h.moveRec i _
  · exact h.kept (by simp) (by simp)

theorem State.PoolLaw.applyOutcome (h : s.PoolLaw) (i : Slot) (r : Record) (o : ProbeOutcome) (byte : Option Byte) :
    (s.applyOutcome i r o byte).PoolLaw := by
  unfold State.applyOutcome
  split
  · exact h.storeIdentity i byte
  · exact h
  · exact (h.moveRec i _).storeIdentity i byte
  · exact h.reprobeFailed i r _
  · exact h
  · exact h.moveRec i _
  · exact h.reprobeFailed i r _
  · exact h
  · exact h
  · exact h.moveRec i _

/-! #### Probe requests, and buses that are left (R58, R69 to R71, R96) -/

theorem State.PoolLaw.requestProbes (h : s.PoolLaw) (es : List Slot) : (s.requestProbes es).PoolLaw :=
  h.kept (by simp) (by simp)

theorem State.PoolLaw.enterPaused (h : s.PoolLaw) (k : Seg) : (s.enterPaused k).PoolLaw :=
  ((h.modEngine k _).settleOps _).withdraw k .standIn

theorem State.PoolLaw.releaseBus (h : s.PoolLaw) (k : Seg) : (s.releaseBus k).PoolLaw := by
  unfold State.releaseBus
  split
  · exact h.enterPaused k
  · exact h.modEngine k _

theorem State.PoolLaw.enterRecovering (h : s.PoolLaw) (k : Seg) : (s.enterRecovering k).PoolLaw := h.modEngine k _

theorem State.PoolLaw.enterFailed (h : s.PoolLaw) (k : Seg) : (s.enterFailed k).PoolLaw := by
  have emptied : (s.failedEmptied k).PoolLaw := ((h.modEngine k _).withdraw k .standIn).purgeAndRetire k _
  rw [enterFailed_eq]
  exact emptied.kept (by simp [State.failedRefused]) (by simp [State.failedRefused])

theorem State.PoolLaw.attemptFails (h : s.PoolLaw) (k : Seg) : (s.attemptFails k).PoolLaw := by
  unfold State.attemptFails
  dsimp only
  split
  · exact h.modEngine k _
  · exact (h.modEngine k _).enterFailed k

theorem State.PoolLaw.attemptSucceeds (h : s.PoolLaw) (k : Seg) : (s.attemptSucceeds k).PoolLaw := by
  have freed : (s.recovered k).PoolLaw := h.kept rfl rfl
  rw [attemptSucceeds_eq]
  split
  · exact freed.enterPaused k
  · split
    · exact freed.kept (by simp [State.resumeRecovered]) (by simp [State.resumeRecovered])
    · exact freed.modEngine k _

end Sys2Proof.Machine
end

section
namespace Sys2Proof.Machine

variable {s t : State}

/-! #### Transactions that end (R17, R63 to R68, R82 to R86) -/

theorem State.PoolLaw.clearMarker (h : s.PoolLaw) (i : Slot) : (s.clearMarker i).PoolLaw := h.kept (by simp) (by simp)

theorem State.PoolLaw.clearTx (h : s.PoolLaw) (k : Seg) : (s.clearTx k).PoolLaw := h.modEngine k _

theorem State.PoolLaw.forwardOver (h : s.PoolLaw) (slot : Option Slot) (charged : Bool) :
    (s.forwardOver slot charged).PoolLaw := by
  unfold State.forwardOver
  split
  · rename_i i
    have cleared := h.clearMarker i
    refine State.PoolLaw.afterEnd ?_ i
    split
    · exact cleared.charge i
    · exact cleared
  · exact h

/-- The entry that leaves the queue takes its cost with it (R82). -/
theorem State.PoolLaw.removeHead (h : s.PoolLaw) (k : Seg) : (s.removeHead k).PoolLaw :=
  h.modPool k _ (queueCost_sublist (List.drop_sublist 1 _)) fun _ => rfl

theorem State.PoolLaw.deliveryOver (h : s.PoolLaw) (k : Seg) (i : Slot) (lost charged : Bool) :
    (s.deliveryOver k i lost charged).PoolLaw := by
  have off := ((h.removeHead k).clearTx k).clearMarker i
  have claimed : (if lost then (((s.removeHead k).clearTx k).clearMarker i).undeliveredClaim i
      else (((s.removeHead k).clearTx k).clearMarker i).usedClaim i).PoolLaw := by
    split <;> exact off.kept (by simp) (by simp)
  refine State.PoolLaw.afterEnd ?_ i
  split
  · exact claimed.charge i
  · exact claimed

/-- A cut delivery keeps its entry's bytes at the head (R86). -/
theorem State.PoolLaw.deliveryCut (h : s.PoolLaw) (k : Seg) (i : Slot) : (s.deliveryCut k i).PoolLaw := by
  unfold State.deliveryCut
  split
  · rename_i e rest hq
    split
    · exact h.deliveryOver k i true false
    · have again : (s.modPool k fun p => { p with queue := { e with retried := true } :: rest }).PoolLaw :=
        h.modPool k _ (by rw [hq]; exact Nat.le_refl _) fun _ => rfl
      exact ((again.clearTx k).clearMarker i).afterEnd i
  · exact (h.clearTx k).clearMarker i

theorem State.PoolLaw.clearProbeMarker (h : s.PoolLaw) (x : Tx) (i : Slot) : (s.clearProbeMarker x i).PoolLaw := by
  unfold State.clearProbeMarker
  split
  · exact h.clearMarker i
  · exact h

theorem State.PoolLaw.answerBusProbes (h : s.PoolLaw) (i : Slot) (o : ProbeOutcome) (byte : Option Byte) :
    (s.answerBusProbes i o byte).PoolLaw := by
  unfold State.answerBusProbes
  split
  · exact h.settleOps _
  · exact h

theorem State.PoolLaw.probeOver (h : s.PoolLaw) (k : Seg) (x : Tx) (i : Slot) (answer : ProbeAnswer) :
    (s.probeOver k x i answer).PoolLaw := by
  have cleared := h.clearProbeMarker x i
  unfold State.probeOver
  dsimp only
  split
  · split
    · exact ((cleared.applyOutcome i _ _ _).answerBusProbes i _ _).afterEnd i
    · exact cleared.afterEnd i
  · exact cleared

theorem State.PoolLaw.probeCut (h : s.PoolLaw) (k : Seg) (x : Tx) (i : Slot) : (s.probeCut k x i).PoolLaw := by
  have off := (h.clearProbeMarker x i).afterEnd i
  unfold State.probeCut
  dsimp only
  split
  · split
    · exact off.kept rfl rfl
    · exact off
  · exact off

theorem OnlyDiscovery.poolLaw {k : Seg} (d : OnlyDiscovery s t k) (h : s.PoolLaw) : t.PoolLaw := h.kept d.pool d.up

theorem State.PoolLaw.creation (h : s.PoolLaw) (c : Creation) (k : Seg) (a b : Addr) : (c.records k a b s).PoolLaw := by
  cases c <;> exact h.kept rfl rfl

theorem State.PoolLaw.discoveryProbeOver (h : s.PoolLaw) (k : Seg) (a : Addr) (found : Bool) :
    (s.discoveryProbeOver k a found).PoolLaw := by
  unfold State.discoveryProbeOver
  split
  · exact h
  · rename_i d _
    split
    · have created := h.creation (s.judgeCreation k a (d.aliasOf a)) k a (d.aliasOf a)
      unfold State.deviceFound
      dsimp only
      split
      · exact ((putDiscovery_only _ k _).trans (endDiscovery_only _ k _)).poolLaw created
      · exact (afterAddress_only _ k _).poolLaw created
    · exact (afterAddress_only s k _).poolLaw h

/-! #### UP in a transaction (R35 to R38, R45 to R48) -/

theorem answerAsExpired_staged (s : State) : s.answerAsExpired.up.ctx.staged.length ≤ s.up.ctx.staged.length := by
  unfold State.answerAsExpired
  split
  · exact Nat.le_refl _
  · split <;> exact Nat.zero_le _
  · exact Nat.zero_le _
  · exact Nat.le_refl _

theorem State.PoolLaw.answerAsExpired (h : s.PoolLaw) : s.answerAsExpired.PoolLaw :=
  h.samePool (by rw [answerAsExpired_eq]; rfl) (answerAsExpired_staged s)

theorem State.PoolLaw.closeDownstream (h : s.PoolLaw) (k : Seg) : (s.closeDownstream k).PoolLaw := by
  rw [closeDownstream_eq]
  exact h.samePool rfl (Nat.le_refl _)

theorem State.PoolLaw.forwardLost (h : s.PoolLaw) (k : Seg) (x : Tx) : (s.forwardLost k x).PoolLaw := by
  unfold State.forwardLost
  dsimp only
  split
  · exact h.answerAsExpired.closeDownstream k
  · exact h.closeDownstream k

theorem State.PoolLaw.dropRequest (h : s.PoolLaw) : s.dropRequest.PoolLaw := by
  unfold State.dropRequest
  split
  · exact h.modEngine _ _
  · exact h

theorem State.PoolLaw.requestEndOpen (h : s.PoolLaw) : s.requestEndOpen.PoolLaw := h.kept (by simp) (by simp)

theorem State.PoolLaw.holdExpiry (h : s.PoolLaw) : s.holdExpiry.PoolLaw := by
  unfold State.holdExpiry
  split
  · exact h.dropRequest.requestEndOpen.answerAsExpired
  · exact h

theorem State.PoolLaw.carryByte (h : s.PoolLaw) (k : Seg) (b : Byte) : (s.carryByte k b).PoolLaw := by
  unfold State.carryByte
  split
  · split
    · exact h.samePool rfl (Nat.le_refl _)
    · exact h
  · exact h

/-- UP stages a byte only while it holds fewer than 16 (R48). -/
theorem State.PoolLaw.takeByte (h : s.PoolLaw) (b : Byte) : (s.takeByte b).PoolLaw := by
  have answered : ∀ o, (s.setOut o).PoolLaw := fun _ => h.samePool rfl (Nat.le_refl _)
  unfold State.takeByte
  split
  · split
    · split
      · rename_i room
        obtain ⟨uses, shares, -⟩ := h
        refine ⟨uses, shares, ?_⟩
        have longer : (s.up.ctx.staged ++ [b]).length = s.up.ctx.staged.length + 1 := List.length_append
        exact longer ▸ room
      · exact answered _
    · exact answered _
    · split
      · exact h.carryByte _ b
      · exact h
    · split
      · exact h.carryByte _ b
      · exact h
    · exact h
    · exact h
  · exact answered _
  · exact h
  · exact h

theorem State.PoolLaw.answerByte (h : s.PoolLaw) (k : Seg) (ack : Bool) : (s.answerByte k ack).PoolLaw := by
  unfold State.answerByte
  split
  · split
    · dsimp only
      split <;> exact h.samePool rfl (Nat.le_refl _)
    · exact h
  · exact h

theorem State.PoolLaw.takeReadAnswer (h : s.PoolLaw) (ack : Bool) : (s.takeReadAnswer ack).PoolLaw := by
  unfold State.takeReadAnswer
  split
  · split
    · exact h.samePool rfl (Nat.le_refl _)
    · split
      · split <;> exact h.samePool rfl (Nat.le_refl _)
      · split
        · exact h.answerByte _ ack
        · exact h
      · split
        · exact h.answerByte _ ack
        · exact h
      · exact h
      · exact h
      · exact h
  · exact h
  · exact h
  · exact h

/-! #### A target's answers and bytes (R36 to R38, R60) -/

theorem State.PoolLaw.stepTx (h : s.PoolLaw) (k : Seg) (x : Tx) : (s.stepTx k x).PoolLaw := h.modEngine k _

theorem State.PoolLaw.usedByForward (h : s.PoolLaw) (x : Tx) : (s.usedByForward x).PoolLaw := by
  unfold State.usedByForward
  split
  · exact h.kept (by simp) (by simp)
  · exact h

theorem State.PoolLaw.relayAddressAck (h : s.PoolLaw) (k : Seg) (x : Tx) : (s.relayAddressAck k x).PoolLaw := by
  unfold State.relayAddressAck
  dsimp only
  split <;> exact h.samePool rfl (Nat.le_refl _)

theorem State.PoolLaw.forwardAddressAnswer (h : s.PoolLaw) (k : Seg) (x : Tx) (ack : Bool) :
    (s.forwardAddressAnswer k x ack).PoolLaw := by
  have used := fun y => (h.usedByForward x).stepTx k y
  have stepped := h.stepTx k
  unfold State.forwardAddressAnswer
  split
  · split
    · exact used _
    · exact stepped _
  · split
    · dsimp only
      split
      · exact (used _).relayAddressAck k x
      · exact used _
    · dsimp only
      split
      · exact (stepped _).upNak
      · exact stepped _

theorem State.PoolLaw.sendNext (h : s.PoolLaw) (k : Seg) (x : Tx) (n : Nat) : (s.sendNext k x n).PoolLaw := by
  unfold State.sendNext
  split
  · split <;> exact h.stepTx k _
  · exact h

theorem State.PoolLaw.addressAnswer (h : s.PoolLaw) (k : Seg) (ack : Bool) : (s.addressAnswer k ack).PoolLaw := by
  unfold State.addressAnswer
  split
  · split
    · split
      · exact h.forwardAddressAnswer k _ ack
      · exact h.forwardAddressAnswer k _ ack
      · split
        · exact h.sendNext k _ 0
        · exact h.stepTx k _
      · exact h
      · exact h
      · exact h
    · exact h
  · exact h

theorem State.PoolLaw.forwardByteAnswer (h : s.PoolLaw) (k : Seg) (x : Tx) (ack : Bool) :
    (s.forwardByteAnswer k x ack).PoolLaw := by
  have stepped := h.stepTx k
  unfold State.forwardByteAnswer
  dsimp only
  split
  · exact stepped _
  · split
    · split
      · exact (stepped _).samePool rfl (Nat.le_refl _)
      · exact stepped _
    · split
      · exact (stepped _).upNak
      · exact stepped _

theorem State.PoolLaw.byteAnswer (h : s.PoolLaw) (k : Seg) (ack : Bool) : (s.byteAnswer k ack).PoolLaw := by
  unfold State.byteAnswer
  split
  · split
    · split
      · exact h
      · split
        · exact h.forwardByteAnswer k _ ack
        · exact h.forwardByteAnswer k _ ack
        · split
          · exact h.sendNext k _ _
          · exact h.stepTx k _
        · exact h
        · exact h
        · exact h
    · exact h
  · exact h

theorem State.PoolLaw.byteArrives (h : s.PoolLaw) (k : Seg) (b : Byte) : (s.byteArrives k b).PoolLaw := by
  have stepped := h.stepTx k
  unfold State.byteArrives
  split
  · split
    · split
      · exact stepped _
      · dsimp only
        split
        · exact (stepped _).samePool rfl (Nat.le_refl _)
        · exact stepped _
    · exact h
  · exact h

end Sys2Proof.Machine
end

section
namespace Sys2Proof.Machine

variable {s t : State}

/-! #### Posted writes (R32, R48, R49, R79, R80) -/

/-- An entry of 16 bytes at most costs no more than the 18 reserved for it, and takes their place. -/
theorem State.PoolLaw.enqueueReserved (h : s.PoolLaw) {k : Seg} (reserved : s.pool.reservation = some k) (e : Entry)
    (cost : e.cost ≤ 18) : (s.modPool k fun p => { p with queue := p.queue ++ [e] }).releaseReservation.PoolLaw := by
  obtain ⟨uses, shares, staged⟩ := h
  generalize joins : (fun p : PoolSeg => { p with queue := p.queue ++ [e] }) = f
  have share : ∀ j, ((s.modPool k f).releaseReservation.poolSeg j).share = (s.poolSeg j).share := fun j => by
    change ((s.modPool k f).poolSeg j).share = _
    rw [poolSeg_modPool]
    split
    · rename_i same; rw [same, ← joins]
    · rfl
  refine ⟨fun j => ?_, ?_, staged⟩
  · have use := uses j
    unfold State.use at use ⊢
    change queueCost ((s.modPool k f).poolSeg j).queue + 0 ≤ _
    rw [share, poolSeg_modPool]
    by_cases hj : j = k
    · subst hj
      rw [reserved, if_pos rfl, Config.reservationBytes] at use
      rw [if_pos rfl, ← joins, queueCost_append, queueCost, queueCost]
      omega
    · rw [if_neg hj]
      omega
  · unfold State.shareSum at shares ⊢
    simpa only [share] using shares

theorem State.PoolLaw.commit (h : s.PoolLaw) : s.commit.PoolLaw := by
  have released : s.releaseReservation.PoolLaw :=
    h.eased (fun _ => Nat.le_refl _) (fun _ => rfl) (.inl rfl) (Nat.le_refl _)
  have cost : ∀ i, ({ slot := i, data := s.up.ctx.staged, retried := false } : Entry).cost ≤ 18 := fun i =>
    Nat.add_le_add_right h.2.2 2
  unfold State.commit
  split
  · rename_i i a d k _ _ hk
    split
    · exact h.enqueueReserved hk _ (cost i)
    · split
      · exact released.kept (by simp) (by simp)
      · exact released
  · exact released

theorem State.PoolLaw.leaveTransaction (h : s.PoolLaw) : s.leaveTransaction.PoolLaw := h.samePool rfl (Nat.zero_le _)

theorem State.PoolLaw.closeForStop (h : s.PoolLaw) : s.closeForStop.PoolLaw := by
  unfold State.closeForStop
  split
  · exact h.commit.leaveTransaction
  · exact h.dropRequest.requestEndOpen.leaveTransaction

theorem State.PoolLaw.closeForRestart (h : s.PoolLaw) (cut : Bool) : (s.closeForRestart cut).PoolLaw := by
  unfold State.closeForRestart
  split
  · exact h.commit.leaveTransaction
  · split
    · split
      · exact h.leaveTransaction
      · exact h.requestEndOpen.leaveTransaction
    · exact h.dropRequest.leaveTransaction
  · exact h.requestEndOpen.leaveTransaction

/-! #### Addresses (R30 to R36) -/

theorem State.PoolLaw.abandonOpen (h : s.PoolLaw) : s.abandonOpen.PoolLaw := h.requestEndOpen.samePool rfl (Nat.le_refl _)

theorem State.PoolLaw.resolveRefused (h : s.PoolLaw) : s.resolveRefused.PoolLaw := h.abandonOpen.upNak

theorem State.PoolLaw.resolveStandIn (h : s.PoolLaw) (a : Addr) (d : Dir) (i : Slot) (r : Record) :
    (s.resolveStandIn a d i r).PoolLaw :=
  State.PoolLaw.upStandIn (h.abandonOpen.samePool rfl (Nat.zero_le _))

/-- PWP grants the 18 bytes only where the share has them left (R79). -/
theorem State.PoolLaw.resolvePosted (h : s.PoolLaw) (a : Addr) (d : Dir) (i : Slot) (r : Record)
    (granted : s.grants r.segment = true) : (s.resolvePosted a d i r).PoolLaw := by
  obtain ⟨room, none⟩ := (grants_iff s r.segment).mp granted
  obtain ⟨uses, shares, -⟩ := h
  have pool : ∀ k, (s.resolvePosted a d i r).poolSeg k = s.poolSeg k := abandonOpen_poolSeg s
  refine ⟨fun k => ?_, ?_, Nat.zero_le _⟩
  · have use := uses k
    unfold State.use at use ⊢
    rw [pool]
    change _ + (if some r.segment = some k then 18 else 0) ≤ _
    split
    · rename_i e
      cases e
      omega
    · omega
  · unfold State.shareSum at shares ⊢
    simpa only [pool] using shares

theorem State.PoolLaw.resolveCarried (h : s.PoolLaw) (mode : UpMode) (a : Addr) (d : Dir) (k : Seg) (slot : Option Slot)
    (target : Addr) (answer : Option Answer) : (s.resolveCarried mode a d k slot target answer).PoolLaw := by
  unfold State.resolveCarried
  dsimp only
  split
  · exact h.samePool rfl (Nat.zero_le _)
  · have asked := h.abandonOpen.modEngine k fun e => { e with
      request := some { slot := slot, target := target, dir := d } }
    exact asked.samePool rfl (Nat.zero_le _)

theorem State.PoolLaw.resolveRecord (h : s.PoolLaw) (a : Addr) (d : Dir) (i : Slot) (r : Record) :
    (s.resolveRecord a d i r).PoolLaw := by
  unfold State.resolveRecord
  split
  · split
    · rename_i posts
      exact h.resolvePosted a d i r posts.2.2.2
    · split
      · exact h.resolveCarried _ a d _ _ _ _
      · exact h.resolveStandIn a d i r
  · exact h.resolveStandIn a d i r

theorem State.PoolLaw.resolveUnknown (h : s.PoolLaw) (a : Addr) (d : Dir) : (s.resolveUnknown a d).PoolLaw := by
  unfold State.resolveUnknown
  split
  · split
    · exact h.resolveCarried _ a d _ _ _ _
    · exact h.resolveRefused
  · exact h.resolveRefused

theorem State.PoolLaw.resolve (h : s.PoolLaw) (a : Addr) (d : Dir) : (s.resolve a d).PoolLaw := by
  have noticed : (s.setHm s.hm.notice).PoolLaw := h.kept rfl rfl
  unfold State.resolve
  dsimp only
  split
  · exact noticed.resolveRefused
  · split
    · split
      · exact noticed.resolveRecord a d _ _
      · exact noticed.resolveUnknown a d
    · exact noticed.resolveUnknown a d

/-! #### The ends of events (R54, R132) -/

/-- Arbiters open a downstream transaction at most. -/
theorem OnlyArbiters.poolLaw (c : OnlyArbiters s t) (h : s.PoolLaw) : t.PoolLaw := by
  obtain ⟨-, -, -, -, -, ctx, -, -, -, pool, -⟩ := c
  have staged : t.up.ctx.staged = s.up.ctx.staged := by
    have same := congrArg UpContext.staged ctx
    exact same
  exact h.samePool pool (by rw [staged])

theorem State.PoolLaw.arbitrateAll (h : s.PoolLaw) (low : LowLines) : (s.arbitrateAll low).PoolLaw :=
  (arbitrateAll_onlyArbiters s low).poolLaw h

theorem State.PoolLaw.conclude (h : s.PoolLaw) : s.conclude.PoolLaw := h.kept rfl rfl

theorem State.PoolLaw.settle (h : s.PoolLaw) (low : LowLines) : (s.settle low).PoolLaw := (h.arbitrateAll low).conclude

theorem State.PoolLaw.settleDone (h : s.PoolLaw) (low : LowLines) (c : Command) (results : List Byte) :
    (s.settleDone low c results).PoolLaw :=
  (h.arbitrateAll low).kept (concludeWith_frame _ _).2.2.2.1 (concludeWith_frame _ _).1

theorem State.PoolLaw.answer (h : s.PoolLaw) (c : Command) (code : ResultCode) : (s.answer c code).PoolLaw := h.kept rfl rfl

theorem State.PoolLaw.answerDone (h : s.PoolLaw) (c : Command) (results : List Byte) :
    (s.answerDone c results).PoolLaw := h.kept rfl rfl

/-! #### Events of the segment buses -/

theorem State.PoolLaw.endForward (h : s.PoolLaw) (k : Seg) (low : LowLines) : (s.endForward k low).PoolLaw := by
  unfold State.endForward
  split
  · split
    · exact (((h.closeDownstream k).forwardOver _ _).releaseBus k).settle low
    · exact h
  · exact h

theorem State.PoolLaw.endDelivery (h : s.PoolLaw) (k : Seg) (o : DeliveryEnd) (low : LowLines) :
    (s.endDelivery k o low).PoolLaw := by
  unfold State.endDelivery
  split
  · split
    · exact ((h.deliveryOver k _ _ _).releaseBus k).settle low
    · exact h
  · exact h

theorem State.PoolLaw.endProbe (h : s.PoolLaw) (k : Seg) (answer : ProbeAnswer) (low : LowLines) :
    (s.endProbe k answer low).PoolLaw := by
  unfold State.endProbe
  split
  · split
    · split
      · exact ((h.probeOver k _ _ answer).releaseBus k).settle low
      · exact h
    · exact h
  · exact h

theorem State.PoolLaw.endDiscoveryProbe (h : s.PoolLaw) (k : Seg) (found : Bool) (low : LowLines) :
    (s.endDiscoveryProbe k found low).PoolLaw := by
  unfold State.endDiscoveryProbe
  split
  · split
    · exact ((h.discoveryProbeOver k _ found).releaseBus k).settle low
    · exact h
  · exact h

theorem State.PoolLaw.stallOver (h : s.PoolLaw) (k : Seg) (x : Tx) : (s.stallOver k x).PoolLaw := by
  have lost := h.forwardLost k x
  unfold State.stallOver
  split
  · exact lost.forwardOver _ true
  · exact lost.forwardOver _ true
  · split
    · exact h.deliveryOver k _ true true
    · exact h
  · split
    · exact h.probeOver k x _ _
    · exact h
  · split
    · exact h.probeOver k x _ _
    · exact h
  · exact h.discoveryProbeOver k _ false

theorem State.PoolLaw.takeStall (h : s.PoolLaw) (k : Seg) (low : LowLines) : (s.takeStall k low).PoolLaw := by
  unfold State.takeStall
  split
  · split
    · exact (h.releaseBus k).settle low
    · exact ((h.stallOver k _).enterRecovering k).conclude
  · exact h

theorem State.PoolLaw.cutOver (h : s.PoolLaw) (k : Seg) (x : Tx) : (s.cutOver k x).PoolLaw := by
  have lost := h.forwardLost k x
  unfold State.cutOver
  split
  · exact lost.forwardOver _ false
  · exact lost.forwardOver _ false
  · split
    · exact h.deliveryCut k _
    · exact h
  · split
    · exact h.probeCut k x _
    · exact h
  · split
    · exact h.probeCut k x _
    · exact h
  · exact (discoveryCut_only s k).poolLaw h

theorem State.PoolLaw.takeFault (h : s.PoolLaw) (k : Seg) : (s.takeFault k).PoolLaw := by
  unfold State.takeFault
  split
  · split
    · exact h.enterRecovering k
    · exact (h.cutOver k _).enterRecovering k
  · exact h

end Sys2Proof.Machine
end

section
namespace Sys2Proof.Machine

variable {s t : State}

/-! #### The timers (R101, R107, R112) -/

theorem State.PoolLaw.surveyPass (h : s.PoolLaw) : s.surveyPass.PoolLaw := by
  unfold State.surveyPass State.clearUsed
  exact ((h.requestProbes s.surveyed).setDir _).setHm _

theorem State.PoolLaw.requestProbe (h : s.PoolLaw) (i : Slot) : (s.requestProbe i).PoolLaw := h.kept (by simp) (by simp)

theorem State.PoolLaw.holdOffSteps (h : s.PoolLaw) (es : List Slot) : (s.holdOffSteps es).PoolLaw := by
  induction es generalizing s with
  | nil => exact h
  | cons i rest ih =>
    refine ih ?_
    unfold State.holdOffStep
    split
    · split
      · dsimp only
        split
        · exact (h.putRec i _).requestProbe i
        · exact h.putRec i _
      · exact h
    · exact h

theorem State.PoolLaw.absenceSeconds (h : s.PoolLaw) (es : List Slot) : (s.absenceSeconds es).PoolLaw := by
  induction es generalizing s with
  | nil => exact h
  | cons i rest ih =>
    refine ih ?_
    unfold State.absenceSecond
    split
    · split
      · dsimp only
        split
        · exact (h.putRec i _).absenceExpiry i
        · exact h.putRec i _
      · exact h
    · exact h

/-! #### Commands on records (R136 to R143) -/

theorem State.PoolLaw.runLookup (h : s.PoolLaw) (c : Command) : (s.runLookup c).PoolLaw := by
  unfold State.runLookup
  split
  · exact h.answer c _
  · split
    · exact h.answer c _
    · split
      · exact h.answer c _
      · exact h.answerDone c _

theorem State.PoolLaw.runBind (h : s.PoolLaw) (low : LowLines) (c : Command) : (s.runBind low c).PoolLaw := by
  unfold State.runBind
  split
  · exact h.answer c _
  · rename_i f _
    split
    · exact h.answer c _
    · rename_i i _
      have created : (s.createRec i (boundRecord f)).PoolLaw := h.kept rfl rfl
      exact (created.requestProbe i).settleDone low c _

theorem State.PoolLaw.applyThreshold (h : s.PoolLaw) (i : Slot) : (s.applyThreshold i).PoolLaw := by
  unfold State.applyThreshold
  split
  · split
    · split
      · exact h.moveRec i _
      · exact h
    · exact h.putRec i _
  · exact h

theorem State.PoolLaw.applyEdit (h : s.PoolLaw) (i : Slot) (r : Record) (sel : Selection) :
    (s.applyEdit i r sel).PoolLaw := by
  have edited : (s.editedFields i r sel).PoolLaw := by
    unfold State.editedFields
    split <;> exact h.kept rfl rfl
  rw [applyEdit_eq]
  split
  · exact edited.applyThreshold i
  · exact edited

theorem State.PoolLaw.runEdit (h : s.PoolLaw) (c : Command) : (s.runEdit c).PoolLaw := by
  unfold State.runEdit
  split
  · exact h.answer c _
  · split
    · exact h.answer c _
    · split
      · exact h.answer c _
      · split
        · exact h.answer c _
        · exact (h.applyEdit _ _ _).answerDone c _

theorem State.PoolLaw.rebound (h : s.PoolLaw) (i : Slot) (r : Record) (k : Seg) (a : Addr) :
    (s.rebound i r k a).PoolLaw :=
  (h.moveRec i (Record.toRebound k a)).kept (by simp [State.rebound]) (by simp [State.rebound])

theorem State.PoolLaw.runRebind (h : s.PoolLaw) (low : LowLines) (c : Command) : (s.runRebind low c).PoolLaw := by
  unfold State.runRebind
  split
  · exact h.answer c _
  · split
    · exact h.answer c _
    · rw [applyRebind_eq]
      exact ((h.rebound _ _ _ _).requestProbe _).settleDone low c _
    · exact h.answer c _

theorem State.PoolLaw.addOp (h : s.PoolLaw) (w : LongWork) (tag : Byte) : (s.addOp w tag).PoolLaw := h.kept rfl rfl

theorem State.PoolLaw.enterRetiring (h : s.PoolLaw) (i : Slot) : (s.enterRetiring i).PoolLaw := by
  unfold State.enterRetiring
  split
  · split
    · exact h
    · exact h.moveRec i _
  · exact h

theorem State.PoolLaw.finishRetire (h : s.PoolLaw) (c : Command) (i : Slot) (removed : Nat) :
    (s.finishRetire c i removed).PoolLaw := by
  unfold State.finishRetire
  split
  · exact h.answerDone c _
  · split
    · exact ((h.enterRetiring i).addOp _ _).conclude
    · exact (h.freeSlot i).answerDone c _

theorem State.PoolLaw.runRetire (h : s.PoolLaw) (c : Command) : (s.runRetire c).PoolLaw := by
  unfold State.runRetire
  split
  · exact h.answer c _
  · rename_i i _ _
    split
    · exact h.answer c _
    · split
      · exact h.answer c _
      · have answered : (s.answerProbes i .retired).PoolLaw := h.settleOps _
        unfold State.applyRetire
        dsimp only
        split
        · exact (answered.purgeAndRetire _ _).finishRetire c _ _
        · exact answered.finishRetire c _ 0

theorem State.PoolLaw.runClearCounts (h : s.PoolLaw) (c : Command) : (s.runClearCounts c).PoolLaw := by
  unfold State.runClearCounts
  split
  · exact h.answer c _
  · have cleared : s.clearAllCounts.PoolLaw := h.setDir _
    exact cleared.answerDone c _
  · rename_i i _
    split
    · exact h.answer c _
    · have cleared : (s.modRec i Record.clearCounts).PoolLaw := h.kept (by simp) (by simp)
      exact cleared.answerDone c _

theorem State.PoolLaw.runProbe (h : s.PoolLaw) (low : LowLines) (c : Command) : (s.runProbe low c).PoolLaw := by
  unfold State.runProbe
  split
  · exact h.answer c _
  · split
    · exact h.answer c _
    · split
      · exact h.answer c _
      · split
        · exact h.answer c _
        · exact ((h.modEngine _ _).addOp _ _).settle low

/-! #### Commands on segments, settings and alerts (R118 to R124, R146 to R149, R157, R177, R179) -/

theorem State.PoolLaw.runDiscover (h : s.PoolLaw) (low : LowLines) (c : Command) : (s.runDiscover low c).PoolLaw := by
  unfold State.runDiscover
  split
  · exact h.answer c _
  · split
    · exact h.answer c _
    · split
      · exact h.answer c _
      · exact (((putDiscovery_only s _ _).poolLaw h).addOp _ _).settle low

theorem State.PoolLaw.cancelOn (h : s.PoolLaw) (tag : Byte) (k : Seg) : (s.cancelOn tag k).PoolLaw := by
  unfold State.cancelOn
  split
  · split
    · split
      · exact (putDiscovery_only s k _).poolLaw h
      · exact (endDiscovery_only s k _).poolLaw h
    · exact h
  · exact h

theorem State.PoolLaw.runCancel (h : s.PoolLaw) (c : Command) : (s.runCancel c).PoolLaw := by
  unfold State.runCancel
  split
  · exact h.answer c _
  · split
    · exact ((((h.cancelOn _ 0).cancelOn _ 1).cancelOn _ 2).cancelOn _ 3).answerDone c _
    · exact h.answer c _

theorem State.PoolLaw.presentPause (h : s.PoolLaw) (c : Command) (k : Seg) : (s.presentPause c k).PoolLaw := by
  have pending := ((h.modEngine k fun e => { e with pausePending := true }).addOp (.pause k) c.tag).conclude
  unfold State.presentPause
  split
  · exact (h.enterPaused k).answerDone c _
  · exact pending
  · exact pending
  · exact h.answerDone c _
  · exact h.answer c _

theorem State.PoolLaw.runPause (h : s.PoolLaw) (c : Command) : (s.runPause c).PoolLaw := by
  unfold State.runPause
  split
  · exact h.answer c _
  · split
    · exact h.answer c _
    · exact h.presentPause c _

theorem State.PoolLaw.presentResume (h : s.PoolLaw) (low : LowLines) (c : Command) (k : Seg) :
    (s.presentResume low c k).PoolLaw := by
  have lifted : ((s.modEngine k fun e => { e with pausePending := false }).answerPause k .cancelled).PoolLaw :=
    (h.modEngine k _).settleOps _
  unfold State.presentResume
  split
  · exact (h.modEngine k _).settleDone low c _
  · exact lifted.answerDone c _
  · exact lifted.answerDone c _
  · exact h.answerDone c _
  · exact (((h.modEngine k _).enterRecovering k).addOp _ _).conclude

theorem State.PoolLaw.runResume (h : s.PoolLaw) (low : LowLines) (c : Command) : (s.runResume low c).PoolLaw := by
  unfold State.runResume
  split
  · exact h.answer c _
  · split
    · exact h.answer c _
    · exact h.presentResume low c _

theorem State.PoolLaw.runFlush (h : s.PoolLaw) (low : LowLines) (c : Command) : (s.runFlush low c).PoolLaw := by
  unfold State.runFlush
  split
  · exact h.answer c _
  · exact (h.purgeAndRetire _ _).settleDone low c _

theorem State.quiescent_iff (s : State) :
    s.quiescent = true ↔ (∀ k, (s.poolSeg k).queue = []) ∧ s.pool.reservation = none := by
  simp [State.quiescent, State.poolSeg, Quad.toList, Fin.forall_fin_succ, Quad.get]

/-- PARTITION sets the shares only of an empty pool, and only to shares that fit it (R78). -/
theorem State.PoolLaw.setShares (h : s.PoolLaw) (q : Quad Nat) (fits : sharesValid q = true)
    (quiet : s.quiescent = true) : (s.setShares q).PoolLaw := by
  obtain ⟨-, -, staged⟩ := h
  obtain ⟨empty, none⟩ := s.quiescent_iff.mp quiet
  have seg : ∀ k, (s.setShares q).poolSeg k = { s.poolSeg k with share := q.get k } := fun k => by
    simp [State.setShares, State.poolSeg]
  refine ⟨fun k => ?_, ?_, staged⟩
  · unfold State.use
    change _ + (if s.pool.reservation = some k then _ else 0) ≤ _
    rw [none, seg, empty]
    exact Nat.zero_le _
  · unfold sharesValid at fits
    obtain ⟨-, sum⟩ := Bool.and_eq_true_iff.mp fits
    unfold State.shareSum
    simp only [seg]
    exact of_decide_eq_true sum

theorem State.PoolLaw.runPartition (h : s.PoolLaw) (c : Command) : (s.runPartition c).PoolLaw := by
  unfold State.runPartition
  split
  · exact h.answer c _
  · split
    · rename_i fits
      split
      · rename_i quiet
        exact (h.setShares _ fits quiet).answerDone c _
      · exact h.answer c _
    · exact h.answer c _

theorem State.PoolLaw.runSetTiming (h : s.PoolLaw) (c : Command) : (s.runSetTiming c).PoolLaw := by
  unfold State.runSetTiming
  split
  · exact h.answer c _
  · rename_i times _
    have retimed : (s.retime times).PoolLaw := h.samePool rfl (Nat.le_refl _)
    exact retimed.answerDone c _

theorem State.PoolLaw.runSetProtect (h : s.PoolLaw) (c : Command) : (s.runSetProtect c).PoolLaw := by
  unfold State.runSetProtect
  split
  · exact h.answer c _
  · split
    · exact h.answer c _
    · split
      · exact h.answer c _
      · split
        · exact h.answer c _
        · exact (h.setPu _).answerDone c _

theorem State.PoolLaw.runFixProtect (h : s.PoolLaw) (c : Command) : (s.runFixProtect c).PoolLaw := by
  unfold State.runFixProtect
  split
  · exact h.answer c _
  · exact (h.setPu _).answerDone c _

theorem State.PoolLaw.runSetAlert (h : s.PoolLaw) (c : Command) : (s.runSetAlert c).PoolLaw := by
  unfold State.runSetAlert
  split
  · exact h.answer c _
  · exact (h.setAu _).answerDone c _

/-! #### Frames and resets (R164 to R171, R174) -/

theorem State.PoolLaw.runPush (h : s.PoolLaw) (bytes : List Byte) : (s.runPush bytes).PoolLaw := by
  unfold State.runPush
  split <;> exact h.setMp _

theorem State.PoolLaw.runPop (h : s.PoolLaw) (clocks : Nat) (e : Bool) : (s.runPop clocks e).PoolLaw := by
  unfold State.runPop
  split
  · split
    · exact h.setMp _
    · split
      · exact (h.setMp _).evaluate
      · exact h.setMp _
  · exact h.setMp _

/-- A restart leaves nothing queued, reserved or staged (R171). -/
theorem restartBlocks_emptied (s : State) (level2 : Bool) :
    (s.restartBlocks level2).pool.reservation = none ∧ (s.restartBlocks level2).up.ctx.staged = [] := by
  unfold State.restartBlocks
  cases level2 <;> simp [State.restartDir, State.restartPool, UpContext.unaddressed]

/-- The shares outlast a level 1 restart; at level 2 each is 128 bytes again (R94). -/
theorem restartBlocks_share (s : State) (level2 : Bool) (k : Seg) :
    ((s.restartBlocks level2).poolSeg k).share = if level2 then Config.defaultShare else (s.poolSeg k).share := by
  unfold State.restartBlocks
  cases level2 <;> simp [State.poolSeg, State.restartDir, State.restartPool, State.defaultSettings]

theorem State.PoolLaw.restartBlocks (h : s.PoolLaw) (level2 : Bool) : (s.restartBlocks level2).PoolLaw := by
  obtain ⟨none, staged⟩ := restartBlocks_emptied s level2
  refine ⟨fun k => ?_, ?_, staged ▸ Nat.zero_le _⟩
  · unfold State.use
    rw [(restartBlocks_poolSeg s level2 k).1, none]
    exact Nat.zero_le _
  · unfold State.shareSum
    simp only [restartBlocks_share]
    cases level2 with
    | false => exact h.2.1
    | true => exact Nat.le_refl 512

theorem State.PoolLaw.runRestart (h : s.PoolLaw) (bytes : List Byte) (low : LowLines) :
    (s.runRestart bytes low).PoolLaw := by
  unfold State.runRestart
  split
  · exact (((h.setMp _).restartBlocks _).requestProbes _).settle low
  · exact h.setMp _

theorem heldReset_poolLaw (s : State) : s.heldReset.PoolLaw := reset_poolLaw.kept rfl rfl

/-! #### Every event -/

theorem State.PoolLaw.live (h : s.PoolLaw) {f : State → State} (hf : (f s).PoolLaw) : (s.live f).PoolLaw := by
  rcases live_cases s f with e | e <;> rw [e]
  · exact h
  · exact hf

theorem State.PoolLaw.timed (h : s.PoolLaw) {f : State → State} (hf : (f s).PoolLaw) : (s.timed f).PoolLaw := by
  rcases timed_cases s f with e | e <;> rw [e]
  · exact h
  · exact hf

theorem State.PoolLaw.frame (h : s.PoolLaw) {f : State → State} (hf : (f s).PoolLaw) : (s.frame f).PoolLaw := by
  rcases frame_cases s f with e | e | e <;> rw [e]
  · exact h
  · exact h.setMp _
  · exact hf

theorem State.PoolLaw.taking (h : s.PoolLaw) {kind : CmdKind} {f : Command → State → State}
    (hf : ∀ c u, State.PoolLaw u → (f c u).PoolLaw) : (s.taking kind f).PoolLaw := by
  rcases taking_cases s kind f with e | ⟨c, rest, -, -, e⟩ <;> rw [e]
  · exact h
  · exact hf c _ (h.kept rfl rfl)

theorem exec_poolLaw (h : s.PoolLaw) (c : Instr) (t : State) (he : exec c s = .next t) : t.PoolLaw := by
  cases c with
  | addressEvent a d low =>
    cases he
    refine h.live (State.PoolLaw.settle (State.PoolLaw.resolve ?_ a d) low)
    split
    · exact h
    · exact (h.closeForRestart false).arbitrateAll low
  | repeatedStart cut next low =>
    cases he
    have closed := h.closeForRestart cut
    refine h.live ?_
    dsimp only
    split
    · exact ((closed.arbitrateAll low).resolve _ _).settle low
    · exact closed.settle low
  | stopCondition low => cases he; exact h.live (h.closeForStop.settle low)
  | writeEvent b => cases he; exact h.live (h.takeByte b).conclude
  | masterReadAnswer ack => cases he; exact h.live (h.takeReadAnswer ack).conclude
  | targetAddressAnswer k ack => cases he; exact h.live (h.addressAnswer k ack).conclude
  | targetByteAnswer k ack => cases he; exact h.live (h.byteAnswer k ack).conclude
  | readByteArrives k b => cases he; exact h.live (h.byteArrives k b).conclude
  | holdLimitExpiry => cases he; exact h.live h.holdExpiry.conclude
  | forwardEnd k low => cases he; exact h.live (h.endForward k low)
  | deliveryEnd k o low => cases he; exact h.live (h.endDelivery k o low)
  | probeEnd k answer low => cases he; exact h.live (h.endProbe k answer low)
  | discoveryProbeEnd k found low => cases he; exact h.live (h.endDiscoveryProbe k found low)
  | stall k clock =>
    cases he
    refine h.live ?_
    cases clock with
    | heldLow =>
      dsimp only
      unfold State.clockHeld
      split
      · split
        · exact h.modEngine k _
        · exact h
      · exact h
    | rises => exact h.modEngine k _
    | expires low => exact h.takeStall k low
  | busFault k => cases he; exact h.live (h.takeFault k).conclude
  | recoveryAttemptSucceeds k low =>
    cases he
    split
    · exact (h.attemptSucceeds k).settle low
    · exact h
  | recoveryAttemptFails k =>
    cases he
    split
    · exact (h.attemptFails k).conclude
    · exact h
  | attemptTimerExpiry k =>
    cases he
    split
    · exact h.modEngine k _
    · exact h
  | closingEnd k low =>
    cases he
    split
    · exact (h.releaseBus k).settle low
    · exact h
  | surveyTimerExpiry low => cases he; exact h.timed (h.surveyPass.settle low)
  | idleTimerExpiry =>
    cases he
    refine h.timed ?_
    split
    · exact h.setHm _
    · exact h
  | stepTimerExpiry low => cases he; exact h.timed (((h.setHm _).holdOffSteps allSlots).settle low)
  | secondTimerExpiry => cases he; exact h.timed ((h.setHm _).absenceSeconds allSlots).conclude
  | lookup => cases he; exact h.taking fun c _ hu => hu.runLookup c
  | bind low => cases he; exact h.taking fun c _ hu => hu.runBind low c
  | edit => cases he; exact h.taking fun c _ hu => hu.runEdit c
  | rebind low => cases he; exact h.taking fun c _ hu => hu.runRebind low c
  | retire => cases he; exact h.taking fun c _ hu => hu.runRetire c
  | clearCounts => cases he; exact h.taking fun c _ hu => hu.runClearCounts c
  | probe low => cases he; exact h.taking fun c _ hu => hu.runProbe low c
  | discover low => cases he; exact h.taking fun c _ hu => hu.runDiscover low c
  | cancel => cases he; exact h.taking fun c _ hu => hu.runCancel c
  | pause => cases he; exact h.taking fun c _ hu => hu.runPause c
  | resume low => cases he; exact h.taking fun c _ hu => hu.runResume low c
  | flush low => cases he; exact h.taking fun c _ hu => hu.runFlush low c
  | partition => cases he; exact h.taking fun c _ hu => hu.runPartition c
  | setTiming => cases he; exact h.taking fun c _ hu => hu.runSetTiming c
  | setProtect => cases he; exact h.taking fun c _ hu => hu.runSetProtect c
  | fixProtect => cases he; exact h.taking fun c _ hu => hu.runFixProtect c
  | setAlert => cases he; exact h.taking fun c _ hu => hu.runSetAlert c
  | changes => cases he; exact h.taking fun c _ hu => (hu.setAu _).answerDone c _
  | status c => cases he; exact h.frame (h.setMp _)
  | writeEnable => cases he; exact h.frame (h.setMp _)
  | writeDisable => cases he; exact h.frame (h.setMp _)
  | push bytes => cases he; exact h.frame (h.runPush bytes)
  | pop clocks e => cases he; exact h.frame (h.runPop clocks e)
  | restartEnable => cases he; exact h.frame (h.setMp _)
  | restart bytes low => cases he; exact h.frame (h.runRestart bytes low)
  | ackRestart => cases he; exact h.frame (h.setMp _).evaluate
  | unknownFrame code =>
    cases he
    split
    · exact h.frame (h.setMp _)
    · exact h
  | partialFrame bits =>
    cases he
    split
    · exact h.frame (h.setMp _)
    · exact h
  | emptyFrame => cases he; exact h.frame h
  | fullReset => cases he; exact heldReset_poolLaw s
  | protChange high => cases he; exact h.setPu _
  | fullResetEnd mcs =>
    cases he
    split
    · exact h.kept rfl rfl
    · exact h

theorem State.PoolLaw.tick (h : s.PoolLaw) : s.tick.PoolLaw := h.timed (h.samePool rfl (Nat.le_refl _))

/-- Settles O57: a posted write joins its queue in the place of the 18 bytes reserved for it, and no other operation makes
a queue dearer. -/
theorem poolLawKept : Obligations.PoolLawKept := by
  unfold Obligations.PoolLawKept
  intro s t h he
  unfold step at he
  split at he
  · cases he
    exact h.tick
  · rename_i c rest _
    have front : State.PoolLaw { s with pending := rest } := h.kept rfl rfl
    exact exec_poolLaw front c t he

end Sys2Proof.Machine
end

section
namespace Sys2Proof.Machine

variable {s : State} {k : Seg} {i : Slot} {r : Record}

/-! ### FLUSH (R90, R147) -/

theorem exec_flush {tag b : Byte} {rest : List Command} (hq : s.queues .flush tag [b] rest) (low : LowLines) :
    exec (.flush low) s = .next ((s.taken rest).runFlush low ⟨.flush, tag, [b]⟩) :=
  congrArg _ (taking_of_queues s hq _)

theorem purgeable_everyEntry (s : State) (k : Seg) : s.purgeable k everyEntry = s.waitingEntries k :=
  List.filter_eq_self.mpr fun _ _ => rfl

theorem runFlush_badField (low : LowLines) (c : Command) {b : Byte} (hc : c.args = [b]) (h : 4 ≤ b.toNat) :
    s.runFlush low c = s.answer c .badField := by
  simp only [State.runFlush, hc, decodeSeg, segOf_outOfRange h]

theorem runFlush_purges (low : LowLines) (c : Command) {b : Byte} (hc : c.args = [b]) (h : b.toNat = k.val) :
    s.runFlush low c =
      (s.purgeAndRetire k everyEntry).settleDone low c (twoBytes (s.waitingEntries k).length) := by
  simp only [State.runFlush, hc, decodeSeg, segOf_seg h, purgeable_everyEntry]

/-- The entry on the bus alone stays. -/
theorem flushed_poolSeg (s : State) (k j : Seg) : (s.purgeAndRetire k everyEntry).poolSeg j =
    if j = k then { s.poolSeg k with
      queue := s.busEntries k
      purgeMark := (s.poolSeg k).purgeMark || s.deliveryOnBus k && !(s.poolSeg k).queue.isEmpty }
    else s.poolSeg j := by
  have none : ((s.waitingEntries k).filter fun e => !everyEntry e) = [] := List.filter_eq_nil_iff.mpr fun _ _ => nofun
  have marked : (s.busEntries k).any everyEntry = (s.deliveryOnBus k && !(s.poolSeg k).queue.isEmpty) := by
    unfold State.busEntries
    cases s.deliveryOnBus k with
    | false => rfl
    | true => cases (s.poolSeg k).queue <;> rfl
  rw [State.purgeAndRetire, poolSeg_of_pool (retireChecks_onlyFrees _ _).pool, purge_poolSeg, none, marked,
    List.append_nil]

theorem flushed_keepsRest (s : State) (k : Seg) : KeepsRest s (s.purgeAndRetire k everyEntry) :=
  (purge_keepsRest s k _).trans (retireChecks_onlyFrees _ _).rest

theorem flush_recAt (s : State) (k : Seg) (i : Slot) : (s.purge k everyEntry).recAt i =
    (s.recAt i).map fun r => { r with undelivered := moreLost r.undelivered (s.purged k i).length } := by
  rw [purge_recAt, purgeable_everyEntry]
  rfl

/-- No record comes to a FREE slot. -/
theorem flushed_free (hr : s.recAt i = none) : (s.purgeAndRetire k everyEntry).recAt i = none := by
  have purged : (s.purge k everyEntry).recAt i = none := by rw [flush_recAt, hr]; rfl
  rcases (retireChecks_onlyFrees (s.purge k everyEntry) (s.purgeable k everyEntry)).records i with c | ⟨c, -⟩
  · exact c.trans purged
  · exact c

/-- What a FLUSH leaves in each slot that holds a record (R19, R24). -/
theorem flush_leftByPurge (hr : s.recAt i = some r) : LeftByPurge s (s.purgeAndRetire k everyEntry) k i r r := by
  have frees := retireChecks_onlyFrees (s.purge k everyEntry) (s.waitingEntries k)
  have purged : (s.purge k everyEntry).recAt i =
      some { r with undelivered := moreLost r.undelivered (s.purged k i).length } := by rw [flush_recAt, hr]; rfl
  unfold LeftByPurge State.purgeAndRetire
  rw [purgeable_everyEntry, State.hasQueued_of_pool frees.pool]
  split
  · rename_i c
    obtain ⟨ret, mark, some_, empty⟩ := c
    have freed := retireChecks_frees purged ⟨ret, mark, empty⟩ ((purged_ne_nil s k i).mp some_)
    exact freed.before rfl (.of_dc (purge_frame s k everyEntry).2.2.2.2.2.2.2.2 _)
  · rename_i c
    refine ⟨(retireChecks_stays fun q hq owes e he hs => c ?_).trans purged, fun some_ hu => frees.rest.changed i ?_⟩
    · cases purged.symm.trans hq
      obtain ⟨ret, mark, empty⟩ := owes
      exact ⟨ret, mark, (purged_ne_nil s k i).mpr ⟨e, he, hs⟩, empty⟩
    · unfold State.purge
      rw [purgeable_everyEntry]
      exact undeliveredClaims_changed (r := r) hr hu ((purged_ne_nil s k i).mp some_)

/-- Settles O33: the purge of every entry, and the retirements that the entries removed have ended. -/
theorem flushEmptiesAQueue : Obligations.FlushEmptiesAQueue := by
  unfold Obligations.FlushEmptiesAQueue
  intro s low tag b rest hq
  refine ⟨fun h => ?_, fun k h => ?_⟩
  · rw [exec_flush hq, runFlush_badField low _ rfl h]
    rfl
  generalize hn : (s.waitingEntries k).length = n
  have count : n = if s.deliveryOnBus k then ((s.poolSeg k).queue.drop 1).length else (s.poolSeg k).queue.length := by
    rw [← hn, State.waitingEntries, apply_ite List.length]
  rw [← count]
  generalize hm : (s.taken rest).purgeAndRetire k everyEntry = m
  have ran : exec (.flush low) s = .next (m.settleWith low ⟨.flush, tag, .done, twoBytes n⟩) := by
    rw [exec_flush hq, runFlush_purges low _ rfl h, hm, ← hn]
    rfl
  generalize (⟨.flush, tag, .done, twoBytes n⟩ : Response) = done at *
  have kept : KeepsRest (s.taken rest) m := hm ▸ flushed_keepsRest _ k
  have seg : ∀ j, m.poolSeg j = _ := fun j => hm ▸ flushed_poolSeg (s.taken rest) k j
  obtain ⟨pool, hmEq, pu, limit, -⟩ := settleWith_frame m low done
  obtain ⟨last, commands⟩ := settleWith_mp m low done
  have records := settleWith_recAt m low done
  have here : (m.settleWith low done).poolSeg k = _ := (poolSeg_of_pool pool k).trans ((seg k).trans (if_pos rfl))
  refine ⟨m, _, ran, rfl, by rw [here]; rfl, by rw [here]; rfl, fun j hj => ?_, ?_, last, ?_,
    hmEq.trans kept.hm, pu.trans kept.pu, limit.trans kept.stallLimit, by rw [here]; rfl,
    fun i => ⟨fun hr => ?_, fun r hr => ⟨?_, records i⟩⟩⟩
  · rw [poolSeg_of_pool pool, seg, if_neg hj]
    rfl
  · rw [pool, kept.reservation]
    rfl
  · rw [commands, kept.mp]
    rfl
  · have gone : m.recAt i = none := hm ▸ flushed_free (s := s.taken rest) hr
    exact Option.map_eq_none_iff.mp ((records i).trans (by rw [gone]; rfl))
  · have left : LeftByPurge (s.taken rest) m k i r r := hm ▸ flush_leftByPurge (s := s.taken rest) hr
    exact left

end Sys2Proof.Machine
end

section
namespace Sys2Proof.Machine

variable {s : State}

/-! ### The end of a delivery by its outcome (R82 to R85) -/

/-- The record of a delivery that has ended, with the claims of its outcome taken (R18, R19). -/
def Record.delivered (holdOff : Nat) (r : Record) : DeliveryEnd → Record
  | .complete => { r with marker := .none, used := if r.state = .bound then true else r.used }
  | .dataNak => { r with marker := .none }.oneLost
  | .addressNak => { r with marker := .none }.oneLost.charged holdOff

/-- Delivery `x` ends on the bus, its entry at the head of the queue. -/
theorem exec_deliveryEnd {k : Seg} {o : DeliveryEnd} (low : LowLines) {x : Tx} {e : Entry} {rest : List Entry}
    (hr : s.inReset = false) (hx : s.onBus k x) (hd : x.kind = .delivery) (hq : (s.poolSeg k).queue = e :: rest)
    (fits : deliveryFits x e o = true) : exec (.deliveryEnd k o low) s =
      .next (((s.deliveryOver k e.slot (decide (o ≠ .complete)) (decide (o = .addressNak))).releaseBus k).settle low) := by
  change execDeliveryEnd k o low s = _
  rw [execDeliveryEnd, live_running s hr]
  unfold State.endDelivery
  rw [hx.1, hq]
  exact congrArg _ (if_pos ⟨hd, hx.2, fits⟩)

section
variable {k : Seg} {i : Slot} {r : Record}

theorem usedClaim_inPlace (hr : s.recAt i = some r) :
    InPlace s (s.usedClaim i) i { r with used := if r.state = .bound then true else r.used } := by
  have e : s.usedClaim i = s.putRec i (some { r with used := if r.state = .bound then true else r.used }) := by
    unfold State.usedClaim State.modRec
    rw [hr]
    dsimp only
    split <;> rfl
  rw [e]
  exact .put s i _

/-- A delivery that is complete: the used claim, and the rest of the queue. -/
theorem deliveryOver_complete (k : Seg) (hr : s.recAt i = some r) :
    ∃ u, OutcomeApplied s u k i r (r.delivered s.hm.holdOff .complete) ∧
      s.deliveryOver k i false false = u.afterEnd i ∧
      u.poolSeg k = { s.poolSeg k with queue := (s.poolSeg k).queue.drop 1, purgeMark := false } := by
  have cleared := clearMarker_inPlace (s := (s.removeHead k).clearTx k) hr
  have used := cleared.trans (usedClaim_inPlace cleared.here)
  have passed : ∀ t : State, t.lostOnMove i r (r.delivered s.hm.holdOff .complete) = r.undelivered := fun t =>
    State.lostOnMove_of_not fun c => c.2 c.1
  exact ⟨_, .afterOffBus (removeHead_offBus s k) (.of_inPlace used hr rfl rfl k) ((passed _).trans (passed _).symm), rfl,
    (poolSeg_of_pool used.pool k).trans (removeHead_poolSeg s k)⟩

/-- Each outcome makes the record what its claims say, and leaves the entries behind the one delivered, unless the charge
quarantines the record (R88). -/
theorem deliveryOver_delivered (hr : s.recAt i = some r) (hk : r.segment = k) (hd : s.deliveryOnBus k = true)
    (o : DeliveryEnd) :
    ∃ u, OutcomeApplied s u k i r (r.delivered s.hm.holdOff o) ∧
      s.deliveryOver k i (decide (o ≠ .complete)) (decide (o = .addressNak)) = u.afterEnd i ∧
      (u.poolSeg k).purgeMark = false ∧
      (u.poolSeg k).queue = if (r.delivered s.hm.holdOff o).state = r.state then (s.poolSeg k).queue.drop 1
        else ((s.poolSeg k).queue.drop 1).filter fun f => f.slot != i := by
  cases o with
  | complete =>
    obtain ⟨u, applied, ends, seg⟩ := deliveryOver_complete k hr
    exact ⟨u, applied, ends, by rw [seg], by rw [seg]; exact (if_pos rfl).symm⟩
  | dataNak =>
    obtain ⟨u, applied, ends, seg⟩ := deliveryOver_dropped k hr
    exact ⟨u, applied, ends, by rw [seg], by rw [seg]; exact (if_pos rfl).symm⟩
  | addressNak => exact deliveryOver_charged hr hk hd

theorem deliveryOver_flags (s : State) (k j : Seg) (i : Slot) (o : DeliveryEnd) :
    KeepsFlags s (s.deliveryOver k i (decide (o ≠ .complete)) (decide (o = .addressNak))) j := by
  cases o with
  | complete =>
    have cleared := ((removeHead_offBus s k).keepsFlags j).trans (clearMarker_keepsFlags _ i j)
    have used := cleared.trans
      (.of_blocks (m := (((s.removeHead k).clearTx k).clearMarker i).usedClaim i) (by simp) (by simp))
    exact used.afterEnd i
  | dataNak => exact deliveryOver_keepsFlags s k j i false
  | addressNak => exact deliveryOver_keepsFlags s k j i true

theorem charge_keepsRest (s : State) (i : Slot) : KeepsRest s (s.charge i) := by
  cases hr : s.recAt i with
  | none =>
    rw [charge_not_bound s i fun r c => by rw [hr] at c; cases c]
    exact .refl s
  | some r => exact (charge_moved hr).rest

/-- An undelivered claim that raises the count adds the slot to the changed-slot set (R7). -/
theorem deliveryOver_changed (k : Seg) (hr : s.recAt i = some r) (hu : r.undelivered < 255) (charged : Bool) :
    (s.deliveryOver k i true charged).au.changed[i.val] = true := by
  have cleared := clearMarker_inPlace (s := (s.removeHead k).clearTx k) hr
  have counted : ((((s.removeHead k).clearTx k).clearMarker i).undeliveredClaim i).au.changed[i.val] = true := by
    rw [undeliveredClaim_counted cleared.here hu]
    exact markChanged_self _ i
  refine (afterEnd_keepsRest _ i).changed i ?_
  cases charged with
  | false => exact counted
  | true => exact (charge_keepsRest _ i).changed i counted

end

/-- Settles O45: the entry leaves the queue, the claims of the outcome are taken, what waited for the end follows, and then
the bus is released. -/
theorem deliveryEnds : Obligations.DeliveryEnds := by
  unfold Obligations.DeliveryEnds
  intro k o low s x e rest r hres hx hd hq hr hk fits ended q
  have delivered : q = r.delivered s.hm.holdOff o := by cases o <;> rfl
  obtain ⟨u, applied, ends, mark, queue⟩ :=
    deliveryOver_delivered hr hk ((deliveryOnBus_iff k).mpr ⟨x, hx.1, hd, hx.2⟩) o
  have freed := releaseBus_freed (u.afterEnd e.slot) k
  have flags := deliveryOver_flags s k k e.slot o
  rw [← delivered] at applied queue
  rw [hq] at queue
  refine ⟨_, exec_deliveryEnd low hres hx hd hq fits, flags.released, ?_, ?_, ?_, ?_, fun lost hu => ?_, fun law => ?_⟩
  · exact ends ▸ applied.endFrame freed
  · exact ends ▸ applied.leftBehind freed
  · rw [ends, poolSeg_of_pool freed.pool, mark]
  · rw [ends, poolSeg_of_pool freed.pool, queue]
    rfl
  · rw [decide_eq_true lost]
    exact (releaseBus_keepsRest _ k).changed e.slot (deliveryOver_changed k hr hu _)
  · obtain ⟨-, -, -, -, requests, -⟩ := law
    exact ends ▸ (applied.requestLeft requests).released (ends ▸ flags).pause

end Sys2Proof.Machine
end

section
namespace Sys2Proof.Machine

variable {s : State}

/-! ### The idle timer (R103) -/

/-- A timer's expiry is taken while no full reset is held (R115). -/
theorem timed_running (hr : s.inReset = false) (f : State → State) : s.timed f = f s := if_neg (by simp [hr])

theorem exec_idleTimerExpiry (hr : s.inReset = false) (runs : s.hm.idleLeft ≠ none) :
    exec .idleTimerExpiry s = .next (s.setHm { s.hm with cadence := .relaxed, idleLeft := none }) := by
  change execIdleTimerExpiry s = _
  rw [execIdleTimerExpiry, timed_running hr]
  exact congrArg _ (if_pos (Option.isSome_iff_ne_none.mpr runs))

/-- Settles O54: the timer runs, so its expiry is taken, and it writes HM alone. -/
theorem idleTimerRelaxesCadence : Obligations.IdleTimerRelaxesCadence := by
  unfold Obligations.IdleTimerRelaxesCadence
  exact fun s hr runs => exec_idleTimerExpiry hr runs

end Sys2Proof.Machine
end

section
namespace Sys2Proof.Machine

variable {s m n : State}

/-! ### Requests of one event, on all segments (R56, R96, log entry 33) -/

/-- The slots of `asked` that join segment `k`'s probe queue: those of its records that it does not hold yet (R56). -/
def State.joining (s : State) (k : Seg) (asked : List Slot) : List Slot :=
  asked.filter fun i => decide ((s.recAt i).map Record.segment = some k ∧ i ∉ (s.engine k).probeQueue)

theorem mem_joining (k : Seg) (asked : List Slot) (i : Slot) : i ∈ s.joining k asked ↔
    i ∈ asked ∧ (s.recAt i).map Record.segment = some k ∧ i ∉ (s.engine k).probeQueue := by
  simp [State.joining]

/-- From `s` to `m` the slots `asked` join the probe queues of their records' segments, in their order, and records may
change but for their segments; nothing else changes. -/
structure AsksProbes (s m : State) (asked : List Slot) : Prop where
  homes : ∀ i, (m.recAt i).map Record.segment = (s.recAt i).map Record.segment
  engines : ∀ k, m.engine k = { s.engine k with probeQueue := (s.engine k).probeQueue ++ s.joining k asked }
  rest : ∃ e v, m = { s with eng := e, dir := { s.dir with slots := v } }

theorem AsksProbes.refl (s : State) : AsksProbes s s [] where
  homes _ := rfl
  engines k := by simp [State.joining]
  rest := ⟨s.eng, s.dir.slots, rfl⟩

theorem AsksProbes.serves {asked : List Slot} (h : AsksProbes s m asked) (k : Seg) :
    m.segInService k = s.segInService k := by rw [State.segInService, h.engines k]; rfl

/-- What has joined a queue already does not join it again, so the two lots of slots must be apart. -/
theorem AsksProbes.trans {a b : List Slot} (h : AsksProbes s m a) (g : AsksProbes m n b) (apart : ∀ i ∈ b, i ∉ a) :
    AsksProbes s n (a ++ b) where
  homes i := (g.homes i).trans (h.homes i)
  engines k := by
    have same : m.joining k b = s.joining k b := List.filter_congr fun i hi => by
      have fresh : i ∉ s.joining k a := fun c => apart i hi ((mem_joining k a i).mp c).1
      rw [h.homes, h.engines]
      simp [fresh]
    rw [g.engines, same, h.engines, State.joining, State.joining, State.joining, List.filter_append, List.append_assoc]
  rest := by
    obtain ⟨e, v, rfl⟩ := h.rest
    obtain ⟨e', v', rfl⟩ := g.rest
    exact ⟨e', v', rfl⟩

theorem AsksProbes.putRec {i : Slot} {r q : Record} (hr : s.recAt i = some r) (hq : q.segment = r.segment) :
    AsksProbes s (s.putRec i (some q)) [] where
  homes j := by
    rw [recAt_putRec]
    split
    · rename_i e
      rw [← e, hr]
      exact congrArg some hq
    · rfl
  engines k := by simp [State.joining]
  rest := ⟨s.eng, _, rfl⟩

/-- A request on a segment in service joins its queue, unless it is queued (R56). -/
theorem AsksProbes.request {i : Slot} {r : Record} (hr : s.recAt i = some r)
    (hk : s.segInService r.segment = true) : AsksProbes s (s.requestProbe i) [i] := by
  rw [requestProbe_eq s i r hr ((segInService_iff s _).mp hk).2]
  refine ⟨fun _ => rfl, fun k => ?_, ⟨_, s.dir.slots, rfl⟩⟩
  by_cases here : k = r.segment
  · subst here
    by_cases queued : i ∈ (s.engine r.segment).probeQueue <;>
      simp [State.joining, Engine.enqueueProbe, hr, queued]
  · rw [engine_modEngine_other _ here]
    simp [State.joining, hr, Ne.symm here]

/-- Requests of slots in service are all queued, and change no record (R56, R98). -/
theorem requestProbes_serves {es : List Slot} (distinct : es.Nodup)
    (homes : ∀ i ∈ es, ∃ r, s.recAt i = some r ∧ s.segInService r.segment = true) :
    AsksProbes s (s.requestProbes es) es ∧ (s.requestProbes es).dir = s.dir := by
  induction es generalizing s with
  | nil => exact ⟨.refl s, rfl⟩
  | cons i rest ih =>
    obtain ⟨new, distinct⟩ := List.nodup_cons.mp distinct
    obtain ⟨r, hr, hk⟩ := homes i List.mem_cons_self
    have first := AsksProbes.request hr hk
    have dir : (s.requestProbe i).dir = s.dir := by
      rw [requestProbe_eq s i r hr ((segInService_iff s _).mp hk).2]
      rfl
    obtain ⟨others, others_dir⟩ := ih (s := s.requestProbe i) distinct fun j hj => by
      obtain ⟨q, hq, hserves⟩ := homes j (List.mem_cons_of_mem i hj)
      exact ⟨q, (recAt_of_dir dir j).trans hq, (first.serves _).trans hserves⟩
    exact ⟨first.trans others fun j hj c => new (List.mem_singleton.mp c ▸ hj), others_dir.trans dir⟩

/-- Where the slots asked for are, in ascending order, those of records in service that `p` picks, each queue grows by
those of its segment that it did not hold. -/
theorem AsksProbes.joins {asked : List Slot} {p : Record → Prop} (h : AsksProbes s m asked)
    (ascending : asked.Pairwise (· < ·))
    (picks : ∀ i, i ∈ asked ↔ ∃ r, s.recAt i = some r ∧ s.segInService r.segment = true ∧ p r) (k : Seg) :
    ∃ more, m.engine k = { s.engine k with probeQueue := (s.engine k).probeQueue ++ more } ∧ more.Pairwise (· < ·) ∧
      ∀ i, i ∈ more ↔ i ∉ (s.engine k).probeQueue ∧ ∃ r, s.recAt i = some r ∧ r.segment = k ∧
        ((s.engine k).state ≠ .paused ∧ (s.engine k).state ≠ .failed) ∧ p r := by
  refine ⟨s.joining k asked, h.engines k, ascending.filter _, fun i => ?_⟩
  rw [mem_joining, picks, Option.map_eq_some_iff]
  constructor
  · rintro ⟨⟨r, hr, hserves, hp⟩, ⟨q, hq, rfl⟩, fresh⟩
    cases hr.symm.trans hq
    exact ⟨fresh, r, hr, rfl, (segInService_iff s _).mp hserves, hp⟩
  · rintro ⟨fresh, r, hr, rfl, hserves, hp⟩
    exact ⟨⟨r, hr, (segInService_iff s _).mpr hserves, hp⟩, ⟨r, hr, rfl⟩, fresh⟩

theorem allSlots_ascending : allSlots.Pairwise (· < ·) := List.pairwise_lt_finRange 48

theorem allSlots_nodup : allSlots.Nodup := List.nodup_finRange 48

/-! ### The survey (R101) -/

theorem mem_surveyed (i : Slot) : i ∈ s.surveyed ↔ ∃ r, s.recAt i = some r ∧ s.segInService r.segment = true ∧
    (r.state = .absent ∨ (r.state = .bound ∧ r.used = false)) := by
  rw [State.surveyed, List.mem_filter]
  cases s.recAt i with
  | none => simp
  | some r => simp [mem_allSlots]

theorem surveyed_ascending (s : State) : s.surveyed.Pairwise (· < ·) := allSlots_ascending.filter _

theorem period_eq (h : Health) :
    h.period = if h.cadence = .active then h.activePeriod * 100 else h.relaxedPeriod * 1000 := by
  unfold Health.period
  cases h.cadence <;> rfl

/-- What a pass does once its probes are asked for: every used flag is cleared and the survey timer starts again. -/
def State.resurvey (s : State) : State := s.clearUsed.setHm { s.hm with surveyLeft := s.hm.period }

theorem surveyPass_eq (s : State) : s.surveyPass = (s.requestProbes s.surveyed).resurvey := by
  unfold State.surveyPass State.resurvey
  exact congrArg (fun h : Health => State.setHm _ { h with surveyLeft := h.period }) (setDir_hm _ _)

/-- The requests of a pass are all queued, and change no record. -/
theorem surveyed_asksProbes (s : State) :
    AsksProbes s (s.requestProbes s.surveyed) s.surveyed ∧ (s.requestProbes s.surveyed).dir = s.dir := by
  have homes : ∀ i ∈ s.surveyed, ∃ r, s.recAt i = some r ∧ s.segInService r.segment = true := fun i hi => by
    obtain ⟨r, hr, hk, -⟩ := (mem_surveyed i).mp hi
    exact ⟨r, hr, hk⟩
  exact requestProbes_serves ((surveyed_ascending s).imp fun h => ne_of_lt h) homes

section
variable {u : State}

theorem resurvey_engine (k : Seg) : u.resurvey.engine k = u.engine k := by
  rw [State.resurvey, engine_setHm, State.clearUsed, engine_setDir]

theorem resurvey_recAt (h : u.dir = s.dir) (i : Slot) :
    u.resurvey.recAt i = (s.recAt i).map fun r => { r with used := false } := by
  rw [← recAt_of_dir h, State.resurvey, recAt_setHm, State.clearUsed, recAt_mapSlots]

theorem resurvey_hm (h : u.hm = s.hm) : u.resurvey.hm = { s.hm with
    surveyLeft := if s.hm.cadence = .active then s.hm.activePeriod * 100 else s.hm.relaxedPeriod * 1000 } := by
  rw [State.resurvey, setHm_hm, h, period_eq]

theorem resurvey_rest {asked : List Slot} (h : AsksProbes s u asked) : u.resurvey =
    { s with eng := u.resurvey.eng, dir := { s.dir with slots := u.resurvey.dir.slots }, hm := u.resurvey.hm } := by
  obtain ⟨e, v, rfl⟩ := h.rest
  unfold State.resurvey State.clearUsed
  generalize mapEach _ _ = cleared
  rfl

end

theorem exec_surveyTimerExpiry (hr : s.inReset = false) (low : LowLines) :
    exec (.surveyTimerExpiry low) s = .next (s.surveyPass.settle low) := by
  change execSurveyTimerExpiry low s = _
  rw [execSurveyTimerExpiry, timed_running hr]

end Sys2Proof.Machine
end

section
namespace Sys2Proof.Machine

variable {s : State}

/-! ### One step of the hold-offs (R107) -/

/-- A record's hold-off runs: QUARANTINED, on a segment in service (R107). -/
abbrev State.holdsOff (s : State) (r : Record) : Prop := r.state = .quarantined ∧ s.segInService r.segment = true

/-- A record after one step (R107). -/
def State.heldOff (s : State) (r : Record) : Record := if s.holdsOff r then { r with holdOff := r.holdOff - 1 } else r

/-- HM asks for a reprobe of slot `i` at this step: its hold-off comes to 0. -/
def State.reprobeDue (s : State) (i : Slot) : Bool := (s.recAt i).any fun r => decide (s.holdsOff r ∧ r.holdOff = 1)

theorem reprobeDue_iff (i : Slot) : s.reprobeDue i = true ↔
    ∃ r, s.recAt i = some r ∧ s.segInService r.segment = true ∧ r.state = .quarantined ∧ r.holdOff = 1 := by
  unfold State.reprobeDue
  cases s.recAt i with
  | none => simp
  | some r => simp [and_assoc, and_left_comm]

/-- A hold-off at 0 stands still. -/
theorem holdOffStep_stays (i : Slot) (h : ∀ r, s.recAt i = some r → s.holdsOff r → r.holdOff = 0) :
    s.holdOffStep i = s := by
  unfold State.holdOffStep
  split
  · rename_i r hr
    refine if_neg fun ⟨quarantined, runs, serves⟩ => ?_
    have zero := h r hr ⟨quarantined, serves⟩
    omega
  · rfl

theorem holdOffStep_counts {i : Slot} {r : Record} (hr : s.recAt i = some r) (runs : s.holdsOff r)
    (pos : 0 < r.holdOff) : s.holdOffStep i =
      if r.holdOff = 1 then (s.putRec i (some (s.heldOff r))).requestProbe i else s.putRec i (some (s.heldOff r)) := by
  unfold State.holdOffStep State.heldOff
  rw [hr, if_pos runs]
  exact if_pos ⟨runs.1, pos, runs.2⟩

theorem heldOff_segment (r : Record) : (s.heldOff r).segment = r.segment := by
  unfold State.heldOff
  split <;> rfl

/-- A record whose hold-off does not run, or stands at 0, is as it was. -/
theorem heldOff_still {r : Record} (h : s.holdsOff r → r.holdOff = 0) : s.heldOff r = r := by
  unfold State.heldOff
  split
  · rename_i runs
    rw [h runs, Nat.zero_sub, ← h runs]
  · rfl

/-- A step of one slot asks for its reprobe, if it is due, and changes its record alone. -/
theorem holdOffStep_spec (s : State) (i : Slot) :
    AsksProbes s (s.holdOffStep i) ([i].filter s.reprobeDue) ∧
    ∀ j, (s.holdOffStep i).recAt j = if i = j then (s.recAt i).map s.heldOff else s.recAt j := by
  rw [List.filter_singleton]
  by_cases counts : ∃ r, s.recAt i = some r ∧ s.holdsOff r ∧ 0 < r.holdOff
  · obtain ⟨r, hr, runs, pos⟩ := counts
    have put := AsksProbes.putRec hr (heldOff_segment (s := s) r)
    have record := recAt_putRec_self s i (some (s.heldOff r))
    have records := fun j => recAt_putRec s i j (some (s.heldOff r))
    have serves : (s.putRec i (some (s.heldOff r))).segInService (s.heldOff r).segment = true :=
      heldOff_segment (s := s) r ▸ runs.2
    rw [holdOffStep_counts hr runs pos, hr, Option.map_some]
    by_cases last : r.holdOff = 1
    · have due : s.reprobeDue i = true := (reprobeDue_iff i).mpr ⟨r, hr, runs.2, runs.1, last⟩
      rw [if_pos last, due]
      refine ⟨put.trans (.request record serves) nofun, fun j => ?_⟩
      rw [← records, requestProbe_eq _ i _ record ((segInService_iff _ _).mp serves).2, recAt_modEngine]
    · have waits : s.reprobeDue i = false := Bool.eq_false_iff.mpr fun c => by
        obtain ⟨q, hq, -, -, one⟩ := (reprobeDue_iff i).mp c
        cases hr.symm.trans hq
        exact last one
      rw [if_neg last, waits]
      exact ⟨put, records⟩
  · have still : ∀ r, s.recAt i = some r → s.holdsOff r → r.holdOff = 0 := fun r hr runs =>
      Nat.eq_zero_of_not_pos fun pos => counts ⟨r, hr, runs, pos⟩
    have waits : s.reprobeDue i = false := Bool.eq_false_iff.mpr fun c => by
      obtain ⟨r, hr, serves, quarantined, one⟩ := (reprobeDue_iff i).mp c
      exact absurd (still r hr ⟨quarantined, serves⟩) (by omega)
    rw [holdOffStep_stays i still, waits]
    refine ⟨.refl s, fun j => ?_⟩
    split
    · rename_i e
      rw [← e]
      cases hr : s.recAt i with
      | none => rfl
      | some r => rw [Option.map_some, heldOff_still (still r hr)]
    · rfl

/-- The step of every slot: each record's hold-off is counted once, and the reprobes due are asked for in order. -/
theorem holdOffSteps_spec {es : List Slot} (distinct : es.Nodup) :
    AsksProbes s (s.holdOffSteps es) (es.filter s.reprobeDue) ∧
    ∀ j, (s.holdOffSteps es).recAt j = if j ∈ es then (s.recAt j).map s.heldOff else s.recAt j := by
  induction es generalizing s with
  | nil => exact ⟨.refl s, fun j => rfl⟩
  | cons i rest ih =>
    obtain ⟨new, distinct⟩ := List.nodup_cons.mp distinct
    obtain ⟨first, here⟩ := holdOffStep_spec s i
    obtain ⟨others, there⟩ := ih (s := s.holdOffStep i) distinct
    have runs : ∀ r, (s.holdOffStep i).holdsOff r ↔ s.holdsOff r := fun r => by
      rw [State.holdsOff, first.serves]
    have stepped : (s.holdOffStep i).heldOff = s.heldOff := funext fun r => by
      simp only [State.heldOff, runs]
    have apart : ∀ j, i ≠ j → (s.holdOffStep i).recAt j = s.recAt j := fun j hj => (here j).trans (if_neg hj)
    have due : rest.filter (s.holdOffStep i).reprobeDue = rest.filter s.reprobeDue := List.filter_congr fun j hj => by
      simp only [State.reprobeDue, apart j fun e => new (e ▸ hj), runs]
    rw [due] at others
    refine ⟨?_, fun j => ?_⟩
    · have both := first.trans others fun j hj c =>
        new (List.mem_singleton.mp (List.mem_of_mem_filter c) ▸ List.mem_of_mem_filter hj)
      rwa [← List.filter_append] at both
    · rw [State.holdOffSteps, there, stepped]
      by_cases e : i = j
      · subst e
        rw [if_neg new, if_pos List.mem_cons_self, here, if_pos rfl]
      · rw [apart j e]
        simp only [List.mem_cons, Ne.symm e, false_or]

theorem exec_stepTimerExpiry (hr : s.inReset = false) (low : LowLines) : exec (.stepTimerExpiry low) s =
    .next (((s.setHm { s.hm with stepRun := 0 }).holdOffSteps allSlots).settle low) := by
  change execStepTimerExpiry low s = _
  rw [execStepTimerExpiry, timed_running hr]

end Sys2Proof.Machine
end

section
namespace Sys2Proof.Machine

variable {s m n : State}

/-! ### One second of the absence ages (R112, R26) -/

/-- From `s` to `m` slot `i` keeps its record and has joined no probe queue, its PROBEs and every answered operation wait
on, and no engine has changed its state. -/
structure SlotKept (i : Slot) (s m : State) : Prop where
  record : m.recAt i = s.recAt i
  states : ∀ k, (m.engine k).state = (s.engine k).state
  queues : ∀ k, i ∈ (m.engine k).probeQueue → i ∈ (s.engine k).probeQueue
  ops : OpsKept s m fun op => op.answer ≠ none ∨ ∃ b, op.work = .probe i b
  rest : KeepsRest s m

theorem SlotKept.refl (i : Slot) (s : State) : SlotKept i s s :=
  ⟨rfl, fun _ => rfl, fun _ h => h, .of_dc rfl _, .refl s⟩

theorem SlotKept.trans {i : Slot} (h : SlotKept i s m) (g : SlotKept i m n) : SlotKept i s n :=
  ⟨g.record.trans h.record, fun k => (g.states k).trans (h.states k), fun k => h.queues k ∘ g.queues k,
    OpsKept.trans h.ops g.ops, h.rest.trans g.rest⟩

theorem SlotKept.putRec {i j : Slot} (h : j ≠ i) (s : State) (o : Option Record) : SlotKept i s (s.putRec j o) :=
  ⟨recAt_putRec_other s h o, fun _ => rfl, fun _ h => h, .of_dc rfl _, putRec_keepsRest s j o⟩

theorem SlotKept.freeSlot {i j : Slot} (h : j ≠ i) (s : State) : SlotKept i s (s.freeSlot j) := by
  cases hr : s.recAt j with
  | none =>
    have e : s.freeSlot j = s := by rw [State.freeSlot, hr]
    rw [e]
    exact .refl i s
  | some r =>
    have engine := freeSlot_engine s j r hr
    refine ⟨by rw [freeSlot_recAt, if_neg h], fun k => by rw [engine k]; rfl, fun k hi => ?_,
      (freeSlot_kept s j).imp ?_, freeSlot_keepsRest s j⟩
    · rw [engine k] at hi
      exact List.mem_of_mem_filter hi
    · rintro op (ha | ⟨b, hw⟩)
      · exact .inl ha
      · rw [hw]
        exact .inr ⟨nofun, fun c e => h (LongWork.probe.inj e).1.symm⟩

theorem absenceSeconds_frame (es : List Slot) (s : State) :
    (s.absenceSeconds es).hm = s.hm ∧ (s.absenceSeconds es).pool = s.pool ∧ (s.absenceSeconds es).mp = s.mp ∧
    (s.absenceSeconds es).pu = s.pu ∧ (s.absenceSeconds es).stallLimit = s.stallLimit := by
  induction es generalizing s with
  | nil => exact ⟨rfl, rfl, rfl, rfl, rfl⟩
  | cons i rest ih =>
    have here : (s.absenceSecond i).hm = s.hm ∧ (s.absenceSecond i).pool = s.pool ∧ (s.absenceSecond i).mp = s.mp ∧
        (s.absenceSecond i).pu = s.pu ∧ (s.absenceSecond i).stallLimit = s.stallLimit := by
      unfold State.absenceSecond
      split
      · split
        · dsimp only
          split <;> simp
        · simp
      · simp
    obtain ⟨hm, pool, mp, pu, limit⟩ := here
    have others := ih (s.absenceSecond i)
    rw [hm, pool, mp, pu, limit] at others
    exact others

theorem putRec_putRec (s : State) (i : Slot) (o o' : Option Record) : (s.putRec i o).putRec i o' = s.putRec i o' := by
  simp [State.putRec, State.setDir]

/-- The age of the record is counted (R112). -/
abbrev State.counted (s : State) (r : Record) : Prop :=
  r.state = .absent ∧ s.segInService r.segment = true ∧ s.mp.notice = false

/-- The record, whose age is counted, is at or past its lifetime and DIR takes the claim (R26, R112). -/
abbrev State.expiresNow (s : State) (i : Slot) (r : Record) : Prop :=
  s.counted r ∧ s.hm.lifetime ≠ 0 ∧ s.hm.lifetime ≤ nextAge r.absenceAge ∧ r.cls = .dynamic ∧ s.isProtected i = false

/-- The record with its age one second later (R7). -/
def Record.aged (r : Record) : Record := { r with absenceAge := nextAge r.absenceAge }

theorem ageCounts_iff (r : Record) : s.ageCounts r = true ↔ s.counted r := by
  simp [State.ageCounts, and_assoc]

theorem nextAge_eq (a : Nat) : nextAge a = if a < 65535 then a + 1 else 65535 := by
  unfold nextAge
  change min (a + 1) 65535 = _
  split <;> omega

section
variable {i : Slot} {r : Record}

theorem absenceSecond_uncounted (h : ∀ r, s.recAt i = some r → ¬s.counted r) : s.absenceSecond i = s := by
  unfold State.absenceSecond
  split
  · rename_i r hr
    exact if_neg (mt (ageCounts_iff r).mp (h r hr))
  · rfl

/-- A counted age rises, and at the lifetime the claim is taken, held or discarded (R26, R112). -/
theorem absenceSecond_counted (hr : s.recAt i = some r) (counts : s.counted r) : s.absenceSecond i =
    if s.expiresNow i r then
      if r.marker = .none then s.freeSlot i
      else s.putRec i (some { r.aged with expiryHeld := true })
    else s.putRec i (some r.aged) := by
  unfold State.absenceSecond
  rw [hr]
  refine (if_pos ((ageCounts_iff r).mpr counts)).trans ?_
  change (if s.hm.lifetime ≠ 0 ∧ s.hm.lifetime ≤ nextAge r.absenceAge
    then (s.putRec i (some r.aged)).absenceExpiry i else s.putRec i (some r.aged)) = _
  rw [absenceExpiry_eq _ i r.aged (recAt_putRec_self s i _), freeSlot_putRec (q := r.aged) s i hr rfl rfl,
    isProtected_putRec]
  by_cases claims : s.hm.lifetime ≠ 0 ∧ s.hm.lifetime ≤ nextAge r.absenceAge
  · by_cases takes : r.cls = .dynamic ∧ s.isProtected i = false
    · have expires : s.expiresNow i r := ⟨counts, claims.1, claims.2, takes⟩
      have claimed : r.aged.state = .absent ∧ r.aged.cls = .dynamic ∧ s.isProtected i = false := ⟨counts.1, takes⟩
      rw [if_pos claims, if_pos claimed, if_pos expires, putRec_putRec]
      rfl
    · rw [if_pos claims, if_neg fun ⟨_, c⟩ => takes c, if_neg fun ⟨_, _, _, c⟩ => takes c]
  · rw [if_neg claims, if_neg fun ⟨_, on, due, _⟩ => claims ⟨on, due⟩]

/-- The second of another slot frees it, counts its age or does nothing. -/
theorem SlotKept.absenceSecond {j : Slot} (h : j ≠ i) (s : State) : SlotKept i s (s.absenceSecond j) := by
  by_cases counts : ∃ r, s.recAt j = some r ∧ s.counted r
  · obtain ⟨r, hr, counts⟩ := counts
    rw [absenceSecond_counted hr counts]
    split
    · split
      · exact .freeSlot h s
      · exact .putRec h s _
    · exact .putRec h s _
  · rw [absenceSecond_uncounted fun r hr c => counts ⟨r, hr, c⟩]
    exact .refl i s

theorem SlotKept.absenceSeconds {es : List Slot} (h : i ∉ es) (s : State) :
    SlotKept i s (s.absenceSeconds es) := by
  induction es generalizing s with
  | nil => exact .refl i s
  | cons j rest ih =>
    obtain ⟨ne, other⟩ := not_or.mp (mt List.mem_cons.mpr h)
    exact (SlotKept.absenceSecond (Ne.symm ne) s).trans (ih other _)

/-- Each slot's second is its own: what stands before and after it leaves the slot alone. -/
theorem absenceSeconds_at {es : List Slot} (distinct : es.Nodup) (hi : i ∈ es) (s : State) :
    ∃ u, SlotKept i s u ∧ SlotKept i (u.absenceSecond i) (s.absenceSeconds es) := by
  induction es generalizing s with
  | nil => cases hi
  | cons j rest ih =>
    obtain ⟨new, distinct⟩ := List.nodup_cons.mp distinct
    by_cases e : j = i
    · subst e
      exact ⟨s, .refl j s, .absenceSeconds new _⟩
    · obtain ⟨u, before, after⟩ := ih distinct (List.mem_of_ne_of_mem (Ne.symm e) hi) (s.absenceSecond j)
      exact ⟨u, (SlotKept.absenceSecond e s).trans before, after⟩

/-- An expiry frees the slot, and the PROBEs that wait on it are answered RETIRED, wherever their notes stand (R145). -/
theorem SlotKept.expired (hr : s.recAt i = some r) (after : SlotKept i (s.freeSlot i) m) :
    m.recAt i = none ∧ m.au.changed[i.val] = true ∧ (∀ k, i ∉ (m.engine k).probeQueue) ∧
      Answered s m (fun w => ∃ b, w = .probe i b) fun op => ⟨.probe, op.tag, .retired, []⟩ := by
  obtain ⟨free, -, changed, queues, -, queued⟩ := freeSlot_freedFrom s i r hr
  have answered : Answered s (s.freeSlot i) (fun w => ∃ b, w = .probe i b) fun op => ⟨.probe, op.tag, .retired, []⟩ := by
    rintro op ho ⟨b, hw⟩ ha
    cases b with
    | false => exact queued op ho hw ha
    | true => exact freeSlot_busProbes s i r hr op ho hw ha
  exact ⟨after.record.trans free, after.rest.changed i changed, fun k hi => queues k (after.queues k hi),
    answered.kept (after.ops.imp fun _ => .inl)⟩

end

theorem exec_secondTimerExpiry (hr : s.inReset = false) : exec .secondTimerExpiry s =
    .next (((s.setHm { s.hm with secondRun := 0 }).absenceSeconds allSlots).conclude) := by
  change execSecondTimerExpiry s = _
  rw [execSecondTimerExpiry, timed_running hr]

/-- Across the seconds of other slots, what a slot's own second rests on stays. -/
theorem SlotKept.counted_iff {i : Slot} (h : SlotKept i s m) (r : Record) : m.counted r ↔ s.counted r := by
  rw [State.counted, State.counted, State.segInService, State.segInService, h.states, h.rest.mp]

theorem SlotKept.expiresNow_iff {i : Slot} (h : SlotKept i s m) (r : Record) :
    m.expiresNow i r ↔ s.expiresNow i r := by
  rw [State.expiresNow, State.expiresNow, h.counted_iff, h.rest.hm, isProtected_of_pu h.rest.pu]

/-- The second of one slot among all: what becomes of its record, and of the slot where it expires (R26, R112, R145). -/
theorem absenceSeconds_slot (s : State) (i : Slot) :
    (s.recAt i = none → (s.absenceSeconds allSlots).recAt i = none) ∧ ∀ r, s.recAt i = some r →
      (¬s.counted r → (s.absenceSeconds allSlots).recAt i = some r) ∧
      (s.counted r → ¬s.expiresNow i r → (s.absenceSeconds allSlots).recAt i = some r.aged) ∧
      (s.expiresNow i r → r.marker ≠ .none →
        (s.absenceSeconds allSlots).recAt i = some { r.aged with expiryHeld := true }) ∧
      (s.expiresNow i r → r.marker = .none → (s.absenceSeconds allSlots).recAt i = none ∧
        (s.absenceSeconds allSlots).au.changed[i.val] = true ∧
        (∀ k, i ∉ ((s.absenceSeconds allSlots).engine k).probeQueue) ∧
        Answered s (s.absenceSeconds allSlots) (fun w => ∃ b, w = .probe i b)
          fun op => ⟨.probe, op.tag, .retired, []⟩) := by
  obtain ⟨u, before, after⟩ := absenceSeconds_at allSlots_nodup (mem_allSlots i) s
  generalize s.absenceSeconds allSlots = m at after
  refine ⟨fun hr => ?free, fun r hr => ?_⟩
  case free =>
    have free : u.recAt i = none := before.record.trans hr
    rw [absenceSecond_uncounted fun r hr => by rw [free] at hr; cases hr] at after
    exact after.record.trans free
  have here : u.recAt i = some r := before.record.trans hr
  simp only [← before.counted_iff, ← before.expiresNow_iff]
  refine ⟨fun stands => ?_, fun counts stays => ?_, fun expires marked => ?_, fun expires free => ?_⟩
  · rw [absenceSecond_uncounted fun q hq => by cases here.symm.trans hq; exact stands] at after
    exact after.record.trans here
  · rw [absenceSecond_counted here counts, if_neg stays] at after
    exact after.record.trans (recAt_putRec_self u i _)
  · rw [absenceSecond_counted here expires.1, if_pos expires, if_neg marked] at after
    exact after.record.trans (recAt_putRec_self u i _)
  · rw [absenceSecond_counted here expires.1, if_pos expires, if_pos free] at after
    obtain ⟨gone, changed, queues, answered⟩ := SlotKept.expired here after
    exact ⟨gone, changed, queues, answered.after (before.ops.imp fun op waits => .inr waits.1)⟩

end Sys2Proof.Machine
end

section
namespace Sys2Proof.Machine

variable {s : State}

/-! ### HM's timers (R101, R107, R112) -/

theorem stepTimer_picks (i : Slot) : i ∈ allSlots.filter s.reprobeDue ↔ ∃ r, s.recAt i = some r ∧
    s.segInService r.segment = true ∧ r.state = .quarantined ∧ r.holdOff = 1 := by
  rw [List.mem_filter, reprobeDue_iff]
  exact and_iff_right (mem_allSlots i)

/-- Settles O53, timer by timer: the requests of the survey and of the hold-off steps join their queues together, and each
slot's absence second is its own. -/
theorem healthTimersExpire : Obligations.HealthTimersExpire := by
  unfold Obligations.HealthTimersExpire
  intro low s hr serves joins
  have inService : ∀ k, s.segInService k = true ↔ serves k := fun k => segInService_iff s k
  refine ⟨⟨_, exec_surveyTimerExpiry hr low, ?_⟩, ⟨_, exec_stepTimerExpiry hr low, ?_⟩,
    ⟨_, exec_secondTimerExpiry hr, ?_⟩⟩
  · obtain ⟨asks, dir⟩ := surveyed_asksProbes s
    have hm := (requestProbes_frame s s.surveyed).1
    rw [surveyPass_eq]
    refine ⟨fun k => ?_, resurvey_recAt dir, resurvey_hm hm, resurvey_rest asks⟩
    rw [resurvey_engine]
    exact asks.joins (surveyed_ascending s) mem_surveyed k
  · obtain ⟨asks, records⟩ := holdOffSteps_spec (s := s.setHm { s.hm with stepRun := 0 }) allSlots_nodup
    obtain ⟨e, v, rest⟩ := asks.rest
    refine ⟨fun k => asks.joins (allSlots_ascending.filter _) stepTimer_picks k, fun i => ?_, ?_⟩
    · rw [records, if_pos (mem_allSlots i)]
      refine congrArg (Option.map · (s.recAt i)) (funext fun r => ?_)
      simp only [← inService]
      rfl
    · rw [rest]
      rfl
  · obtain ⟨hm, pool, mp, pu, limit⟩ := absenceSeconds_frame allSlots (s.setHm { s.hm with secondRun := 0 })
    have slots := absenceSeconds_slot (s.setHm { s.hm with secondRun := 0 })
    generalize (s.setHm { s.hm with secondRun := 0 }).absenceSeconds allSlots = m at *
    refine ⟨hm, pool, mp, pu, limit, fun i => ?_⟩
    simp only [← inService, ← nextAge_eq]
    exact slots i

end Sys2Proof.Machine
end

section
namespace Sys2Proof.Machine

variable {s : State}

/-! ### DIR's finding on a device that answered (R16, R122) -/

section
variable {k : Seg} {t a : Addr}

theorem judgeCreation_known (h : (s.lookupPair k t).isSome = true) : s.judgeCreation k t a = .known := if_pos h

theorem judgeCreation_collision (h : ¬(s.lookupPair k t).isSome = true) (ha : s.aliasTaken a = true) :
    s.judgeCreation k t a = .collision := (if_neg h).trans (if_pos ha)

/-- Past the checks of the pair and the alias only the slot is left to find (R16). -/
theorem judgeCreation_slot (h : ¬(s.lookupPair k t).isSome = true) (ha : ¬s.aliasTaken a = true) :
    s.judgeCreation k t a = s.lowestFree.elim .full .create := by
  refine (if_neg h).trans ((if_neg ha).trans ?_)
  cases s.lowestFree <;> rfl

end

/-! ### What an address's end leaves alone (R121, R122) -/

/-- On segment `k` a discovery probe is over: beside DIR, AU and the long operations only that engine's discovery has
changed, and no PAUSE is answered. -/
structure AddressOver (s m : State) (k : Seg) : Prop where
  pool : m.pool = s.pool
  up : m.up = s.up
  hm : m.hm = s.hm
  mp : m.mp = s.mp
  pu : m.pu = s.pu
  engines : ∀ j, j ≠ k → m.engine j = s.engine j
  engine : m.engine k = { s.engine k with discovery := (m.engine k).discovery }
  flags : KeepsFlags s m k

section
variable {m n : State} {k : Seg}

theorem AddressOver.trans (h : AddressOver s m k) (g : AddressOver m n k) : AddressOver s n k := by
  refine ⟨g.pool.trans h.pool, g.up.trans h.up, g.hm.trans h.hm, g.mp.trans h.mp, g.pu.trans h.pu,
    fun j hj => (g.engines j hj).trans (h.engines j hj), ?_, h.flags.trans g.flags⟩
  have engine := g.engine
  rwa [h.engine] at engine

theorem putDiscovery_over (s : State) (k : Seg) (d : Discovery) : AddressOver s (s.putDiscovery k d) k :=
  ⟨rfl, rfl, rfl, rfl, rfl, fun j hj => by rw [putDiscovery_engine, if_neg hj], (putDiscovery_only s k d).engine,
    putDiscovery_keepsFlags s k k d⟩

theorem endDiscovery_over (s : State) (k : Seg) (code : ResultCode) : AddressOver s (s.endDiscovery k code) k :=
  ⟨by simp, by simp, by simp, by simp, by simp, fun _ hj => endDiscovery_engine_other s hj code,
    (endDiscovery_only s k code).engine, endDiscovery_keepsFlags s k k code⟩

/-- DIR's creation of a record touches no block beside DIR and AU. -/
theorem creation_over (s : State) (k : Seg) (c : Creation) (t a : Addr) : AddressOver s (c.records k t a s) k := by
  cases c <;> exact ⟨rfl, rfl, rfl, rfl, rfl, fun _ _ => rfl, rfl, .of_blocks rfl rfl⟩

theorem afterAddress_over (s : State) (k : Seg) (d : Discovery) : AddressOver s (s.afterAddress k d) k := by
  have put := putDiscovery_over s k d
  unfold State.afterAddress
  dsimp only
  split
  · exact put.trans (endDiscovery_over _ k _)
  · split
    · exact put.trans (endDiscovery_over _ k _)
    · exact put

theorem deviceFound_over (s : State) (k : Seg) (d : Discovery) (t : Addr) : AddressOver s (s.deviceFound k d t) k := by
  have created := creation_over s k (s.judgeCreation k t (d.aliasOf t)) t (d.aliasOf t)
  unfold State.deviceFound
  dsimp only
  split
  · exact created.trans ((putDiscovery_over _ k _).trans (endDiscovery_over _ k _))
  · exact created.trans (afterAddress_over _ k _)

theorem discoveryProbeOver_over (s : State) (k : Seg) (t : Addr) (found : Bool) {d : Discovery}
    (hd : (s.engine k).discovery = some d) : AddressOver s (s.discoveryProbeOver k t found) k := by
  unfold State.discoveryProbeOver
  rw [hd]
  dsimp only
  split
  · exact deviceFound_over s k d t
  · exact afterAddress_over s k _

end

/-! ### The outcome of an address, once the bus is released (R121, R122, R124, R125) -/

section
variable {m : State} {k : Seg} {f : Discovery}

theorem releaseBus_discovery (m : State) (k : Seg) :
    ((m.releaseBus k).engine k).discovery = (m.engine k).discovery := by
  rw [releaseBus_engine, if_pos rfl]

theorem DiscoveryEnded.released {code : ResultCode} (h : DiscoveryEnded s m k f code) :
    DiscoveryEnded s (m.releaseBus k) k f code :=
  ⟨(releaseBus_discovery m k).trans h.1, h.2.kept (releaseBus_keepsEnd m k).answered⟩

theorem DiscoveryGoesOn.released (h : DiscoveryGoesOn s m k f) : DiscoveryGoesOn s (m.releaseBus k) k f := by
  obtain ⟨done, cancelled, on⟩ := h
  exact ⟨fun c => (done c).released, fun c g => (cancelled c g).released,
    fun c g => (releaseBus_discovery m k).trans (on c g)⟩

/-- The address is finished in `u`, whose DISCOVERs wait as in `s`; DIR and AU stay as `u` has them. -/
theorem afterAddress_released {u : State} (dc : u.dc = s.dc) (k : Seg) (f : Discovery) :
    ((u.afterAddress k f).releaseBus k).dir = u.dir ∧ ((u.afterAddress k f).releaseBus k).au = u.au ∧
    DiscoveryGoesOn s ((u.afterAddress k f).releaseBus k) k f := by
  obtain ⟨dir, -, -, au, -⟩ := afterAddress_only u k f
  obtain ⟨-, -, -, -, -, -, dir', -, au'⟩ := releaseBus_frame (u.afterAddress k f) k
  refine ⟨dir'.trans dir, au'.trans au, ?_⟩
  have goesOn := (afterAddress_goesOn u k f).released
  unfold DiscoveryGoesOn DiscoveryEnded Answered at goesOn ⊢
  rwa [dc] at goesOn

theorem tableFull_released (s : State) (k : Seg) (f : Discovery) :
    let m := ((s.putDiscovery k f).endDiscovery k .tableFull).releaseBus k
    m.dir = s.dir ∧ m.au = s.au ∧ DiscoveryEnded s m k f .tableFull :=
  ⟨by simp [State.putDiscovery], by simp [State.putDiscovery], (endDiscovery_ended s k f .tableFull).released⟩

end

section
variable {k : Seg} {t : Addr} {d : Discovery}

theorem discoveryProbeOver_notFound (hd : (s.engine k).discovery = some d) :
    s.discoveryProbeOver k t false = s.afterAddress k (d.finish t) := by
  unfold State.discoveryProbeOver
  rw [hd]
  rfl

theorem discoveryProbeOver_full (hd : (s.engine k).discovery = some d)
    (hc : s.judgeCreation k t (d.aliasOf t) = .full) : s.discoveryProbeOver k t true =
      (s.putDiscovery k ((d.count .full).finish t)).endDiscovery k .tableFull := by
  unfold State.discoveryProbeOver State.deviceFound
  rw [hd]
  dsimp only
  rw [hc]
  rfl

/-- A device found, when DIR does not find the table full (R122). -/
theorem discoveryProbeOver_judged (hd : (s.engine k).discovery = some d) {c : Creation}
    (hc : s.judgeCreation k t (d.aliasOf t) = c) (hf : c ≠ .full) : s.discoveryProbeOver k t true =
      (c.records k t (d.aliasOf t) s).afterAddress k ((d.count c).finish t) := by
  unfold State.discoveryProbeOver State.deviceFound
  rw [hd]
  dsimp only
  rw [hc]
  exact if_neg hf

theorem exec_discoveryProbeEnd {x : Tx} (hr : s.inReset = false) (hx : s.onBus k x) (hk : x.kind = .discoveryProbe)
    (found : Bool) (low : LowLines) : exec (.discoveryProbeEnd k found low) s =
      .next (((s.discoveryProbeOver k x.target found).releaseBus k).settle low) := by
  obtain ⟨htx, hsil⟩ := hx
  change execDiscoveryProbeEnd k found low s = _
  rw [execDiscoveryProbeEnd, live_running s hr]
  unfold State.endDiscoveryProbe
  rw [htx]
  exact congrArg _ (if_pos ⟨hk, hsil⟩)

end

/-- Settles O47: the address's end changes the discovery alone, whatever DIR finds; then each finding by its own rule, and
the release of the bus. -/
theorem discoveryProbeEnds : Obligations.DiscoveryProbeEnds := by
  unfold Obligations.DiscoveryProbeEnds
  intro k found low s x d hres hx hk hd next named finished pairUsed aliasUsed usable
  have kept := discoveryProbeOver_over s k x.target found hd
  have pair : (s.lookupPair k x.target).isSome = true ↔ pairUsed := lookupPair_isSome_iff s k x.target
  have used : s.aliasTaken (d.aliasOf x.target) = true ↔ aliasUsed := aliasTaken_iff s _
  have slot := fun (hp : ¬pairUsed) (ha : ¬aliasUsed) =>
    judgeCreation_slot (s := s) (mt pair.mp hp) (mt used.mp ha)
  have request : RequestAfter s s.up (s.discoveryProbeOver k x.target found) k (fun _ => False) False :=
    .of_same (by rw [kept.engine]) kept.up fun _ _ => id
  refine ⟨(s.discoveryProbeOver k x.target found).releaseBus k, exec_discoveryProbeEnd hres hx hk found low,
    kept.flags.released, ?_, ?_, ?_, ?_, fun j hj => ?_, ?_,
    (request.released kept.flags.pause).congr fun _ _ => (or_false _).to_iff, ?_, ?_, ?_, ?_, ?_⟩
  · simpa using kept.pool
  · simpa using kept.hm
  · simpa using kept.mp
  · simpa using kept.pu
  · rw [releaseBus_engine, if_neg hj, kept.engines j hj]
  · rw [releaseBus_engine, if_pos rfl, kept.engine]
  · rintro rfl
    rw [discoveryProbeOver_notFound hd]
    exact afterAddress_released rfl k finished
  · rintro rfl hp
    rw [discoveryProbeOver_judged hd (judgeCreation_known (pair.mpr hp)) nofun]
    exact afterAddress_released rfl k _
  · rintro rfl hp ha
    rw [discoveryProbeOver_judged hd (judgeCreation_collision (mt pair.mp hp) (used.mpr ha)) nofun]
    exact afterAddress_released rfl k _
  · rintro rfl hp ha hu
    have full : s.judgeCreation k x.target (d.aliasOf x.target) = .full := by
      rw [slot hp ha, (lowestFree_eq_none_iff s).mpr hu]
      rfl
    rw [discoveryProbeOver_full hd full]
    exact tableFull_released s k _
  · rintro i rfl hp ha hu first
    have chosen : s.judgeCreation k x.target (d.aliasOf x.target) = .create i := by
      rw [slot hp ha, (lowestFree_eq_some_iff s i).mpr ⟨hu, first⟩]
      rfl
    rw [discoveryProbeOver_judged hd chosen nofun]
    exact afterAddress_released rfl k _

end Sys2Proof.Machine
end

section
namespace Sys2Proof.Machine

variable {s : State}

/-! ### The fields of a DISCOVER (R118, R183) -/

/-- A segment that exists, and a window and an alias range inside 0x08 to 0x77 (R118). -/
abbrev DiscoverInRange (k l h b : Byte) : Prop :=
  k.toNat < 4 ∧ 0x08 ≤ l.toNat ∧ l.toNat ≤ h.toNat ∧ h.toNat ≤ 0x77 ∧ 0x08 ≤ b.toNat ∧
    b.toNat + (h.toNat - l.toNat) ≤ 0x77

theorem segOf_isSome_iff (b : Byte) : (segOf b).isSome = true ↔ b.toNat < 4 := by
  unfold segOf
  split <;> simp [*]

theorem addrOf_inRange {b : Byte} (low : 0x08 ≤ b.toNat) (high : b.toNat ≤ 0x77) : addrOf b = some (b.truncate 7) :=
  if_pos ⟨low, high⟩

/-- An address below 0x78 keeps its value in 7 bits. -/
theorem truncate_toNat {b : Byte} (high : b.toNat ≤ 0x77) : (b.truncate 7 : Addr).toNat = b.toNat := by
  rw [BitVec.truncate_eq_setWidth, BitVec.toNat_setWidth]
  exact Nat.mod_eq_of_lt (by omega)

/-- An address byte that decodes is in range, and the address has its value (R183). -/
theorem addrOf_some {b : Byte} {a : Addr} (h : addrOf b = some a) :
    0x08 ≤ b.toNat ∧ b.toNat ≤ 0x77 ∧ a.toNat = b.toNat := by
  obtain ⟨⟨low, high⟩, e⟩ := Option.ite_none_right_eq_some.mp h
  exact ⟨low, high, Option.some.inj e ▸ truncate_toNat high⟩

section
variable {k l h b : Byte}

theorem decodeDiscover_inRange {g : Seg} (hg : k.toNat = g.val) (hr : DiscoverInRange k l h b) :
    decodeDiscover [k, l, h, b] = some (g, l.truncate 7, h.truncate 7, b.truncate 7) := by
  obtain ⟨-, ll, lh, hh, bl, bh⟩ := hr
  have bw : b.toNat ≤ 0x77 := by omega
  have lw : l.toNat ≤ 0x77 := lh.trans hh
  simp only [decodeDiscover, segOf_seg hg, addrOf_inRange ll lw, addrOf_inRange (ll.trans lh) hh, addrOf_inRange bl bw,
    truncate_toNat lw, truncate_toNat hh, truncate_toNat bw]
  exact if_pos ⟨lh, bh⟩

theorem decodeDiscover_outOfRange (hr : ¬DiscoverInRange k l h b) : decodeDiscover [k, l, h, b] = none := by
  unfold decodeDiscover
  dsimp only
  split
  · rename_i g al ah ab hg hl hh hb
    obtain ⟨ll, -, el⟩ := addrOf_some hl
    obtain ⟨-, hw, eh⟩ := addrOf_some hh
    obtain ⟨bl, -, eb⟩ := addrOf_some hb
    have segment : k.toNat < 4 := (segOf_isSome_iff k).mp (by rw [hg]; rfl)
    refine if_neg fun ⟨window, aliases⟩ => hr ?_
    rw [el, eh] at window
    rw [el, eh, eb] at aliases
    exact ⟨segment, ll, window, hw, bl, aliases⟩
  · rfl

end

/-! ### DISCOVER (R118, R119) -/

theorem exec_discover {tag : Byte} {args : List Byte} {rest : List Command} (hq : s.queues .discover tag args rest)
    (low : LowLines) : exec (.discover low) s = .next ((s.taken rest).runDiscover low ⟨.discover, tag, args⟩) :=
  congrArg _ (taking_of_queues s hq _)

section
variable (low : LowLines) (c : Command)

theorem runDiscover_badField (hc : decodeDiscover c.args = none) : s.runDiscover low c = s.answer c .badField := by
  simp only [State.runDiscover, hc]

variable {k : Seg} {l h b : Addr}

theorem runDiscover_running (hc : decodeDiscover c.args = some (k, l, h, b)) (hd : (s.engine k).discovery ≠ none) :
    s.runDiscover low c = s.answer c .alreadyRunning := by
  simp only [State.runDiscover, hc, Option.isSome_iff_ne_none.mpr hd, if_true]

theorem runDiscover_free (hc : decodeDiscover c.args = some (k, l, h, b)) (hd : (s.engine k).discovery = none) :
    s.runDiscover low c = if (s.engine k).state = .failed then s.answer c .segmentFault
      else ((s.putDiscovery k (.start l h b c.tag)).addOp (.discover k) c.tag).settle low := by
  simp only [State.runDiscover, hc, hd, Option.isSome_none, Bool.false_eq_true, if_false]

end

/-- Settles O29: the fields are checked, then the engine; past the checks the context is created and the arbiters choose. -/
theorem discoverCreatesAContext : Obligations.DiscoverCreatesAContext := by
  unfold Obligations.DiscoverCreatesAContext
  intro s low tag k l h b rest hq refused
  have run := exec_discover hq low
  refine ⟨fun out => ?_, fun g hg ll lh hh bl bh => ⟨fun hd => ?_, fun hd hf => ?_, fun hd hf => ?_⟩⟩
  · rw [run, runDiscover_badField _ _ (decodeDiscover_outOfRange out)]
    rfl
  all_goals have fields := decodeDiscover_inRange hg ⟨hg ▸ g.isLt, ll, lh, hh, bl, bh⟩
  · rw [run, runDiscover_running (s := s.taken rest) low _ fields hd]
    rfl
  · rw [run, runDiscover_free (s := s.taken rest) low _ fields hd, taken_engine, if_pos hf]
    rfl
  · rw [run, runDiscover_free (s := s.taken rest) low _ fields hd, taken_engine, if_neg hf]
    rfl

end Sys2Proof.Machine
end

section
namespace Sys2Proof.Machine

variable {s : State}

/-! ### Answers given one after the other (R132) -/

/-- A long operation once `f` has answered it; one answered before keeps its answer. -/
def LongOp.given (f : LongOp → Option Response) (op : LongOp) : LongOp := { op with answer := op.answer.or (f op) }

theorem settleOps_eq (s : State) (f : LongOp → Option Response) :
    s.settleOps f = s.setDc ⟨s.dc.ops.map (LongOp.given f)⟩ := by
  refine congrArg (fun ops => s.setDc ⟨ops⟩) (List.map_congr_left fun op _ => ?_)
  obtain ⟨work, tag, answer⟩ := op
  cases answer <;> rfl

theorem LongOp.given_waiting (f : LongOp → Option Response) {op : LongOp} (h : op.answer = none) :
    (op.given f).answer = f op := by
  rw [LongOp.given, h, Option.none_or]

/-- Of two answers given in one event the first stands. -/
theorem settleOps_settleOps (s : State) (f g : LongOp → Option Response) :
    (s.settleOps f).settleOps g = s.settleOps fun op => (f op).or (g op) := by
  simp only [settleOps_eq, setDc_dc, List.map_map]
  refine congrArg (fun ops => s.setDc ⟨ops⟩) (List.map_congr_left fun op _ => ?_)
  obtain ⟨work, tag, answer⟩ := op
  cases answer with
  | some a => rfl
  | none =>
    simp only [Function.comp_apply, LongOp.given, Option.none_or]
    cases f ⟨work, tag, none⟩ <;> rfl

theorem settleOps_none (s : State) : (s.settleOps fun _ => none) = s := by
  have same : LongOp.given (fun _ => none) = id := funext fun op => by rw [LongOp.given, Option.or_none]; rfl
  rw [settleOps_eq, same, List.map_id]
  rfl

/-- When no operation holds an answer before, those that `f` does not answer wait on. -/
theorem settleOps_waiting (f : LongOp → Option Response) (h : s.NoAnswerHeld) :
    ((s.settleOps f).dc.ops.filter fun op => op.answer.isNone) = s.dc.ops.filter fun op => (f op).isNone := by
  rw [settleOps_eq, setDc_dc, List.filter_map]
  have waiting : ∀ op ∈ s.dc.ops, ((fun op : LongOp => op.answer.isNone) ∘ LongOp.given f) op = (f op).isNone :=
    fun op ho => congrArg Option.isNone (LongOp.given_waiting f (h op ho))
  rw [List.filter_congr waiting]
  refine (List.map_congr_left fun op ho => ?_).trans (List.map_id _)
  obtain ⟨mem, unanswered⟩ := List.mem_filter.mp ho
  rw [LongOp.given, Option.isNone_iff_eq_none.mp unanswered, Option.or_none]
  rfl

/-! ### A CANCEL at one engine (R124, R125) -/

/-- The engine once a CANCEL with tag `x` has reached it: a discovery with that tag and no probe on the bus is given up,
one with a probe on the bus is marked. -/
def Engine.cancelled (x : Byte) (e : Engine) : Engine :=
  { e with discovery := e.discovery.bind fun d =>
      if d.tag = x then (if d.onBus.isSome then some { d with cancelRequested := true } else none) else some d }

/-- What the CANCEL answers the DISCOVER, tagged `tag`, of this engine: CANCELLED when its discovery is given up. -/
def Engine.cancelAnswer (x tag : Byte) (e : Engine) : Option Response :=
  e.discovery.bind fun d => if d.tag = x ∧ d.onBus = none then some ⟨.discover, tag, .cancelled, d.results⟩ else none

/-- The answer the CANCEL gives a DISCOVER of segment `k`. -/
def State.cancelAnswerOn (s : State) (x : Byte) (k : Seg) (op : LongOp) : Option Response :=
  if op.work = .discover k then (s.engine k).cancelAnswer x op.tag else none

/-- A CANCEL that gives up no discovery answers nothing. -/
theorem cancelOn_silent {x : Byte} {k : Seg} (h : ∀ tag, (s.engine k).cancelAnswer x tag = none) :
    (s.modEngine k (Engine.cancelled x)).settleOps (s.cancelAnswerOn x k) = s.modEngine k (Engine.cancelled x) := by
  have silent : s.cancelAnswerOn x k = fun _ => none := funext fun op => by rw [State.cancelAnswerOn, h, ite_self]
  rw [silent, settleOps_none]

section
variable {e : Engine} {x : Byte} {d : Discovery}

theorem Engine.cancelled_otherTag (h : ∀ d, e.discovery = some d → d.tag ≠ x) :
    e.cancelled x = e ∧ ∀ tag, e.cancelAnswer x tag = none := by
  unfold Engine.cancelled Engine.cancelAnswer
  cases hd : e.discovery with
  | none => exact ⟨by rw [Option.bind_none, ← hd], fun _ => rfl⟩
  | some d => exact ⟨by rw [Option.bind_some, if_neg (h d hd), ← hd], fun _ => if_neg fun c => h d hd c.1⟩

theorem Engine.cancelled_onBus (hd : e.discovery = some d) (ht : d.tag = x) (hb : d.onBus.isSome = true) :
    e.cancelled x = { e with discovery := some { d with cancelRequested := true } } ∧
    ∀ tag, e.cancelAnswer x tag = none := by
  unfold Engine.cancelled Engine.cancelAnswer
  rw [hd, Option.bind_some, if_pos ht, if_pos hb]
  exact ⟨rfl, fun _ => if_neg fun c => Option.isSome_iff_ne_none.mp hb c.2⟩

theorem Engine.cancelled_offBus (hd : e.discovery = some d) (ht : d.tag = x) (hb : d.onBus = none) :
    e.cancelled x = { e with discovery := none } ∧
    ∀ tag, e.cancelAnswer x tag = some ⟨.discover, tag, .cancelled, d.results⟩ := by
  unfold Engine.cancelled Engine.cancelAnswer
  rw [hd, Option.bind_some, if_pos ht, if_neg (by simp [hb])]
  exact ⟨rfl, fun _ => if_pos ⟨ht, hb⟩⟩

end

theorem cancelOn_eq (s : State) (x : Byte) (k : Seg) :
    s.cancelOn x k = (s.modEngine k (Engine.cancelled x)).settleOps (s.cancelAnswerOn x k) := by
  by_cases h : ∃ d, (s.engine k).discovery = some d ∧ d.tag = x
  · obtain ⟨d, hd, ht⟩ := h
    unfold State.cancelOn
    rw [hd]
    refine (if_pos ht).trans ?_
    by_cases hb : d.onBus.isSome = true
    · obtain ⟨marked, silent⟩ := Engine.cancelled_onBus hd ht hb
      rw [if_pos hb, cancelOn_silent silent]
      exact (modEngine_agree (g := fun e => { e with discovery := some { d with cancelRequested := true } }) marked).symm
    · obtain ⟨gone, answered⟩ := Engine.cancelled_offBus hd ht (by simpa using hb)
      rw [if_neg hb, modEngine_agree (g := fun e => { e with discovery := none }) gone]
      unfold State.endDiscovery State.cancelAnswerOn
      simp only [hd, answered]
  · have other : ∀ d, (s.engine k).discovery = some d → d.tag ≠ x := fun d hd ht => h ⟨d, hd, ht⟩
    obtain ⟨same, silent⟩ := Engine.cancelled_otherTag other
    rw [cancelOn_silent silent, modEngine_same same]
    unfold State.cancelOn
    split
    · rename_i d hd
      exact if_neg (other d hd)
    · rfl

/-! ### A CANCEL at every engine (R124, R132) -/

/-- The answer the CANCEL gives a long operation. -/
def State.cancelAnswer (s : State) (x : Byte) (op : LongOp) : Option Response :=
  match op.work with
  | .discover k => (s.engine k).cancelAnswer x op.tag
  | _ => none

theorem cancelAnswer_eq (s : State) (x : Byte) : s.cancelAnswer x = fun op =>
    (((s.cancelAnswerOn x 0 op).or (s.cancelAnswerOn x 1 op)).or (s.cancelAnswerOn x 2 op)).or
      (s.cancelAnswerOn x 3 op) := by
  funext ⟨work, tag, answer⟩
  cases work with
  | discover k =>
    match k with
    | 0 | 1 | 2 | 3 => simp [State.cancelAnswer, State.cancelAnswerOn]
  | _ => simp [State.cancelAnswer, State.cancelAnswerOn]

/-- The CANCEL at an engine that what it did at the others has not reached. -/
theorem cancelOn_next (s : State) (x : Byte) (k : Seg) {e : Quad Engine} (f : LongOp → Option Response)
    (h : e.get k = s.engine k) : ((s.setEng e).settleOps f).cancelOn x k =
      (s.setEng (e.set k ((s.engine k).cancelled x))).settleOps fun op => (f op).or (s.cancelAnswerOn x k op) := by
  have answers : ((s.setEng e).settleOps f).cancelAnswerOn x k = s.cancelAnswerOn x k := by
    funext op
    unfold State.cancelAnswerOn
    rw [← h]
    rfl
  rw [cancelOn_eq, answers, ← h]
  exact settleOps_settleOps (s.setEng (e.set k ((e.get k).cancelled x))) f _

/-- Each engine's discovery meets the CANCEL, and the DISCOVERs of those given up are answered. -/
theorem cancelAll_eq (s : State) (x : Byte) :
    s.cancelAll x = (s.setEng (s.eng.map (Engine.cancelled x))).settleOps (s.cancelAnswer x) := by
  have first : s.cancelOn x 0 =
      (s.setEng (s.eng.set 0 ((s.engine 0).cancelled x))).settleOps (s.cancelAnswerOn x 0) := cancelOn_eq s x 0
  unfold State.cancelAll
  rw [first, cancelOn_next s x 1 _ (by rfl), cancelOn_next s x 2 _ (by rfl), cancelOn_next s x 3 _ (by rfl),
    cancelAnswer_eq]
  rfl

theorem runsTag_iff (s : State) (x : Byte) (k : Seg) :
    s.runsTag x k = true ↔ ∃ d, (s.engine k).discovery = some d ∧ d.tag = x := by
  unfold State.runsTag
  rw [Option.any_eq_true]
  simp only [beq_iff_eq]

theorem mem_allSegs (k : Seg) : k ∈ allSegs := by
  revert k
  decide

theorem anyRunsTag_iff (s : State) (x : Byte) :
    allSegs.any (s.runsTag x) = true ↔ ∃ k d, (s.engine k).discovery = some d ∧ d.tag = x := by
  rw [List.any_eq_true]
  simp only [runsTag_iff]
  exact ⟨fun ⟨k, _, h⟩ => ⟨k, h⟩, fun ⟨k, h⟩ => ⟨k, mem_allSegs k, h⟩⟩

/-! ### CANCEL (R124) -/

section
variable (c : Command) {x : Byte}

theorem runCancel_notFound (hc : c.args = [x]) (h : ¬allSegs.any (s.runsTag x) = true) :
    s.runCancel c = s.answer c .notFound := by
  simp only [State.runCancel, hc, decodeTag]
  exact if_neg h

theorem runCancel_reaches (hc : c.args = [x]) (h : allSegs.any (s.runsTag x) = true) : s.runCancel c =
    ((s.setEng (s.eng.map (Engine.cancelled x))).settleOps (s.cancelAnswer x)).answerDone c
      [oneByte (allSegs.filter (s.runsTag x)).length] := by
  simp only [State.runCancel, hc, decodeTag, ← cancelAll_eq]
  exact if_pos h

end

/-- When no operation holds an answer before, the answers of `f` join the response queue in the order of taking, then the
command's own; the operations that `f` does not answer wait on (R132). -/
theorem settleOps_answerDone {u : State} (h : u.NoAnswerHeld) (f : LongOp → Option Response) (c : Command)
    (results : List Byte) :
    ((u.settleOps f).answerDone c results).mp.responses =
      u.mp.responses ++ u.dc.ops.filterMap f ++ [⟨c.kind, c.tag, .done, results⟩] ∧
    ((u.settleOps f).answerDone c results).dc.ops = u.dc.ops.filter fun op => (f op).isNone :=
  ⟨congrArg (u.mp.responses ++ · ++ [_]) (settleOps_responses f h), settleOps_waiting f h⟩

/-- Settles O30: with no discovery of the tag the CANCEL is answered NOT_FOUND; else every engine's discovery meets it, and
the DISCOVERs of those given up are answered before it. -/
theorem cancelReachesItsDiscoveries : Obligations.CancelReachesItsDiscoveries := by
  unfold Obligations.CancelReachesItsDiscoveries
  intro s tag x rest hq
  have run : exec .cancel s = .next ((s.taken rest).runCancel ⟨.cancel, tag, [x]⟩) := congrArg _ (taking_of_queues s hq _)
  have runs := anyRunsTag_iff (s.taken rest) x
  refine ⟨fun unused => ?_, fun used => ?_⟩
  · rw [run, runCancel_notFound _ rfl fun h => let ⟨k, d, hd, ht⟩ := runs.mp h; unused k d hd ht]
    rfl
  · intro ended
    have answers : (s.taken rest).cancelAnswer x = ended := by
      funext ⟨work, opTag, answer⟩
      cases work with
      | discover k =>
        simp only [ended, State.cancelAnswer, Engine.cancelAnswer, taken_engine]
        cases (s.engine k).discovery <;> rfl
      | _ => rfl
    rw [runCancel_reaches _ rfl (runs.mpr used), answers] at run
    have engine : ∀ k, ((s.taken rest).setEng ((s.taken rest).eng.map (Engine.cancelled x))).engine k =
        (s.engine k).cancelled x := fun k => Quad.get_map s.eng (Engine.cancelled x) k
    refine ⟨_, run, fun k => ?_, answerDone_last _ _ _,
      fun held => settleOps_answerDone (u := (s.taken rest).setEng _) held _ _ _, rfl, rfl⟩
    rw [answerDone_engine, engine_settleOps, engine]
    refine ⟨rfl, ?_⟩
    rw [Engine.cancelled]
    cases (s.engine k).discovery <;> rfl

end Sys2Proof.Machine
end

section
namespace Sys2Proof.Machine

variable {s : State}

/-! ### Slot and address bytes (R183) -/

/-- The slot a slot byte names (R183). -/
theorem slotOf_slot {b : Byte} {i : Slot} (h : b.toNat = i.val) : slotOf b = some i := by
  have hlt : b.toNat < 48 := h ▸ i.isLt
  rw [slotOf, dif_pos hlt]
  exact congrArg some (Fin.ext h)

theorem slotOf_outOfRange {b : Byte} (h : 48 ≤ b.toNat) : slotOf b = none := by
  rw [slotOf, dif_neg (by omega)]

theorem anyAddrOf_inRange {b : Byte} (h : b.toNat < 128) : anyAddrOf b = some (b.truncate 7) := if_pos h

theorem anyAddrOf_outOfRange {b : Byte} (h : 128 ≤ b.toNat) : anyAddrOf b = none := if_neg (by omega)

/-- An address byte below 0x80 keeps its value in 7 bits. -/
theorem anyAddr_toNat {b : Byte} (h : b.toNat < 128) : (b.truncate 7 : Addr).toNat = b.toNat := by
  rw [BitVec.truncate_eq_setWidth, BitVec.toNat_setWidth]
  exact Nat.mod_eq_of_lt h

/-- The address an address byte names (R183). -/
theorem anyAddrOf_addr {b : Byte} {a : Addr} (h : b.toNat = a.toNat) : anyAddrOf b = some a := by
  have hlt : b.toNat < 128 := h ▸ a.isLt
  rw [anyAddrOf_inRange hlt]
  exact congrArg some (BitVec.eq_of_toNat_eq ((anyAddr_toNat hlt).trans h))

/-! ### The key of a LOOKUP (R136, R183) -/

section
variable {m a b : Byte}

theorem decodeLookup_slot : decodeLookup [0x00, a, b] = (slotOf a).map .slot := rfl

theorem decodeLookup_byAlias : decodeLookup [0x01, a, b] = (anyAddrOf a).map .byAlias := rfl

theorem decodeLookup_pair :
    decodeLookup [0x02, a, b] = (segOf a).bind fun k => (anyAddrOf b).map (.pair k) := by
  cases hk : segOf a <;> cases ht : anyAddrOf b <;> simp [decodeLookup, hk, ht]

theorem decodeLookup_pair_outOfRange (h : 4 ≤ a.toNat ∨ 128 ≤ b.toNat) : decodeLookup [0x02, a, b] = none := by
  rw [decodeLookup_pair]
  rcases h with h | h
  · rw [segOf_outOfRange h, Option.bind_none]
  · simp only [anyAddrOf_outOfRange h, Option.map_none, Option.bind_fun_none]

theorem decodeLookup_method (h : 2 < m.toNat) : decodeLookup [m, a, b] = none := by
  unfold decodeLookup
  dsimp only
  split
  case h_4 => rfl
  all_goals omega

end

/-! ### The record of a pair (R13, R14) -/

theorem lookupPair_some {k : Seg} {t : Addr} {i : Slot} (h : s.lookupPair k t = some i) :
    ∃ r, s.recAt i = some r ∧ r.segment = k ∧ r.target = t := by
  have found := List.find?_some h
  split at found
  · rename_i r hr
    simp only [Bool.and_eq_true, beq_iff_eq] at found
    exact ⟨r, hr, found⟩
  · cases found

/-- Where no two records have one pair, the search finds the record that has it (R13). -/
theorem lookupPair_of_unique {i : Slot} {r : Record} (unique : s.Unique) (hr : s.recAt i = some r) :
    s.lookupPair r.segment r.target = some i := by
  obtain ⟨j, hj⟩ := Option.isSome_iff_exists.mp ((lookupPair_isSome_iff s _ _).mpr ⟨i, r, hr, rfl, rfl⟩)
  obtain ⟨q, hq, pair⟩ := lookupPair_some hj
  by_contra other
  exact (unique j i q r hq hr fun e => other (e ▸ hj)).2 pair

/-! ### LOOKUP (R14, R136) -/

theorem exec_lookup {tag : Byte} {args : List Byte} {rest : List Command} (hq : s.queues .lookup tag args rest) :
    exec .lookup s = .next ((s.taken rest).runLookup ⟨.lookup, tag, args⟩) :=
  congrArg _ (taking_of_queues s hq _)

section
variable (c : Command) {key : LookupKey}

theorem runLookup_badField (hc : decodeLookup c.args = none) : s.runLookup c = s.answer c .badField := by
  simp only [State.runLookup, hc]

theorem runLookup_notFound (hc : decodeLookup c.args = some key) (hf : s.find key = none) :
    s.runLookup c = s.answer c .notFound := by
  simp only [State.runLookup, hc, hf]

theorem runLookup_found {i : Slot} {r : Record} (hc : decodeLookup c.args = some key) (hf : s.find key = some i)
    (hr : s.recAt i = some r) : s.runLookup c = s.answerDone c (oneByte i.val :: r.image) := by
  simp only [State.runLookup, hc, hf, hr]

end

/-- Settles O21: each of the three keys finds the record's slot, finds none, or is refused. -/
theorem lookupFindsARecord : Obligations.LookupFindsARecord := by
  unfold Obligations.LookupFindsARecord
  intro s tag m a b rest hq answered
  have run := exec_lookup hq
  have found : ∀ key i r, decodeLookup [m, a, b] = some key → s.find key = some i → s.recAt i = some r →
      exec .lookup s = answered .done (oneByte i.val :: r.image) := fun key i r hc hf hr => by
    rw [run, runLookup_found (s := s.taken rest) _ hc hf hr]
    rfl
  have missed : ∀ key, decodeLookup [m, a, b] = some key → s.find key = none →
      exec .lookup s = answered .notFound [] := fun key hc hf => by
    rw [run, runLookup_notFound (s := s.taken rest) _ hc hf]
    rfl
  have refused : decodeLookup [m, a, b] = none → exec .lookup s = answered .badField [] := fun hc => by
    rw [run, runLookup_badField _ hc]
    rfl
  refine ⟨?bySlot, ?byAlias, ?byPair, ?notFound, ?badField⟩
  case bySlot =>
    rintro i r hr rfl ha
    exact found (.slot i) i r (by rw [decodeLookup_slot, slotOf_slot ha]; rfl) (by simp [State.find, hr]) hr
  case byAlias =>
    rintro i r hr rfl ha hi
    exact found (.byAlias _) i r (by rw [decodeLookup_byAlias, anyAddrOf_inRange ha]; rfl) hi hr
  case byPair =>
    rintro i r hr rfl ha hb unique
    exact found (.pair r.segment r.target) i r (by rw [decodeLookup_pair, segOf_seg ha, anyAddrOf_addr hb]; rfl)
      (lookupPair_of_unique unique hr) hr
  case notFound =>
    rintro (⟨rfl, i, ha, hn⟩ | ⟨rfl, ha, hn⟩ | ⟨rfl, ha, hb, unheld⟩)
    · exact missed (.slot i) (by rw [decodeLookup_slot, slotOf_slot ha]; rfl) (by simp [State.find, hn])
    · exact missed (.byAlias _) (by rw [decodeLookup_byAlias, anyAddrOf_inRange ha]; rfl) hn
    · refine missed (.pair ⟨a.toNat, ha⟩ (b.truncate 7))
        (by rw [decodeLookup_pair, segOf_seg (k := ⟨a.toNat, ha⟩) rfl, anyAddrOf_inRange hb]; rfl) ?_
      refine Option.not_isSome_iff_eq_none.mp fun held => ?_
      obtain ⟨i, r, hr, hk, ht⟩ := (lookupPair_isSome_iff s _ _).mp held
      rcases unheld i r hr with other | other
      · exact other (congrArg Fin.val hk).symm
      · exact other ((anyAddr_toNat hb).symm.trans (congrArg BitVec.toNat ht).symm)
  case badField =>
    rintro (⟨rfl, ha⟩ | ⟨rfl, ha⟩ | ⟨rfl, out⟩ | method)
    · exact refused (by rw [decodeLookup_slot, slotOf_outOfRange ha]; rfl)
    · exact refused (by rw [decodeLookup_byAlias, anyAddrOf_outOfRange ha]; rfl)
    · exact refused (decodeLookup_pair_outOfRange out)
    · exact refused (decodeLookup_method method)

end Sys2Proof.Machine
end

section
namespace Sys2Proof.Machine

variable {s : State} {i : Slot} {r : Record}

/-! ### CLEAR_COUNTS (R25, R142) -/

theorem slotOrAllOf_slot {b : Byte} (h : b.toNat = i.val) : slotOrAllOf b = some (some i) := by
  have named : b ≠ 0xFF := fun e => by
    have := i.isLt
    rw [e] at h
    change 255 = i.val at h
    omega
  rw [slotOrAllOf, if_neg named, slotOf_slot h]
  rfl

theorem slotOrAllOf_outOfRange {b : Byte} (h : 48 ≤ b.toNat) (hb : b ≠ 0xFF) : slotOrAllOf b = none := by
  rw [slotOrAllOf, if_neg hb, slotOf_outOfRange h]
  rfl

theorem exec_clearCounts {tag : Byte} {args : List Byte} {rest : List Command}
    (hq : s.queues .clearCounts tag args rest) :
    exec .clearCounts s = .next ((s.taken rest).runClearCounts ⟨.clearCounts, tag, args⟩) :=
  congrArg _ (taking_of_queues s hq _)

theorem modRec_eq (hr : s.recAt i = some r) (f : Record → Record) : s.modRec i f = s.putRec i (some (f r)) := by
  simp only [State.modRec, hr]

theorem clearAllCounts_recAt (s : State) (i : Slot) :
    s.clearAllCounts.recAt i = (s.recAt i).map Record.clearCounts :=
  recAt_mapSlots s (fun o => o.map Record.clearCounts) i

@[simp] theorem clearAllCounts_index (s : State) : s.clearAllCounts.dir.aliasIndex = s.dir.aliasIndex := by
  simp only [State.clearAllCounts, setDir_dir]

@[simp] theorem taken_dir (s : State) (rest : List Command) : (s.taken rest).dir = s.dir := rfl

/-- A command that has changed records alone, answered in its event, leaves the rest of the part but for DC, MP and the
lines that AU drives. -/
theorem answerDone_onlyRecords {u : State} (only : u = { s with dir := u.dir, mp := u.mp }) (c : Command)
    (results : List Byte) : u.answerDone c results = { s with
      dir := (u.answerDone c results).dir
      mp := (u.answerDone c results).mp
      dc := (u.answerDone c results).dc
      au := { s.au with
        alert := (u.answerDone c results).au.alert
        attn := (u.answerDone c results).au.attn } } := by
  generalize u.dir = dir at only
  generalize u.mp = mp at only
  subst only
  rfl

section
variable (c : Command) {b : Byte}

theorem runClearCounts_badField (hc : c.args = [b]) (h : 48 ≤ b.toNat) (hb : b ≠ 0xFF) :
    s.runClearCounts c = s.answer c .badField := by
  simp only [State.runClearCounts, hc, decodeClearCounts, slotOrAllOf_outOfRange h hb]

theorem runClearCounts_all (hc : c.args = [0xFF]) :
    s.runClearCounts c = s.clearAllCounts.answerDone c [oneByte s.recordCount] := by
  have all : slotOrAllOf 0xFF = some none := rfl
  simp only [State.runClearCounts, hc, decodeClearCounts, all]

theorem runClearCounts_free (hc : c.args = [b]) (h : b.toNat = i.val) (hr : s.recAt i = none) :
    s.runClearCounts c = s.answer c .slotFree := by
  simp only [State.runClearCounts, hc, decodeClearCounts, slotOrAllOf_slot h, hr]

theorem runClearCounts_one (hc : c.args = [b]) (h : b.toNat = i.val) (hr : s.recAt i = some r) :
    s.runClearCounts c = (s.putRec i (some r.clearCounts)).answerDone c [0x01] := by
  simp only [State.runClearCounts, hc, decodeClearCounts, slotOrAllOf_slot h, hr, modRec_eq hr]

end

/-- Settles O27: the counts of the one record are cleared in place, or those of every slot at once. -/
theorem clearCountsClearsThree : Obligations.ClearCountsClearsThree := by
  unfold Obligations.ClearCountsClearsThree
  intro s tag b rest hq cleared
  have run := exec_clearCounts hq
  refine ⟨fun i r hb hr => ?one, ?all, fun i hb hr => ?free, fun h hb => ?badField⟩
  case one =>
    rw [runClearCounts_one (s := s.taken rest) _ rfl hb hr] at run
    refine ⟨_, run, ?_, fun j hj => ?_, rfl, rfl, answerDone_last _ _ _, rfl, answerDone_onlyRecords rfl _ _⟩
    · rw [answerDone_recAt]
      exact recAt_putRec_self _ i _
    · rw [answerDone_recAt]
      exact recAt_putRec_other _ (Ne.symm hj) _
  case all =>
    rintro rfl
    have count : (allSlots.filter fun i => (s.recAt i).isSome).length = (s.taken rest).recordCount := rfl
    rw [runClearCounts_all (s := s.taken rest) _ rfl] at run
    rw [count]
    refine ⟨_, run, fun i => ?_, ?_, answerDone_last _ _ _, rfl, answerDone_onlyRecords rfl _ _⟩
    · rw [answerDone_recAt]
      exact clearAllCounts_recAt _ i
    · rw [answerDone_index, clearAllCounts_index, taken_dir]
  case free =>
    rw [run, runClearCounts_free (s := s.taken rest) _ rfl hb hr]
    rfl
  case badField =>
    rw [run, runClearCounts_badField _ rfl h hb]
    rfl

/-! ### PROBE (R143) -/

theorem exec_probe {tag : Byte} {args : List Byte} {rest : List Command} (hq : s.queues .probe tag args rest)
    (low : LowLines) : exec (.probe low) s = .next ((s.taken rest).runProbe low ⟨.probe, tag, args⟩) :=
  congrArg _ (taking_of_queues s hq _)

section
variable (low : LowLines) (c : Command) {b : Byte}

theorem runProbe_badField (hc : c.args = [b]) (h : 48 ≤ b.toNat) : s.runProbe low c = s.answer c .badField := by
  simp only [State.runProbe, hc, decodeSlot, slotOf_outOfRange h]

theorem runProbe_free (hc : c.args = [b]) (h : b.toNat = i.val) (hr : s.recAt i = none) :
    s.runProbe low c = s.answer c .slotFree := by
  simp only [State.runProbe, hc, decodeSlot, slotOf_slot h, hr]

/-- The checks of a PROBE on the record it names, in their order (R143). -/
theorem runProbe_checked (hc : c.args = [b]) (h : b.toNat = i.val) (hr : s.recAt i = some r) :
    s.runProbe low c =
      if r.state = .retiring then s.answer c .retired
      else if (s.engine r.segment).state = .failed then s.answer c .segmentFault
      else ((s.modEngine r.segment (Engine.enqueueProbe i)).addOp (.probe i false) c.tag).settle low := by
  simp only [State.runProbe, hc, decodeSlot, slotOf_slot h, hr]

end

/-- Settles O28: the checks one after the other, then the request joins its queue and the arbiters choose. -/
theorem probeQueuesARequest : Obligations.ProbeQueuesARequest := by
  unfold Obligations.ProbeQueuesARequest
  intro s low tag b rest hq refused
  have run := exec_probe hq low
  refine ⟨fun h => ?_, fun i hb => ⟨fun hr => ?_, fun r hr => ?_⟩⟩
  · rw [run, runProbe_badField low _ rfl h]
    rfl
  · rw [run, runProbe_free (s := s.taken rest) low _ rfl hb hr]
    rfl
  · rw [runProbe_checked (s := s.taken rest) low _ rfl hb hr, taken_engine] at run
    refine ⟨fun hs => ?_, fun hs hf => ?_, fun hs hf => ?_⟩
    · rw [run, if_pos hs]
      rfl
    · rw [run, if_neg hs, if_pos hf]
      rfl
    · rw [run, if_neg hs, if_neg hf]
      rfl

end Sys2Proof.Machine
end

section
namespace Sys2Proof.Machine

variable {s : State}

/-! ### PARTITION (R78, R148) -/

/-- A share that R78 allows. -/
abbrev ShareAllowed (n : Nat) : Prop := n = 0 ∨ (32 ≤ n ∧ n ≤ 512 ∧ n % 8 = 0)

theorem shareValid_iff (n : Nat) : shareValid n = true ↔ ShareAllowed n := by
  simp [shareValid, ShareAllowed, and_assoc]

theorem sharesValid_iff (q : Quad Nat) : sharesValid q = true ↔
    ShareAllowed q.s0 ∧ ShareAllowed q.s1 ∧ ShareAllowed q.s2 ∧ ShareAllowed q.s3 ∧
      q.s0 + q.s1 + q.s2 + q.s3 ≤ 512 := by
  simp only [sharesValid, Quad.toList, List.all_cons, List.all_nil, Bool.and_eq_true, shareValid_iff, decide_eq_true_eq,
    and_true, and_assoc]
  rfl

theorem exec_partition {tag : Byte} {args : List Byte} {rest : List Command} (hq : s.queues .partition tag args rest) :
    exec .partition s = .next ((s.taken rest).runPartition ⟨.partition, tag, args⟩) :=
  congrArg _ (taking_of_queues s hq _)

section
variable (c : Command) {q : Quad Nat} (hc : decodePartition c.args = some q)
include hc

theorem runPartition_badPartition (h : ¬sharesValid q = true) : s.runPartition c = s.answer c .badPartition := by
  simp only [State.runPartition, hc]
  exact if_neg h

theorem runPartition_notQuiescent (h : sharesValid q = true) (hn : ¬s.quiescent = true) :
    s.runPartition c = s.answer c .notQuiescent := by
  simp only [State.runPartition, hc, if_pos h]
  exact if_neg hn

theorem runPartition_replaces (h : sharesValid q = true) (hn : s.quiescent = true) :
    s.runPartition c = (s.setShares q).answerDone c [] := by
  simp only [State.runPartition, hc, if_pos h]
  exact if_pos hn

end

/-- Settles O34: the shares are checked, then the queues and the reservation; past the checks the shares are replaced. -/
theorem partitionReplacesShares : Obligations.PartitionReplacesShares := by
  unfold Obligations.PartitionReplacesShares
  intro s tag a1 a0 b1 b0 c1 c0 d1 d0 rest hq n0 n1 n2 n3 allowed valid quiet answered
  have run := exec_partition hq
  have shares : decodePartition [a1, a0, b1, b0, c1, c0, d1, d0] = some ⟨n0, n1, n2, n3⟩ := rfl
  have fits : sharesValid ⟨n0, n1, n2, n3⟩ = true ↔ valid := sharesValid_iff _
  have empty : (s.taken rest).quiescent = true ↔ quiet := State.quiescent_iff _
  refine ⟨rfl, fun hv => ?_, fun hv hn => ?_, fun hv hn => ?_⟩
  · rw [run, runPartition_badPartition _ shares (mt fits.mp hv)]
    rfl
  · rw [run, runPartition_notQuiescent _ shares (fits.mpr hv) (mt empty.mp hn)]
    rfl
  · rw [run, runPartition_replaces _ shares (fits.mpr hv) (empty.mpr hn)]
    rfl

end Sys2Proof.Machine
end

section
namespace Sys2Proof.Machine

variable {s : State}

/-! ### The bytes of a SET_TIMING (R150, R186) -/

theorem positiveOf_nonzero {b : Byte} (h : b ≠ 0) : positiveOf b = some b.toNat := if_neg h

theorem rateOf_isSome_iff (n : Nat) : (rateOf n).isSome = true ↔ n % 4 ≠ 3 := by
  obtain e | e | e | e : n % 4 = 0 ∨ n % 4 = 1 ∨ n % 4 = 2 ∨ n % 4 = 3 := by omega
  all_goals simp [rateOf, e]

/-- The rate that two bits name (R186). -/
theorem rateOf_some {n : Nat} {r : Rate} (h : rateOf n = some r) :
    (r = .khz100 ↔ n % 4 = 0) ∧ (r = .khz400 ↔ n % 4 = 1) ∧ (r = .khz1000 ↔ n % 4 = 2) := by
  unfold rateOf at h
  split at h <;> cases h <;> simp [*]

/-- Segment `k`'s rate is in bits 2k and 2k + 1 of the rates byte (R186). -/
theorem ratesOf_some {b : Byte} {q : Quad Rate} (h : ratesOf b = some q) (k : Seg) :
    rateOf (b.toNat / 4 ^ k.val) = some (q.get k) := by
  unfold ratesOf at h
  split at h
  · rename_i r0 r1 r2 r3 h0 h1 h2 h3
    cases h
    match k with
    | 0 => exact (congrArg rateOf (Nat.div_one _)).trans h0
    | 1 => exact h1
    | 2 => exact h2
    | 3 => exact h3
  · cases h

theorem ratesOf_isSome_iff (b : Byte) : (ratesOf b).isSome = true ↔ ∀ n, n < 4 → b.toNat / 4 ^ n % 4 ≠ 3 := by
  constructor
  · intro h n hn
    obtain ⟨q, hq⟩ := Option.isSome_iff_exists.mp h
    exact (rateOf_isSome_iff _).mp (Option.isSome_iff_exists.mpr ⟨_, ratesOf_some hq ⟨n, hn⟩⟩)
  · intro h
    have rate := fun n hn => Option.isSome_iff_exists.mp ((rateOf_isSome_iff (b.toNat / 4 ^ n)).mpr (h n hn))
    obtain ⟨r0, h0⟩ := rate 0 (by omega)
    obtain ⟨r1, h1⟩ := rate 1 (by omega)
    obtain ⟨r2, h2⟩ := rate 2 (by omega)
    obtain ⟨r3, h3⟩ := rate 3 (by omega)
    norm_num at h0 h1 h2 h3
    simp only [ratesOf, h0, h1, h2, h3, Option.isSome_some]

theorem catchAllOf_isSome_iff (b : Byte) : (catchAllOf b).isSome = true ↔ b = 0xFF ∨ b.toNat < 4 := by
  unfold catchAllOf
  split
  · rename_i h
    simp only [Option.isSome_some, true_iff]
    exact .inl h
  · rename_i h
    rw [Option.isSome_map, segOf_isSome_iff, or_iff_right h]

theorem segOf_some {b : Byte} {k : Seg} (h : segOf b = some k) : k.val = b.toNat := by
  obtain ⟨_, e⟩ := Option.dite_none_right_eq_some.mp h
  cases e
  rfl

/-- What the catch-all byte says: off, or the segment it names (R33, R186). -/
theorem catchAllOf_some {b : Byte} {o : Option Seg} (h : catchAllOf b = some o) :
    (o = none ↔ b = 0xFF) ∧ ∀ k, o = some k → k.val = b.toNat := by
  unfold catchAllOf at h
  split at h
  · rename_i off
    cases h
    exact ⟨iff_of_true rfl off, nofun⟩
  · rename_i on
    obtain ⟨k, hk, rfl⟩ := Option.map_eq_some_iff.mp h
    exact ⟨iff_of_false nofun on, fun j hj => Option.some.inj hj ▸ segOf_some hk⟩

/-- The bytes of a SET_TIMING that are all in range (R150). -/
abbrev TimingInRange (h st a r o c q : Byte) : Prop :=
  h ≠ 0 ∧ st ≠ 0 ∧ a ≠ 0 ∧ r ≠ 0 ∧ o ≠ 0 ∧ (c = 0xFF ∨ c.toNat < 4) ∧ ∀ n, n < 4 → q.toNat / 4 ^ n % 4 ≠ 3

section
variable {h st a r i o l c q : Byte}

theorem decodeTiming_inRange (valid : TimingInRange h st a r o c q) :
    ∃ catchAll rates, catchAllOf c = some catchAll ∧ ratesOf q = some rates ∧
      decodeTiming [h, st, a, r, i, o, l, c, q] =
        some ⟨h.toNat, st.toNat, a.toNat, r.toNat, i.toNat, o.toNat, l.toNat, catchAll, rates⟩ := by
  obtain ⟨hh, hst, ha, hr, ho, hc, hq⟩ := valid
  obtain ⟨catchAll, seg⟩ := Option.isSome_iff_exists.mp ((catchAllOf_isSome_iff c).mpr hc)
  obtain ⟨rates, rate⟩ := Option.isSome_iff_exists.mp ((ratesOf_isSome_iff q).mpr hq)
  refine ⟨catchAll, rates, seg, rate, ?_⟩
  simp only [decodeTiming, positiveOf_nonzero hh, positiveOf_nonzero hst, positiveOf_nonzero ha, positiveOf_nonzero hr,
    positiveOf_nonzero ho, seg, rate]

theorem decodeTiming_outOfRange (invalid : ¬TimingInRange h st a r o c q) :
    decodeTiming [h, st, a, r, i, o, l, c, q] = none := by
  unfold decodeTiming
  dsimp only
  split
  · rename_i hh hst ha hr ho hc hq
    have nonzero := fun {b : Byte} {n : Nat} (e : positiveOf b = some n) => ((positiveOf_some b n).mp e).1
    exact absurd ⟨nonzero hh, nonzero hst, nonzero ha, nonzero hr, nonzero ho,
      (catchAllOf_isSome_iff c).mp (by rw [hc]; rfl), (ratesOf_isSome_iff q).mp (by rw [hq]; rfl)⟩ invalid
  · rfl

end

/-! ### SET_TIMING (R104, R110, R149) -/

theorem exec_setTiming {tag : Byte} {args : List Byte} {rest : List Command} (hq : s.queues .setTiming tag args rest) :
    exec .setTiming s = .next ((s.taken rest).runSetTiming ⟨.setTiming, tag, args⟩) :=
  congrArg _ (taking_of_queues s hq _)

section
variable (c : Command)

theorem runSetTiming_badField (hc : decodeTiming c.args = none) : s.runSetTiming c = s.answer c .badField := by
  simp only [State.runSetTiming, hc]

theorem runSetTiming_retimes {t : Timing} (hc : decodeTiming c.args = some t) :
    s.runSetTiming c = (s.retime t).answerDone c [] := by
  simp only [State.runSetTiming, hc]

end

section
variable (s : State) (t : Timing)

theorem retime_recAt (i : Slot) : (s.retime t).recAt i = (s.recAt i).map (Record.capHoldOff t.holdOff) := by
  simp [State.retime, State.recAt]

theorem retime_engine (k : Seg) : (s.retime t).engine k = { s.engine k with rate := t.rates.get k } := by
  simp [State.retime, State.engine]

@[simp] theorem retime_aliasIndex : (s.retime t).dir.aliasIndex = s.dir.aliasIndex := by simp [State.retime]

@[simp] theorem retime_frame : (s.retime t).up = { s.up with holdLimit := t.holdLimit, catchAll := t.catchAll } ∧
    (s.retime t).stallLimit = t.stallLimit ∧ (s.retime t).hm = s.hm.retime t ∧ (s.retime t).pool = s.pool ∧
    (s.retime t).pu = s.pu ∧ (s.retime t).au = s.au ∧ (s.retime t).mp = s.mp ∧ (s.retime t).dc = s.dc := by
  simp [State.retime]

end

/-- Settles O35: a byte out of range is refused; else each block takes its settings, and DIR caps the hold-offs. -/
theorem setTimingChangesSettings : Obligations.SetTimingChangesSettings := by
  unfold Obligations.SetTimingChangesSettings
  intro s tag h st a r i o l c q rest hq code valid
  have run := exec_setTiming hq
  refine ⟨fun invalid => ?_, fun inRange => ?_⟩
  · rw [run, runSetTiming_badField _ (decodeTiming_outOfRange invalid)]
    rfl
  obtain ⟨catchAll, rates, seg, rate, decoded⟩ := decodeTiming_inRange (i := i) (l := l) inRange
  rw [runSetTiming_retimes _ decoded] at run
  obtain ⟨off, named⟩ := catchAllOf_some seg
  generalize ht : (⟨_, _, _, _, _, _, _, catchAll, rates⟩ : Timing) = t at run
  have engine := retime_engine (s.taken rest) t
  have records := retime_recAt (s.taken rest) t
  have index := retime_aliasIndex (s.taken rest) t
  obtain ⟨up, stall, hm, pool, pu, au, mp, -⟩ := retime_frame (s.taken rest) t
  generalize (s.taken rest).retime t = u at *
  subst ht
  obtain ⟨upEnd, dirEnd, engEnd, poolEnd, hmEnd, puEnd, stallEnd, -⟩ :=
    concludeWith_frame u ⟨.setTiming, tag, .done, []⟩
  have upNow := upEnd.trans up
  refine ⟨_, run, ?up, ?off, fun k hk => ?segment, stallEnd.trans stall, ?hm, fun k => ?engine, fun j => ?record,
    (congrArg Directory.aliasIndex dirEnd).trans index, poolEnd.trans pool, puEnd.trans pu,
    (concludeWith_au u _).1.trans (congrArg Alerts.changed au), answerDone_last _ _ _, congrArg Port.commands mp⟩
  case up => rw [State.answerDone, upNow]; rfl
  case off => rw [State.answerDone, upNow]; exact off
  case segment => rw [State.answerDone, upNow] at hk; exact named k hk
  case hm =>
    have stops : i.toNat = 0 ↔ i = 0 := BitVec.toNat_inj (y := 0)
    rw [State.answerDone, hmEnd, hm, Health.retime]
    simp only [stops]
    rfl
  case engine =>
    rw [State.answerDone, engine_of_eng engEnd, engine]
    obtain ⟨slow, fast, fastest⟩ := rateOf_some (ratesOf_some rate k)
    exact ⟨rfl, slow, fast, fastest⟩
  case record =>
    rw [State.answerDone, recAt_of_dir dirEnd, records]
    rfl

end Sys2Proof.Machine
end

section
namespace Sys2Proof.Machine

variable {s : State} {i : Slot} {r : Record}

/-! ### The record of an EDIT, part by part (R5, R138, R139) -/

theorem editedFields_inPlace (s : State) (i : Slot) (r : Record) (sel : Selection) :
    InPlace s (s.editedFields i r sel) i (r.select sel) := by
  have put := InPlace.put s i (r.select sel)
  unfold State.editedFields
  split
  · exact put
  · exact { put with rest := put.rest.trans (markChanged_keepsRest _ i) }

/-- A new identity adds the slot to the changed-slot set (R175). -/
theorem editedFields_changed (s : State) (i : Slot) (r : Record) (sel : Selection)
    (h : (r.select sel).identity ≠ r.identity) : (s.editedFields i r sel).au.changed[i.val] = true := by
  unfold State.editedFields
  rw [if_neg h]
  exact markChanged_self _ i

/-- The threshold law quarantines the record, or changes its count in place, or does nothing (R5, R139). -/
theorem applyThreshold_moved (hr : s.recAt i = some r) : ∃ q, Moved s (s.applyThreshold i) i r q := by
  unfold State.applyThreshold
  rw [hr]
  dsimp only
  split
  · split
    · exact ⟨_, (moveRec_lost i _ r hr (by simp [Record.toQuarantined])).1⟩
    · exact ⟨r, .refl hr⟩
  · exact ⟨_, (InPlace.put s i _).moved rfl⟩

theorem applyEdit_moved (s : State) (i : Slot) (r : Record) (sel : Selection) :
    ∃ q, Moved s (s.applyEdit i r sel) i r q := by
  have edited := editedFields_inPlace s i r sel
  rw [applyEdit_eq]
  split
  · obtain ⟨q, moved⟩ := applyThreshold_moved edited.here
    exact ⟨q, .afterInPlace edited rfl rfl moved⟩
  · exact ⟨_, edited.moved rfl⟩

theorem applyEdit_changed (s : State) (i : Slot) (r : Record) (sel : Selection)
    (h : (r.select sel).identity ≠ r.identity) : (s.applyEdit i r sel).au.changed[i.val] = true := by
  have edited := editedFields_changed s i r sel h
  rw [applyEdit_eq]
  split
  · obtain ⟨q, moved⟩ := applyThreshold_moved (editedFields_recAt s i r sel)
    exact moved.rest.changed i edited
  · exact edited

/-- A change that leaves the record's state changes no engine, no queue and nothing of UP. -/
theorem Moved.sameState {m : State} {q : Record} (h : Moved s m i r q) (hs : q.state = r.state) :
    m.eng = s.eng ∧ m.pool = s.pool ∧ m.up = s.up := by
  obtain ⟨request, up⟩ := h.request.untouched fun _ leaves => leaves.2.2 (hs.trans leaves.2.1)
  refine ⟨Quad.ext_get fun k => ?_, h.stays fun leaves => leaves.2.1 (hs.trans leaves.1), up⟩
  by_cases hk : k = r.segment
  · subst hk
    have e := h.engines r.segment
    rw [if_pos rfl, request] at e
    exact e
  · exact h.elsewhere hk

/-! ### EDIT (R5, R138, R139) -/

theorem exec_edit {tag : Byte} {args : List Byte} {rest : List Command} (hq : s.queues .edit tag args rest) :
    exec .edit s = .next ((s.taken rest).runEdit ⟨.edit, tag, args⟩) :=
  congrArg _ (taking_of_queues s hq _)

section
variable (c : Command) {sel : Selection}

theorem runEdit_badField (hc : decodeEdit c.args = none) : s.runEdit c = s.answer c .badField := by
  simp only [State.runEdit, hc]

theorem runEdit_free (hc : decodeEdit c.args = some (i, sel)) (hr : s.recAt i = none) :
    s.runEdit c = s.answer c .slotFree := by
  simp only [State.runEdit, hc, hr]

/-- The checks of an EDIT on the record it names, in their order (R138). -/
theorem runEdit_checked (hc : decodeEdit c.args = some (i, sel)) (hr : s.recAt i = some r) :
    s.runEdit c =
      if s.isProtected i = true then s.answer c .protectedSlot
      else if (r.select sel).frozen = true ∧ (r.select sel).probeReg = none then s.answer c .badField
      else (s.applyEdit i r sel).answerDone c ((s.applyEdit i r sel).stateByte i) := by
  simp only [State.runEdit, hc, hr]

end

/-- The EDIT selects a threshold that the error count of a BOUND record has reached (R139). -/
def Record.editQuarantines (sel : Selection) (r : Record) : Prop :=
  ∃ n, sel.threshold = some n ∧ r.state = .bound ∧ n ≤ r.errorCount

/-- The error count that an EDIT leaves in a record it does not quarantine (R5, R139). -/
def Record.editedCount (sel : Selection) (r : Record) : Nat :=
  if r.state = .bound then r.errorCount
  else match sel.threshold with | some n => min r.errorCount n | none => r.errorCount

theorem applyEdit_quarantined {sel : Selection} (h : r.editQuarantines sel) : (s.applyEdit i r sel).recAt i =
    some { { r.select sel with errorCount := (r.select sel).threshold }.toQuarantined .errors s.hm.holdOff with
      undelivered := moreLost r.undelivered (s.purged r.segment i).length } := by
  obtain ⟨q, hq, cases⟩ := applyEdit_recAt s i r sel
  obtain ⟨n, selected, bound, reached⟩ := h
  have threshold : (r.select sel).threshold = n := by simp [Record.select, selected]
  obtain ⟨-, -, -, e⟩ | ⟨-, below, -⟩ | ⟨unbound, -⟩ := cases
  · rw [hq, e]
  · have := below (by rw [selected]; rfl)
    omega
  · exact absurd bound unbound

theorem applyEdit_counted {sel : Selection} (h : ¬r.editQuarantines sel) : (s.applyEdit i r sel).recAt i =
    some { r.select sel with errorCount := r.editedCount sel } := by
  obtain ⟨q, hq, cases⟩ := applyEdit_recAt s i r sel
  rw [hq]
  obtain ⟨bound, selected, reached, -⟩ | ⟨bound, -, rfl⟩ | ⟨unbound, rfl⟩ := cases
  · obtain ⟨n, hn⟩ := Option.isSome_iff_exists.mp selected
    simp only [Record.select, hn, Option.getD_some] at reached
    exact absurd ⟨n, hn, bound, reached⟩ h
  · rw [Record.editedCount, if_pos bound]
    rfl
  · rw [Record.editedCount, if_neg unbound]
    cases hn : sel.threshold <;> simp [Record.select, hn]

/-- Answering the EDIT leaves what its change of the record leaves, with the command taken. -/
theorem Moved.edited {u : State} {q : Record} {rest : List Command} (h : Moved (s.taken rest) u i r q) (c : Command)
    (results : List Byte) : (u.answerDone c results).recAt i = some q ∧ OtherRecords s (u.answerDone c results) i ∧
    RequestAfter s s.up (u.answerDone c results) r.segment (LeavesFor i r q) False ∧
    (r.state = .bound → q.state ≠ .bound → q.state ≠ .retiring → PurgedOf s (u.answerDone c results) r.segment i) ∧
    (∀ k, k ≠ r.segment → (u.answerDone c results).engine k = s.engine k ∧
      (u.answerDone c results).poolSeg k = s.poolSeg k) ∧
    (u.answerDone c results).engine r.segment =
      { s.engine r.segment with request := ((u.answerDone c results).engine r.segment).request } := by
  obtain ⟨up, dir, eng, pool, -⟩ := concludeWith_frame u ⟨c.kind, c.tag, .done, results⟩
  refine ⟨(recAt_of_dir dir i).trans h.here, fun j hj => (recAt_of_dir dir j).trans (h.others j hj),
    (h.request.ofSame (s := s) rfl).andSame (congrArg Engine.request (engine_of_eng eng _)) up, fun hb hq hret => ?_,
    fun k hk => ⟨(engine_of_eng eng k).trans (h.elsewhere hk), (poolSeg_of_pool pool k).trans (h.queues k hk)⟩, ?_⟩
  · have purged := h.purged hb hq hret
    unfold PurgedOf at purged ⊢
    rw [answerDone_poolSeg]
    exact purged
  · have engine := h.engines r.segment
    rw [if_pos rfl] at engine
    rw [answerDone_engine]
    exact engine

/-- Settles O24: the checks one after the other; then the selected fields, and the threshold law with its effects. -/
theorem editChangesSelectedFields : Obligations.EditChangesSelectedFields := by
  unfold Obligations.EditChangesSelectedFields
  intro s tag args rest hq refused
  have run := exec_edit hq
  refine ⟨fun hn => ?_, fun i sel hd => ⟨fun hr => ?_, fun r hr => ?_⟩⟩
  · rw [run, runEdit_badField _ hn]
    rfl
  · rw [run, runEdit_free (s := s.taken rest) _ hd hr]
    rfl
  intro probeReg frozen quarantines
  rw [runEdit_checked (s := s.taken rest) _ hd hr, taken_isProtected] at run
  refine ⟨fun hp => ?_, fun hp hf hn => ?_, fun hp hf => ?_⟩
  · rw [run, if_pos hp]
    rfl
  · rw [run, if_neg (by simp [hp]), if_pos ⟨hf, hn⟩]
    rfl
  have allowed : ¬((r.select sel).frozen = true ∧ (r.select sel).probeReg = none) := fun ⟨on, off⟩ =>
    hf.elim (fun c => Bool.noConfusion (c.symm.trans on)) fun c => c off
  rw [if_neg (by simp [hp]), if_neg allowed] at run
  obtain ⟨q, mv⟩ := applyEdit_moved (s.taken rest) i r sel
  have quarantined : quarantines → _ := fun h => Option.some.inj (mv.here.symm.trans (applyEdit_quarantined h))
  have counted : ¬quarantines → _ := fun h => Option.some.inj (mv.here.symm.trans (applyEdit_counted h))
  have identity := applyEdit_changed (s.taken rest) i r sel
  rw [show ((s.taken rest).applyEdit i r sel).stateByte i = [q.state.code] by rw [State.stateByte, mv.here]] at run
  generalize (s.taken rest).applyEdit i r sel = u at *
  obtain ⟨here, others, request, purged, elsewhere, engine⟩ := mv.edited ⟨.edit, tag, args⟩ [q.state.code]
  obtain ⟨up, dir, eng, pool, hm, pu, stall, -⟩ := concludeWith_frame u ⟨.edit, tag, .done, [q.state.code]⟩
  refine ⟨_, q, run, here, others, ?fields, fun h => ?quarantines, fun h => ?counts, identity, answerDone_last _ _ _,
    congrArg Port.commands mv.rest.mp, (congrArg Directory.aliasIndex dir).trans mv.index, hm.trans mv.rest.hm,
    pu.trans mv.rest.pu, stall.trans mv.rest.stallLimit, mv.rest.lines, mv.rest.faults,
    (congrArg Pool.reservation pool).trans mv.rest.reservation, elsewhere, engine, fun h => ?unmoved⟩
  case fields =>
    by_cases h : quarantines
    · rw [quarantined h]
      rfl
    · rw [counted h]
      rfl
  case quarantines =>
    have ⟨_, _, bound, _⟩ := h
    have e := quarantined h
    have left : q.state = .quarantined := by rw [e]; rfl
    have goes : ∀ w : FwdRequest, LeavesFor i r q w ↔ w.slot = some i := fun w =>
      ⟨fun leaves => leaves.1, fun named => ⟨named, bound, by rw [left]; nofun⟩⟩
    refine ⟨left, ?_, ?_, ?_, ?_, ?_, ?_, ?_, ?_, purged bound (by rw [left]; nofun) (by rw [left]; nofun),
      request.congr fun w _ => goes w, mv.changed (by rw [left, bound]; nofun)⟩
    all_goals rw [e]; rfl
  case counts =>
    have e := counted h
    refine ⟨?_, ?_, ?_, ?_, ?_, ?_, ?_, ?_, ?_⟩
    all_goals rw [e]; rfl
  case unmoved =>
    obtain ⟨eng', pool', up'⟩ := mv.sameState (by rw [counted h]; rfl)
    exact ⟨eng.trans eng', pool.trans pool', up.trans up'⟩

end Sys2Proof.Machine
end

section
namespace Sys2Proof.Machine

/-! ### What protection keeps of a slot (R155, R156)

A slot becomes FREE, changes its place or begins to retire in few operations, and each of those has either found the
slot outside the protected range or ends the retirement of a RETIRING record. Every other operation leaves PU and each
record's place alone, by one lemma per operation in the order of the model. -/

/-- The record `r` has become `q` at the same `aliasAddr`, segment and target, and is not RETIRING unless it was. -/
structure Record.Stays (r q : Record) : Prop where
  aliasAddr : q.aliasAddr = r.aliasAddr
  segment : q.segment = r.segment
  target : q.target = r.target
  retiring : q.state = .retiring → r.state = .retiring

theorem Record.Stays.refl (r : Record) : r.Stays r := ⟨rfl, rfl, rfl, id⟩

theorem Record.Stays.trans {r q p : Record} (h : r.Stays q) (g : q.Stays p) : r.Stays p :=
  ⟨g.aliasAddr.trans h.aliasAddr, g.segment.trans h.segment, g.target.trans h.target, h.retiring ∘ g.retiring⟩

/-- What may become of a protected slot: a FREE one stays FREE, and a record that is not RETIRING stays. Of a RETIRING
record nothing is said: R156 keeps it out of the protected range. -/
inductive SlotGuarded : Option Record → Option Record → Prop
  | free : SlotGuarded none none
  | stays {r q : Record} (h : r.Stays q) : SlotGuarded (some r) (some q)
  | retiring {r : Record} {o : Option Record} (h : r.state = .retiring) : SlotGuarded (some r) o

theorem SlotGuarded.refl (o : Option Record) : SlotGuarded o o := by
  cases o with
  | none => exact .free
  | some r => exact .stays (.refl r)

theorem SlotGuarded.trans {o p q : Option Record} (h : SlotGuarded o p) (g : SlotGuarded p q) : SlotGuarded o q := by
  cases h with
  | free => exact g
  | stays h =>
    cases g with
    | stays g => exact .stays (h.trans g)
    | retiring g => exact .retiring (h.retiring g)
  | retiring h => exact .retiring h

/-- A record changed by a function that lets it stay. -/
theorem SlotGuarded.map (o : Option Record) (f : Record → Record) (hf : ∀ r, o = some r → r.Stays (f r)) :
    SlotGuarded o (o.map f) := by
  cases o with
  | none => exact .free
  | some r => exact .stays (hf r rfl)

/-- From `s` to `u` PU and the command queue are the same, and protection has kept every protected slot. -/
structure Guards (s u : State) : Prop where
  pu : u.pu = s.pu
  commands : u.mp.commands = s.mp.commands
  slots : ∀ i, s.isProtected i = true → SlotGuarded (s.recAt i) (u.recAt i)

theorem Guards.refl (s : State) : Guards s s := ⟨rfl, rfl, fun _ _ => .refl _⟩

variable {s u t : State} {i : Slot} {r q : Record}

theorem Guards.trans (h : Guards s u) (g : Guards u t) : Guards s t :=
  ⟨g.pu.trans h.pu, g.commands.trans h.commands,
    fun i hi => (h.slots i hi).trans (g.slots i ((isProtected_of_pu h.pu i).trans hi))⟩

/-- A change of the other blocks, of whatever kind. -/
theorem Guards.kept (h : Guards s u) (dir : t.dir = u.dir) (pu : t.pu = u.pu)
    (commands : t.mp.commands = u.mp.commands) : Guards s t :=
  h.trans ⟨pu, commands, fun i _ => recAt_of_dir dir i ▸ .refl _⟩

/-- Every record changes by a function that lets it stay. -/
theorem Guards.mapped (h : Guards s u) (f : Slot → Record → Record) (records : ∀ i, t.recAt i = (u.recAt i).map (f i))
    (stays : ∀ i r, u.recAt i = some r → r.Stays (f i r)) (pu : t.pu = u.pu)
    (commands : t.mp.commands = u.mp.commands) : Guards s t :=
  h.trans ⟨pu, commands, fun i _ => records i ▸ .map _ _ (stays i)⟩

/-- The record of one slot changes and stays. -/
theorem Guards.inSlot (h : Guards s u) (hr : u.recAt i = some r) (hq : t.recAt i = some q) (stays : r.Stays q)
    (others : OtherRecords u t i) (pu : t.pu = u.pu) (commands : t.mp.commands = u.mp.commands) : Guards s t := by
  refine h.trans ⟨pu, commands, fun j _ => ?_⟩
  by_cases here : j = i
  · rw [here, hr, hq]
    exact .stays stays
  · rw [others j here]
    exact .refl _

/-- Anything may become of a slot that is not protected. -/
theorem Guards.unprotected (h : Guards s u) (outside : u.isProtected i = false) (others : OtherRecords u t i)
    (pu : t.pu = u.pu) (commands : t.mp.commands = u.mp.commands) : Guards s t := by
  refine h.trans ⟨pu, commands, fun j hj => ?_⟩
  have elsewhere : j ≠ i := fun here => Bool.noConfusion ((here ▸ hj).symm.trans outside)
  rw [others j elsewhere]
  exact .refl _

/-! #### Claims, purges and records that change or go (R11, R12, R87) -/

theorem Guards.putRec (h : Guards s u) (hr : u.recAt i = some r) (stays : r.Stays q) : Guards s (u.putRec i (some q)) :=
  h.inSlot hr (recAt_putRec_self ..) stays (putRec_others u i _) rfl rfl

theorem Guards.modRec (h : Guards s u) (i : Slot) (f : Record → Record) (stays : ∀ r : Record, r.Stays (f r)) :
    Guards s (u.modRec i f) := by
  unfold State.modRec
  split
  · rename_i r hr
    exact h.putRec hr (stays r)
  · exact h

theorem Guards.undeliveredClaims (h : Guards s u) (es : List Entry) : Guards s (u.undeliveredClaims es) :=
  h.mapped _ (undeliveredClaims_recAt u es) (fun _ _ _ => ⟨rfl, rfl, rfl, id⟩) (by simp) (by simp)

theorem Guards.undeliveredClaim (h : Guards s u) (i : Slot) : Guards s (u.undeliveredClaim i) :=
  h.undeliveredClaims [⟨i, [], false⟩]

theorem Guards.purge (h : Guards s u) (k : Seg) (covers : Entry → Bool) : Guards s (u.purge k covers) :=
  Guards.undeliveredClaims (u := u.modPool k fun p => { p with
      queue := u.busEntries k ++ (u.waitingEntries k).filter fun e => !covers e
      purgeMark := p.purgeMark || (u.busEntries k).any covers }) (h.kept rfl rfl rfl) _

theorem freeSlot_others (s : State) (i : Slot) : OtherRecords s (s.freeSlot i) i := fun j hj => by
  rw [freeSlot_recAt, if_neg (Ne.symm hj)]

theorem Guards.freeUnprotected (h : Guards s u) (outside : u.isProtected i = false) : Guards s (u.freeSlot i) :=
  h.unprotected outside (freeSlot_others u i) (by simp) (by simp)

/-- A retirement frees its slot whatever the range is (R24). -/
theorem Guards.freeRetiring (h : Guards s u) (hr : u.recAt i = some r) (retiring : r.state = .retiring) :
    Guards s (u.freeSlot i) := by
  refine h.trans ⟨by simp, by simp, fun j _ => ?_⟩
  by_cases here : j = i
  · rw [here, hr]
    exact .retiring retiring
  · rw [freeSlot_others u i j here]
    exact .refl _

theorem Guards.retireCheck (h : Guards s u) (i : Slot) : Guards s (u.retireCheck i) := by
  unfold State.retireCheck
  split
  · rename_i r hr
    split
    · rename_i ends
      exact h.freeRetiring hr ends.1
    · exact h
  · exact h

theorem Guards.retireChecks (h : Guards s u) (es : List Entry) : Guards s (u.retireChecks es) := by
  induction es generalizing u with
  | nil => exact h
  | cons e rest ih => exact ih (h.retireCheck e.slot)

theorem Guards.purgeAndRetire (h : Guards s u) (k : Seg) (covers : Entry → Bool) :
    Guards s (u.purgeAndRetire k covers) := (h.purge k covers).retireChecks _

theorem Guards.moveRec (h : Guards s u) (i : Slot) (f : Record → Record) (stays : ∀ r : Record, r.Stays (f r)) :
    Guards s (u.moveRec i f) := by
  cases hr : u.recAt i with
  | none =>
    have unmoved : u.moveRec i f = u := by simp [State.moveRec, hr]
    rw [unmoved]
    exact h
  | some r =>
    refine h.inSlot hr (moveRec_recAt u i f r hr) ?_ (moveRec_others u i f) (by simp) (by simp)
    obtain ⟨aliasAddr, segment, target, retiring⟩ := stays r
    exact ⟨aliasAddr, segment, target, retiring⟩

theorem Record.stays_toBound (r : Record) : r.Stays r.toBound := ⟨rfl, rfl, rfl, fun e => RecState.noConfusion e⟩

theorem Guards.charge (h : Guards s u) (i : Slot) : Guards s (u.charge i) := by
  unfold State.charge
  split
  · rename_i r hr
    split
    · split
      · exact h.moveRec i _ fun _ => ⟨rfl, rfl, rfl, nofun⟩
      · exact h.putRec hr ⟨rfl, rfl, rfl, id⟩
    · exact h
  · exact h

theorem Record.stays_usedClaim (r : Record) : r.Stays (if r.state = .bound then { r with used := true } else r) := by
  split <;> exact ⟨rfl, rfl, rfl, id⟩

theorem Guards.usedClaim (h : Guards s u) (i : Slot) : Guards s (u.usedClaim i) := h.modRec i _ Record.stays_usedClaim

theorem Guards.clearMarker (h : Guards s u) (i : Slot) : Guards s (u.clearMarker i) :=
  h.modRec i _ fun _ => ⟨rfl, rfl, rfl, id⟩

/-- The expiry claim asks for the protection itself (R26). -/
theorem Guards.absenceExpiry (h : Guards s u) (i : Slot) : Guards s (u.absenceExpiry i) := by
  unfold State.absenceExpiry
  split
  · rename_i r hr
    split
    · rename_i expires
      obtain ⟨-, -, outside⟩ := expires
      split
      · exact h.freeUnprotected outside
      · exact h.putRec hr ⟨rfl, rfl, rfl, id⟩
    · exact h
  · exact h

theorem Guards.afterEnd (h : Guards s u) (i : Slot) : Guards s (u.afterEnd i) := by
  have checked := h.retireCheck i
  unfold State.afterEnd
  dsimp only
  split
  · rename_i r hr
    split
    · refine Guards.absenceExpiry (checked.putRec hr ?_) i
      exact ⟨rfl, rfl, rfl, id⟩
    · exact checked
  · exact checked

theorem Record.stays_failedReprobe (n : Nat) (o : ProbeOutcome) (r : Record) : r.Stays (r.failedReprobe n o) := by
  unfold Record.failedReprobe
  dsimp only
  split
  · exact ⟨rfl, rfl, rfl, nofun⟩
  · exact ⟨rfl, rfl, rfl, id⟩

theorem Guards.reprobeFailed (h : Guards s u) (i : Slot) (r : Record) (o : ProbeOutcome) :
    Guards s (u.reprobeFailed i r o) := by
  unfold State.reprobeFailed
  split
  · exact h.moveRec i _ (Record.stays_failedReprobe _ o)
  · exact h.modRec i _ (Record.stays_failedReprobe _ o)

theorem Guards.storeIdentity (h : Guards s u) (i : Slot) (byte : Option Byte) : Guards s (u.storeIdentity i byte) := by
  unfold State.storeIdentity
  split
  · rename_i r hr
    split
    · exact h
    · have stored := fun (b : Byte) => h.putRec (q := { r with identity := some b }) hr ⟨rfl, rfl, rfl, id⟩
      exact (stored _).kept rfl rfl rfl
  · exact h

/-- R17's table moves a record between BOUND, QUARANTINED and ABSENT alone. -/
theorem Guards.applyOutcome (h : Guards s u) (i : Slot) (r : Record) (o : ProbeOutcome) (byte : Option Byte) :
    Guards s (u.applyOutcome i r o byte) := by
  unfold State.applyOutcome
  split
  · exact h.storeIdentity i byte
  · exact h
  · exact (h.moveRec i _ fun r => r.stays_toBound).storeIdentity i byte
  · exact h.reprobeFailed i r _
  · exact h
  · exact h.moveRec i _ fun _ => ⟨rfl, rfl, rfl, nofun⟩
  · exact h.reprobeFailed i r _
  · exact h
  · exact h
  · exact h.moveRec i _ fun _ => ⟨rfl, rfl, rfl, nofun⟩

theorem createRec_others (s : State) (i : Slot) (r : Record) : OtherRecords s (s.createRec i r) i := fun j hj => by
  rw [createRec_recAt, if_neg (Ne.symm hj)]

theorem Guards.createRec (h : Guards s u) (outside : u.isProtected i = false) (r : Record) :
    Guards s (u.createRec i r) :=
  h.unprotected outside (createRec_others u i r) rfl rfl

/-! #### Probe requests, and buses that are left (R58, R69 to R71, R96) -/

theorem Record.stays_holdOff (n : Nat) (r : Record) :
    r.Stays (if r.state = .quarantined then { r with holdOff := n } else r) := by
  split <;> exact ⟨rfl, rfl, rfl, id⟩

theorem Guards.refuseProbe (h : Guards s u) (i : Slot) : Guards s (u.refuseProbe i) :=
  (h.modRec i _ (Record.stays_holdOff u.hm.holdOff)).kept rfl rfl rfl

theorem Guards.refuseProbes (h : Guards s u) (es : List Slot) : Guards s (u.refuseProbes es) := by
  induction es generalizing u with
  | nil => exact h
  | cons i rest ih => exact ih (h.refuseProbe i)

theorem Guards.requestProbe (h : Guards s u) (i : Slot) : Guards s (u.requestProbe i) := by
  unfold State.requestProbe
  split
  · split
    · exact h.refuseProbe i
    · exact h.kept rfl rfl rfl
  · exact h

theorem Guards.requestProbes (h : Guards s u) (es : List Slot) : Guards s (u.requestProbes es) := by
  induction es generalizing u with
  | nil => exact h
  | cons i rest ih => exact ih (h.requestProbe i)

theorem Guards.releaseBus (h : Guards s u) (k : Seg) : Guards s (u.releaseBus k) := h.kept (by simp) (by simp) (by simp)

theorem Guards.enterRecovering (h : Guards s u) (k : Seg) : Guards s (u.enterRecovering k) := h.kept rfl rfl rfl

theorem Guards.enterFailed (h : Guards s u) (k : Seg) : Guards s (u.enterFailed k) := by
  have failing : Guards s ((u.failing k).withdraw k .standIn) :=
    h.kept (by simp [State.failing]) (by simp [State.failing]) (by simp [State.failing])
  have emptied : Guards s (u.failedEmptied k) := failing.purgeAndRetire k _
  have dropped : Guards s ((u.failedEmptied k).modEngine k fun e => { e with probeQueue := [] }) :=
    emptied.kept rfl rfl rfl
  have refused : Guards s (u.failedRefused k) := dropped.refuseProbes _
  rw [enterFailed_eq]
  exact refused.kept (by simp) (by simp) (by simp)

theorem Guards.attemptFails (h : Guards s u) (k : Seg) : Guards s (u.attemptFails k) := by
  unfold State.attemptFails
  dsimp only
  split
  · exact h.kept rfl rfl rfl
  · have counted := fun f => h.kept (t := u.modEngine k f) rfl rfl rfl
    exact (counted _).enterFailed k

theorem Guards.attemptSucceeds (h : Guards s u) (k : Seg) : Guards s (u.attemptSucceeds k) := by
  have freed : Guards s (u.recovered k) := h.kept rfl rfl rfl
  rw [attemptSucceeds_eq]
  split
  · exact freed.kept (by simp) (by simp) (by simp)
  · split
    · have idle : Guards s (((u.recovered k).modEngine k fun e =>
          { e with state := .idle, resumeWaiting := false }).answerResume k .done) := freed.kept rfl rfl rfl
      exact idle.requestProbes _
    · exact freed.kept rfl rfl rfl

/-! #### The ends of events (R54, R132) -/

/-- The arbiters set markers alone. -/
theorem OnlyArbiters.guards (h : OnlyArbiters u t) : Guards u t := by
  obtain ⟨records, -, -, -, -, -, -, -, -, -, -, mp, pu, -⟩ := h
  refine ⟨pu, congrArg Port.commands mp, fun i _ => ?_⟩
  have same := records i
  cases hr : u.recAt i with
  | none =>
    rw [hr] at same
    rw [Option.map_eq_none_iff.mp same]
    exact .free
  | some r =>
    rw [hr] at same
    obtain ⟨q, hq, e⟩ := Option.map_eq_some_iff.mp same
    rw [hq, Record.eq_of_unmarked e]
    exact .stays ⟨rfl, rfl, rfl, id⟩

theorem Guards.arbitrateAll (h : Guards s u) (low : LowLines) : Guards s (u.arbitrateAll low) :=
  h.trans (arbitrateAll_onlyArbiters u low).guards

theorem Guards.conclude (h : Guards s u) : Guards s u.conclude := h.kept rfl rfl rfl

theorem Guards.settle (h : Guards s u) (low : LowLines) : Guards s (u.settle low) := (h.arbitrateAll low).conclude

theorem Guards.answer (h : Guards s u) (c : Command) (code : ResultCode) : Guards s (u.answer c code) :=
  h.kept rfl rfl rfl

theorem Guards.answerDone (h : Guards s u) (c : Command) (results : List Byte) : Guards s (u.answerDone c results) :=
  h.kept rfl rfl rfl

theorem Guards.settleDone (h : Guards s u) (low : LowLines) (c : Command) (results : List Byte) :
    Guards s (u.settleDone low c results) := (h.arbitrateAll low).answerDone c results

end Sys2Proof.Machine
end

section
namespace Sys2Proof.Machine

variable {s u t : State}

/-! #### The upstream port (R30 to R49) -/

theorem Guards.requestEndOpen (h : Guards s u) : Guards s u.requestEndOpen := h.kept (by simp) (by simp) (by simp)

theorem Guards.dropRequest (h : Guards s u) : Guards s u.dropRequest := by
  unfold State.dropRequest
  split <;> exact h.kept rfl rfl rfl

theorem Guards.leaveTransaction (h : Guards s u) : Guards s u.leaveTransaction := h.kept rfl rfl rfl

theorem Guards.commit (h : Guards s u) : Guards s u.commit := by
  have released : Guards s u.releaseReservation := h.kept rfl rfl rfl
  unfold State.commit
  split
  · split
    · exact h.kept rfl rfl rfl
    · split
      · exact released.undeliveredClaim _
      · exact released
  · exact released

theorem Guards.closeForStop (h : Guards s u) : Guards s u.closeForStop := by
  unfold State.closeForStop
  split
  · exact h.commit.leaveTransaction
  · exact h.dropRequest.requestEndOpen.leaveTransaction

theorem Guards.closeForRestart (h : Guards s u) (cut : Bool) : Guards s (u.closeForRestart cut) := by
  unfold State.closeForRestart
  split
  · exact h.commit.leaveTransaction
  · split
    · split
      · exact h.leaveTransaction
      · exact h.requestEndOpen.leaveTransaction
    · exact h.dropRequest.leaveTransaction
  · exact h.requestEndOpen.leaveTransaction

theorem Guards.abandonOpen (h : Guards s u) : Guards s u.abandonOpen := h.requestEndOpen.kept rfl rfl rfl

theorem Guards.resolveRefused (h : Guards s u) : Guards s u.resolveRefused := h.abandonOpen.kept rfl rfl rfl

theorem Guards.resolveStandIn (h : Guards s u) (a : Addr) (d : Dir) (i : Slot) (r : Record) :
    Guards s (u.resolveStandIn a d i r) :=
  h.abandonOpen.kept (by simp [State.resolveStandIn]) (by simp [State.resolveStandIn]) (by simp [State.resolveStandIn])

theorem Guards.resolveCarried (h : Guards s u) (mode : UpMode) (a : Addr) (d : Dir) (k : Seg) (slot : Option Slot)
    (target : Addr) (answer : Option Answer) : Guards s (u.resolveCarried mode a d k slot target answer) := by
  unfold State.resolveCarried
  dsimp only
  split
  · exact h.kept rfl rfl rfl
  · exact h.abandonOpen.kept rfl rfl rfl

theorem Guards.resolveRecord (h : Guards s u) (a : Addr) (d : Dir) (i : Slot) (r : Record) :
    Guards s (u.resolveRecord a d i r) := by
  unfold State.resolveRecord
  split
  · split
    · exact h.abandonOpen.kept rfl rfl rfl
    · split
      · exact h.resolveCarried _ a d _ _ _ _
      · exact h.resolveStandIn a d i r
  · exact h.resolveStandIn a d i r

theorem Guards.resolveUnknown (h : Guards s u) (a : Addr) (d : Dir) : Guards s (u.resolveUnknown a d) := by
  unfold State.resolveUnknown
  split
  · split
    · exact h.resolveCarried _ a d _ _ _ _
    · exact h.resolveRefused
  · exact h.resolveRefused

theorem Guards.resolve (h : Guards s u) (a : Addr) (d : Dir) : Guards s (u.resolve a d) := by
  have noticed : Guards s (u.setHm u.hm.notice) := h.kept rfl rfl rfl
  unfold State.resolve
  dsimp only
  split
  · exact noticed.resolveRefused
  · split
    · split
      · exact noticed.resolveRecord a d _ _
      · exact noticed.resolveUnknown a d
    · exact noticed.resolveUnknown a d

/-- A byte of the master moves UP and the engine that carries it, in every phase and mode. -/
theorem Guards.takeByte (h : Guards s u) (b : Byte) : Guards s (u.takeByte b) := by
  unfold State.takeByte State.carryByte
  repeat' split
  all_goals exact h.kept rfl rfl rfl

/-- The master's answer, too, is for UP and the engine alone. -/
theorem Guards.takeReadAnswer (h : Guards s u) (ack : Bool) : Guards s (u.takeReadAnswer ack) := by
  unfold State.takeReadAnswer State.answerByte
  dsimp only
  repeat' split
  all_goals exact h.kept rfl rfl rfl

theorem Guards.answerAsExpired (h : Guards s u) : Guards s u.answerAsExpired := by
  rw [answerAsExpired_eq]
  exact h.kept rfl rfl rfl

theorem Guards.holdExpiry (h : Guards s u) : Guards s u.holdExpiry := by
  unfold State.holdExpiry
  split
  · exact h.dropRequest.requestEndOpen.answerAsExpired
  · exact h

/-! #### A target's answers and bytes (R36 to R38, R60) -/

theorem Guards.usedByForward (h : Guards s u) (x : Tx) : Guards s (u.usedByForward x) := by
  unfold State.usedByForward
  split
  · exact h.usedClaim _
  · exact h

theorem Guards.stepTx (h : Guards s u) (k : Seg) (x : Tx) : Guards s (u.stepTx k x) := h.kept rfl rfl rfl

theorem Guards.relayAddressAck (h : Guards s u) (k : Seg) (x : Tx) : Guards s (u.relayAddressAck k x) := by
  unfold State.relayAddressAck
  dsimp only
  split <;> exact h.kept rfl rfl rfl

theorem Guards.forwardAddressAnswer (h : Guards s u) (k : Seg) (x : Tx) (ack : Bool) :
    Guards s (u.forwardAddressAnswer k x ack) := by
  have used := fun y => (h.usedByForward x).stepTx k y
  unfold State.forwardAddressAnswer
  split
  · split
    · exact used _
    · exact h.stepTx k _
  · split
    · dsimp only
      split
      · exact (used _).relayAddressAck k x
      · exact used _
    · dsimp only
      split <;> exact h.kept rfl rfl rfl

theorem Guards.sendNext (h : Guards s u) (k : Seg) (x : Tx) (n : Nat) : Guards s (u.sendNext k x n) := by
  unfold State.sendNext
  split
  · split <;> exact h.stepTx k _
  · exact h

theorem Guards.addressAnswer (h : Guards s u) (k : Seg) (ack : Bool) : Guards s (u.addressAnswer k ack) := by
  unfold State.addressAnswer
  split
  · split
    · split
      · exact h.forwardAddressAnswer k _ ack
      · exact h.forwardAddressAnswer k _ ack
      · split
        · exact h.sendNext k _ 0
        · exact h.stepTx k _
      · exact h
      · exact h
      · exact h
    · exact h
  · exact h

/-- A written byte's answer steps the transaction, and UP where it relays. -/
theorem Guards.byteAnswer (h : Guards s u) (k : Seg) (ack : Bool) : Guards s (u.byteAnswer k ack) := by
  unfold State.byteAnswer State.forwardByteAnswer State.sendNext
  dsimp only
  repeat' split
  all_goals exact h.kept rfl rfl rfl

/-- So does a byte read. -/
theorem Guards.byteArrives (h : Guards s u) (k : Seg) (b : Byte) : Guards s (u.byteArrives k b) := by
  unfold State.byteArrives
  dsimp only
  repeat' split
  all_goals exact h.kept rfl rfl rfl

/-! #### Transactions that end (R17, R63 to R68, R82 to R86) -/

theorem Guards.forwardOver (h : Guards s u) (slot : Option Slot) (charged : Bool) :
    Guards s (u.forwardOver slot charged) := by
  unfold State.forwardOver
  split
  · rename_i i
    have cleared := h.clearMarker i
    refine Guards.afterEnd ?_ i
    split
    · exact cleared.charge i
    · exact cleared
  · exact h

theorem Guards.deliveryOver (h : Guards s u) (k : Seg) (i : Slot) (lost charged : Bool) :
    Guards s (u.deliveryOver k i lost charged) := by
  have off : Guards s ((u.removeHead k).clearTx k) := h.kept rfl rfl rfl
  have cleared := off.clearMarker i
  have claimed : Guards s (if lost then (((u.removeHead k).clearTx k).clearMarker i).undeliveredClaim i
      else (((u.removeHead k).clearTx k).clearMarker i).usedClaim i) := by
    split
    · exact cleared.undeliveredClaim i
    · exact cleared.usedClaim i
  refine Guards.afterEnd ?_ i
  split
  · exact claimed.charge i
  · exact claimed

theorem Guards.deliveryCut (h : Guards s u) (k : Seg) (i : Slot) : Guards s (u.deliveryCut k i) := by
  unfold State.deliveryCut
  split
  · split
    · exact h.deliveryOver k i true false
    · have again := fun f => h.kept (t := (u.modPool k f).clearTx k) rfl rfl rfl
      exact ((again _).clearMarker i).afterEnd i
  · have off : Guards s (u.clearTx k) := h.kept rfl rfl rfl
    exact off.clearMarker i

theorem Guards.clearProbeMarker (h : Guards s u) (x : Tx) (i : Slot) : Guards s (u.clearProbeMarker x i) := by
  unfold State.clearProbeMarker
  split
  · exact h.clearMarker i
  · exact h

theorem Guards.answerBusProbes (h : Guards s u) (i : Slot) (o : ProbeOutcome) (byte : Option Byte) :
    Guards s (u.answerBusProbes i o byte) := by
  unfold State.answerBusProbes
  split
  · exact h.kept rfl rfl rfl
  · exact h

theorem Guards.probeOver (h : Guards s u) (k : Seg) (x : Tx) (i : Slot) (answer : ProbeAnswer) :
    Guards s (u.probeOver k x i answer) := by
  have cleared := h.clearProbeMarker x i
  unfold State.probeOver
  dsimp only
  split
  · split
    · exact ((cleared.applyOutcome i _ _ _).answerBusProbes i _ _).afterEnd i
    · exact cleared.afterEnd i
  · exact cleared

theorem Guards.probeCut (h : Guards s u) (k : Seg) (x : Tx) (i : Slot) : Guards s (u.probeCut k x i) := by
  have off := (h.clearProbeMarker x i).afterEnd i
  unfold State.probeCut
  dsimp only
  split
  · split
    · exact off.kept rfl rfl rfl
    · exact off
  · exact off

/-- DIR creates a discovered record in an unprotected slot alone (R16). -/
theorem Guards.creation (h : Guards s u) (k : Seg) (a b : Addr) :
    Guards s ((u.judgeCreation k a b).records k a b u) := by
  unfold State.judgeCreation
  split
  · exact h
  · split
    · exact h
    · split
      · exact h
      · rename_i i hi
        obtain ⟨⟨-, outside⟩, -⟩ := (lowestFree_eq_some_iff u i).mp hi
        exact h.createRec outside _

theorem Guards.putDiscovery (h : Guards s u) (k : Seg) (d : Discovery) : Guards s (u.putDiscovery k d) :=
  h.kept rfl rfl rfl

theorem Guards.endDiscovery (h : Guards s u) (k : Seg) (code : ResultCode) : Guards s (u.endDiscovery k code) :=
  h.kept (by simp) (by simp) (by simp)

theorem Guards.afterAddress (h : Guards s u) (k : Seg) (d : Discovery) : Guards s (u.afterAddress k d) := by
  have put := h.putDiscovery k d
  unfold State.afterAddress
  dsimp only
  split
  · exact put.endDiscovery k _
  · split
    · exact put.endDiscovery k _
    · exact put

theorem Guards.discoveryProbeOver (h : Guards s u) (k : Seg) (a : Addr) (found : Bool) :
    Guards s (u.discoveryProbeOver k a found) := by
  unfold State.discoveryProbeOver
  split
  · exact h
  · rename_i d _
    split
    · have created := h.creation k a (d.aliasOf a)
      unfold State.deviceFound
      dsimp only
      split
      · exact (created.putDiscovery k _).endDiscovery k _
      · exact created.afterAddress k _
    · exact h.afterAddress k _

theorem Guards.discoveryCut (h : Guards s u) (k : Seg) : Guards s (u.discoveryCut k) := by
  unfold State.discoveryCut
  split
  · exact h
  · dsimp only
    split
    · exact (h.putDiscovery k _).endDiscovery k _
    · exact h.putDiscovery k _

theorem Guards.forwardLost (h : Guards s u) (k : Seg) (x : Tx) : Guards s (u.forwardLost k x) := by
  rw [forwardLost_eq]
  exact h.kept rfl rfl rfl

/-! #### Events of the segment buses -/

theorem Guards.endForward (h : Guards s u) (k : Seg) (low : LowLines) : Guards s (u.endForward k low) := by
  unfold State.endForward
  split
  · split
    · rw [closeDownstream_eq]
      have closed := fun v => h.kept (t := u.setUp v) rfl rfl rfl
      exact (((closed _).forwardOver _ _).releaseBus k).settle low
    · exact h
  · exact h

theorem Guards.endDelivery (h : Guards s u) (k : Seg) (o : DeliveryEnd) (low : LowLines) :
    Guards s (u.endDelivery k o low) := by
  unfold State.endDelivery
  split
  · split
    · exact ((h.deliveryOver k _ _ _).releaseBus k).settle low
    · exact h
  · exact h

theorem Guards.endProbe (h : Guards s u) (k : Seg) (answer : ProbeAnswer) (low : LowLines) :
    Guards s (u.endProbe k answer low) := by
  unfold State.endProbe
  split
  · split
    · split
      · exact ((h.probeOver k _ _ answer).releaseBus k).settle low
      · exact h
    · exact h
  · exact h

theorem Guards.endDiscoveryProbe (h : Guards s u) (k : Seg) (found : Bool) (low : LowLines) :
    Guards s (u.endDiscoveryProbe k found low) := by
  unfold State.endDiscoveryProbe
  split
  · split
    · exact ((h.discoveryProbeOver k _ found).releaseBus k).settle low
    · exact h
  · exact h

theorem Guards.stallOver (h : Guards s u) (k : Seg) (x : Tx) : Guards s (u.stallOver k x) := by
  have lost := h.forwardLost k x
  unfold State.stallOver
  split
  · exact lost.forwardOver _ true
  · exact lost.forwardOver _ true
  · split
    · exact h.deliveryOver k _ true true
    · exact h
  · split
    · exact h.probeOver k x _ _
    · exact h
  · split
    · exact h.probeOver k x _ _
    · exact h
  · exact h.discoveryProbeOver k _ false

theorem Guards.takeStall (h : Guards s u) (k : Seg) (low : LowLines) : Guards s (u.takeStall k low) := by
  unfold State.takeStall
  split
  · split
    · exact (h.releaseBus k).settle low
    · exact ((h.stallOver k _).enterRecovering k).conclude
  · exact h

theorem Guards.clockHeld (h : Guards s u) (k : Seg) : Guards s (u.clockHeld k) := by
  rcases clockHeld_cases u k with e | ⟨-, -, e⟩ <;> rw [e]
  · exact h
  · exact h.kept rfl rfl rfl

theorem Guards.cutOver (h : Guards s u) (k : Seg) (x : Tx) : Guards s (u.cutOver k x) := by
  have lost := h.forwardLost k x
  unfold State.cutOver
  split
  · exact lost.forwardOver _ false
  · exact lost.forwardOver _ false
  · split
    · exact h.deliveryCut k _
    · exact h
  · split
    · exact h.probeCut k x _
    · exact h
  · split
    · exact h.probeCut k x _
    · exact h
  · exact h.discoveryCut k

theorem Guards.takeFault (h : Guards s u) (k : Seg) : Guards s (u.takeFault k) := by
  unfold State.takeFault
  split
  · split
    · exact h.enterRecovering k
    · exact (h.cutOver k _).enterRecovering k
  · exact h

/-! #### The timers (R101, R107, R112) -/

/-- Every record changes by one function that lets it stay. -/
theorem Guards.mapSlots (h : Guards s u) (f : Record → Record) (stays : ∀ r : Record, r.Stays (f r)) :
    Guards s (u.setDir { u.dir with slots := mapEach (fun o => o.map f) u.dir.slots }) := by
  refine h.mapped (fun _ => f) (fun i => ?_) (fun _ r _ => stays r) (setDir_pu u _) ?_
  · rw [recAt_mapSlots]
  · rw [setDir_mp]

theorem Guards.surveyPass (h : Guards s u) : Guards s u.surveyPass := by
  have asked := h.requestProbes u.surveyed
  have cleared := asked.mapSlots (fun r => { r with used := false }) fun _ => ⟨rfl, rfl, rfl, id⟩
  unfold State.surveyPass State.clearUsed
  exact cleared.kept (setHm_dir ..) (setHm_pu ..) rfl

theorem Guards.holdOffStep (h : Guards s u) (i : Slot) : Guards s (u.holdOffStep i) := by
  unfold State.holdOffStep
  split
  · rename_i r hr
    split
    · have counted : Guards s (u.putRec i (some { r with holdOff := r.holdOff - 1 })) :=
        h.putRec hr ⟨rfl, rfl, rfl, id⟩
      dsimp only
      split
      · exact counted.requestProbe i
      · exact counted
    · exact h
  · exact h

theorem Guards.holdOffSteps (h : Guards s u) (es : List Slot) : Guards s (u.holdOffSteps es) := by
  induction es generalizing u with
  | nil => exact h
  | cons i rest ih => exact ih (h.holdOffStep i)

theorem Guards.absenceSecond (h : Guards s u) (i : Slot) : Guards s (u.absenceSecond i) := by
  unfold State.absenceSecond
  split
  · rename_i r hr
    split
    · have aged : Guards s (u.putRec i (some { r with absenceAge := nextAge r.absenceAge })) :=
        h.putRec hr ⟨rfl, rfl, rfl, id⟩
      dsimp only
      split
      · exact aged.absenceExpiry i
      · exact aged
    · exact h
  · exact h

theorem Guards.absenceSeconds (h : Guards s u) (es : List Slot) : Guards s (u.absenceSeconds es) := by
  induction es generalizing u with
  | nil => exact h
  | cons i rest ih => exact ih (h.absenceSecond i)

end Sys2Proof.Machine
end

section
namespace Sys2Proof.Machine

variable {s u t : State}

/-! #### Commands on records (R136 to R143) -/

theorem Guards.addOp (h : Guards s u) (work : LongWork) (tag : Byte) : Guards s (u.addOp work tag) := h.kept rfl rfl rfl

theorem Guards.runLookup (h : Guards s u) (c : Command) : Guards s (u.runLookup c) := by
  unfold State.runLookup
  split
  · exact h.answer c _
  · split
    · exact h.answer c _
    · split
      · exact h.answer c _
      · exact h.answerDone c _

/-- The slot a BIND uses is not protected (R15). -/
theorem bindSlot_unprotected {f : BindFields} {i : Slot} (hi : u.bindSlot f = .ok i) : u.isProtected i = false := by
  obtain ⟨-, fresh, pair⟩ := bindSlot_ok u f i hi
  have unguarded : ¬u.bindGuarded f := fun g => by
    rw [bindSlot_protected u f g] at hi
    cases hi
  cases hf : f.slot with
  | none =>
    rw [bindSlot_any u f (by simp [fresh]) (by simp [pair]) hf] at hi
    cases hl : u.lowestFree with
    | none => rw [hl] at hi; cases hi
    | some j =>
      rw [hl] at hi
      cases hi
      exact ((lowestFree_eq_some_iff u i).mp hl).1.2
  | some j =>
    rw [bindSlot_named u f j unguarded (by simp [fresh]) (by simp [pair]) hf] at hi
    split at hi
    · cases hi
    · cases hi
      exact Bool.eq_false_iff.mpr fun hp => unguarded ⟨i, hf, hp⟩

theorem Guards.runBind (h : Guards s u) (low : LowLines) (c : Command) : Guards s (u.runBind low c) := by
  unfold State.runBind
  split
  · exact h.answer c _
  · split
    · exact h.answer c _
    · rename_i hi
      exact ((h.createRec (bindSlot_unprotected hi) _).requestProbe _).settleDone low c _

theorem Guards.runEdit (h : Guards s u) (c : Command) : Guards s (u.runEdit c) := by
  unfold State.runEdit
  split
  · exact h.answer c _
  · rename_i i sel _
    split
    · exact h.answer c _
    · rename_i r _
      split
      · exact h.answer c _
      · rename_i outside
        split
        · exact h.answer c _
        · obtain ⟨q, moved⟩ := applyEdit_moved u i r sel
          have edited : Guards s (u.applyEdit i r sel) :=
            h.unprotected (Bool.eq_false_iff.mpr outside) moved.others moved.rest.pu (congrArg _ moved.rest.mp)
          exact edited.answerDone c _

theorem Guards.runRebind (h : Guards s u) (low : LowLines) (c : Command) : Guards s (u.runRebind low c) := by
  unfold State.runRebind
  split
  · exact h.answer c _
  · rename_i i k a _
    split
    · exact h.answer c _
    · rename_i r allowed hr
      obtain ⟨outside, -, -⟩ := (rebindRefusal_none u i k a r hr).mp allowed
      have moved := applyRebind_rebound hr k a
      have rebound : Guards s (u.applyRebind i r k a) :=
        h.unprotected outside moved.others moved.rest.pu (congrArg _ moved.rest.mp)
      exact rebound.settleDone low c _
    · exact h.answer c _

/-- A RETIRE of an unprotected slot retires no other one (R21). -/
theorem Guards.enterRetiring (h : Guards s u) {i : Slot} (outside : u.isProtected i = false) :
    Guards s (u.enterRetiring i) := by
  unfold State.enterRetiring
  split
  · split
    · exact h
    · exact h.unprotected outside (moveRec_others u i _) (by simp) (by simp)
  · exact h

theorem Guards.finishRetire (h : Guards s u) (c : Command) {i : Slot} (outside : u.isProtected i = false)
    (removed : Nat) : Guards s (u.finishRetire c i removed) := by
  unfold State.finishRetire
  split
  · exact h.answerDone c _
  · split
    · exact ((h.enterRetiring outside).addOp _ _).conclude
    · exact (h.freeUnprotected outside).answerDone c _

theorem Guards.runRetire (h : Guards s u) (c : Command) : Guards s (u.runRetire c) := by
  unfold State.runRetire
  split
  · exact h.answer c _
  · rename_i i _ _
    split
    · exact h.answer c _
    · rename_i r _
      split
      · exact h.answer c _
      · rename_i guarded
        have outside := Bool.eq_false_iff.mpr guarded
        have answered : Guards s (u.answerProbes i .retired) := h.kept rfl rfl rfl
        unfold State.applyRetire
        dsimp only
        split
        · have purged := answered.purgeAndRetire r.segment (ofSlot i)
          have pu : ((u.answerProbes i .retired).purgeAndRetire r.segment (ofSlot i)).pu = u.pu := by simp
          exact purged.finishRetire c ((isProtected_of_pu pu i).trans outside) _
        · exact answered.finishRetire c outside 0

theorem Guards.runClearCounts (h : Guards s u) (c : Command) : Guards s (u.runClearCounts c) := by
  unfold State.runClearCounts
  split
  · exact h.answer c _
  · have cleared := h.mapSlots Record.clearCounts fun _ => ⟨rfl, rfl, rfl, id⟩
    exact cleared.answerDone c _
  · split
    · exact h.answer c _
    · have cleared := fun i => h.modRec i Record.clearCounts fun _ => ⟨rfl, rfl, rfl, id⟩
      exact (cleared _).answerDone c _

theorem Guards.runProbe (h : Guards s u) (low : LowLines) (c : Command) : Guards s (u.runProbe low c) := by
  unfold State.runProbe
  split
  · exact h.answer c _
  · split
    · exact h.answer c _
    · split
      · exact h.answer c _
      · split
        · exact h.answer c _
        · have queued := fun k f => h.kept (t := u.modEngine k f) rfl rfl rfl
          exact ((queued _ _).addOp _ _).settle low

/-! #### Commands on segments, settings and alerts (R118 to R124, R146 to R149, R177, R179) -/

theorem Guards.runDiscover (h : Guards s u) (low : LowLines) (c : Command) : Guards s (u.runDiscover low c) := by
  unfold State.runDiscover
  split
  · exact h.answer c _
  · split
    · exact h.answer c _
    · split
      · exact h.answer c _
      · exact ((h.putDiscovery _ _).addOp _ _).settle low

theorem Guards.cancelOn (h : Guards s u) (tag : Byte) (k : Seg) : Guards s (u.cancelOn tag k) := by
  unfold State.cancelOn
  split
  · split
    · split
      · exact h.putDiscovery k _
      · exact h.endDiscovery k _
    · exact h
  · exact h

theorem Guards.runCancel (h : Guards s u) (c : Command) : Guards s (u.runCancel c) := by
  unfold State.runCancel
  split
  · exact h.answer c _
  · split
    · exact ((((h.cancelOn _ 0).cancelOn _ 1).cancelOn _ 2).cancelOn _ 3).answerDone c _
    · exact h.answer c _

theorem Guards.presentPause (h : Guards s u) (c : Command) (k : Seg) : Guards s (u.presentPause c k) := by
  have paused : Guards s (u.enterPaused k) := h.kept (by simp) (by simp) (by simp)
  unfold State.presentPause
  split
  · exact paused.answerDone c _
  · exact h.kept rfl rfl rfl
  · exact h.kept rfl rfl rfl
  · exact h.answerDone c _
  · exact h.answer c _

theorem Guards.runPause (h : Guards s u) (c : Command) : Guards s (u.runPause c) := by
  unfold State.runPause
  split
  · exact h.answer c _
  · split
    · exact h.answer c _
    · exact h.presentPause c _

theorem Guards.presentResume (h : Guards s u) (low : LowLines) (c : Command) (k : Seg) :
    Guards s (u.presentResume low c k) := by
  have changed := fun f => h.kept (t := u.modEngine k f) rfl rfl rfl
  unfold State.presentResume
  split
  · exact (changed _).settleDone low c _
  · exact h.kept rfl rfl rfl
  · exact h.kept rfl rfl rfl
  · exact h.answerDone c _
  · exact h.kept rfl rfl rfl

theorem Guards.runResume (h : Guards s u) (low : LowLines) (c : Command) : Guards s (u.runResume low c) := by
  unfold State.runResume
  split
  · exact h.answer c _
  · split
    · exact h.answer c _
    · exact h.presentResume low c _

theorem Guards.runFlush (h : Guards s u) (low : LowLines) (c : Command) : Guards s (u.runFlush low c) := by
  unfold State.runFlush
  split
  · exact h.answer c _
  · exact (h.purgeAndRetire _ _).settleDone low c _

theorem Guards.runPartition (h : Guards s u) (c : Command) : Guards s (u.runPartition c) := by
  unfold State.runPartition
  split
  · exact h.answer c _
  · split
    · split
      · exact h.kept rfl rfl rfl
      · exact h.answer c _
    · exact h.answer c _

theorem Record.stays_capHoldOff (n : Nat) (r : Record) : r.Stays (r.capHoldOff n) := by
  unfold Record.capHoldOff
  split <;> exact ⟨rfl, rfl, rfl, id⟩

theorem Guards.runSetTiming (h : Guards s u) (c : Command) : Guards s (u.runSetTiming c) := by
  unfold State.runSetTiming
  split
  · exact h.answer c _
  · rename_i times _
    have retimed : Guards s (u.retime times) :=
      h.mapped (fun _ => Record.capHoldOff times.holdOff) (retime_recAt u times) (fun _ r _ => r.stays_capHoldOff _)
        (by simp) (by simp)
    exact retimed.answerDone c _

theorem Guards.runSetAlert (h : Guards s u) (c : Command) : Guards s (u.runSetAlert c) := by
  unfold State.runSetAlert
  split
  · exact h.answer c _
  · exact h.kept rfl rfl rfl

end Sys2Proof.Machine
end

section
namespace Sys2Proof.Machine

variable {s t : State}

/-! ### SET_PROTECT and FIX_PROTECT (R153, R156, R157, R159) -/

theorem retiringBelow_iff (s : State) (code : Fin 8) : s.retiringBelow code = true ↔
    ∃ i r, i.val < protectedCount code ∧ s.recAt i = some r ∧ r.state = .retiring := by
  unfold State.retiringBelow
  rw [List.any_eq_true]
  constructor
  · rintro ⟨i, -, h⟩
    obtain ⟨below, retiring⟩ := Bool.and_eq_true_iff.mp h
    split at retiring
    · rename_i r hr
      exact ⟨i, r, of_decide_eq_true below, hr, beq_iff_eq.mp retiring⟩
    · cases retiring
  · rintro ⟨i, r, below, hr, retiring⟩
    refine ⟨i, mem_allSlots i, ?_⟩
    rw [hr]
    simp [below, retiring]

/-- What a command, or the PROT pin, can set PU to (R157 to R159). -/
inductive ProtectionSet (s : State) : Protection → Prop
  | replaced {code : Fin 8} {lock : Bool} (unfixed : s.pu.fixed = false) (clear : s.retiringBelow code = false) :
      ProtectionSet s { s.pu with code := code, lock := lock }
  | fixed : ProtectionSet s { s.pu with fixed := true }
  | pin (high : Bool) : ProtectionSet s { s.pu with prot := high }

/-- From `s` to `t` PU is set, and the directory and the command queue are the same. -/
structure SetsProtection (s t : State) : Prop where
  dir : t.dir = s.dir
  commands : t.mp.commands = s.mp.commands
  pu : ProtectionSet s t.pu

/-- What an event can do to PU and to the protected slots. -/
def Protects (s t : State) : Prop := Guards s t ∨ SetsProtection s t

theorem runSetProtect_protects (s : State) (c : Command) : Protects s (s.runSetProtect c) := by
  have refused := fun code => (Guards.refl s).answer c code
  unfold State.runSetProtect
  split
  · exact .inl (refused _)
  · split
    · exact .inl (refused _)
    · rename_i unfixed
      split
      · exact .inl (refused _)
      · split
        · exact .inl (refused _)
        · rename_i clear
          exact .inr ⟨rfl, rfl, .replaced (Bool.eq_false_iff.mpr unfixed) (Bool.eq_false_iff.mpr clear)⟩

theorem runFixProtect_protects (s : State) (c : Command) : Protects s (s.runFixProtect c) := by
  unfold State.runFixProtect
  split
  · exact .inl ((Guards.refl s).answer c _)
  · exact .inr ⟨rfl, rfl, .fixed⟩

/-! ### Every event, for PU and the command queue -/

/-- What becomes of the command queue in the event `c` from `s` to `t` (R130, R160, R162, R166). -/
inductive QueueAfter (c : Instr) (s t : State) : List Command → Prop
  | same : QueueAfter c s t s.mp.commands
  | taken {cmd : Command} {rest : List Command} (head : s.mp.commands = cmd :: rest) : QueueAfter c s t rest
  | emptied {bytes : List Byte} {low : LowLines} (restart : c = .restart bytes low) : QueueAfter c s t []
  | pushed {bytes : List Byte} {cmd : Command} (push : c = .push bytes)
      (latch : modifying cmd.kind = true → s.mp.latch = true ∧ t.mp.latch = false) :
      QueueAfter c s t (s.mp.commands ++ [cmd])

/-- The event first changes the command queue, and then sets PU or keeps the protected slots. -/
def Proceeds (c : Instr) (s t : State) : Prop := ∃ queue, QueueAfter c s t queue ∧ Protects (s.taken queue) t

theorem Guards.proceeds {c : Instr} (h : Guards s t) : Proceeds c s t := ⟨_, .same, .inl h⟩

theorem Guards.live {c : Instr} {f : State → State} (h : Guards s (f s)) : Proceeds c s (s.live f) := by
  rcases live_cases s f with e | e <;> rw [e]
  · exact (Guards.refl s).proceeds
  · exact h.proceeds

theorem Guards.timed {f : State → State} (h : Guards s (f s)) : Guards s (s.timed f) := by
  rcases timed_cases s f with e | e <;> rw [e]
  · exact .refl s
  · exact h

theorem proceeds_frame {f : State → State} {c : Instr} (h : Proceeds c s (f s)) : Proceeds c s (s.frame f) := by
  rcases frame_cases s f with e | e | e <;> rw [e]
  · exact (Guards.refl s).proceeds
  · exact Guards.proceeds ((Guards.refl s).kept rfl rfl rfl)
  · exact h

/-- A frame that leaves the directory, PU and the command queue alone. -/
theorem framed_proceeds {c : Instr} {f : State → State} (dir : (f s).dir = s.dir) (pu : (f s).pu = s.pu)
    (commands : (f s).mp.commands = s.mp.commands) : Proceeds c s (s.frame f) :=
  proceeds_frame (((Guards.refl s).kept dir pu commands).proceeds)

/-- DC's meaning of a command acts on the state with the head of the queue taken. -/
theorem taking_proceeds {kind : CmdKind} {c : Instr} {f : Command → State → State} (h : ∀ cmd u, Protects u (f cmd u)) :
    Proceeds c s (s.taking kind f) := by
  rcases taking_cases s kind f with e | ⟨cmd, rest, head, -, e⟩ <;> rw [e]
  · exact (Guards.refl s).proceeds
  · exact ⟨rest, .taken head, h cmd _⟩

theorem taking_guards {kind : CmdKind} {c : Instr} {f : Command → State → State} (h : ∀ cmd u, Guards u (f cmd u)) :
    Proceeds c s (s.taking kind f) := taking_proceeds fun cmd u => .inl (h cmd u)

/-- An accepted PUSH of a modifying command found the latch set and clears it (R160, R166). -/
theorem checkPush_latch {m : Port} {bytes : List Byte} {cmd : Command} (h : m.checkPush bytes = .ok cmd)
    (hm : modifying cmd.kind = true) : m.latch = true := by
  unfold Port.checkPush at h
  split at h
  · cases h
  · split at h
    · cases h
    · split at h
      · cases h
      · split at h
        · cases h
        · split at h
          · cases h
          · rename_i enabled
            split at h
            · cases h
              exact Bool.not_eq_false _ ▸ fun off => enabled ⟨hm, off⟩
            · cases h

theorem runPush_proceeds (s : State) (bytes : List Byte) : Proceeds (.push bytes) s (s.runPush bytes) := by
  unfold State.runPush
  split
  · exact Guards.proceeds ((Guards.refl s).kept rfl rfl rfl)
  · rename_i cmd accepted
    refine ⟨_, .pushed rfl fun hm => ⟨checkPush_latch accepted hm, ?_⟩, .inl ⟨rfl, rfl, fun _ _ => .refl _⟩⟩
    simp [Port.accept, hm]

theorem runPop_guards (s : State) (clocks : Nat) (empty : Bool) : Guards s (s.runPop clocks empty) := by
  have same := Guards.refl s
  unfold State.runPop
  split
  · split
    · exact same.kept rfl rfl rfl
    · split <;> exact same.kept rfl rfl rfl
  · exact same.kept rfl rfl rfl

/-- A restart keeps the records of the protected slots at both levels (R27, R28, R155). -/
theorem restartBlocks_guards (s : State) (level2 : Bool) : Guards (s.taken []) (s.restartBlocks level2) := by
  have pu : (s.restartBlocks level2).pu = s.pu := by
    cases level2 <;> simp [State.restartBlocks, State.restartDir, State.restartPool, State.defaultSettings]
  refine ⟨pu, rfl, fun i hi => ?_⟩
  · rw [restartBlocks_recAt, taken_recAt]
    cases hr : s.recAt i with
    | none =>
      rw [afterRestart_freed s level2 i fun r h => by rw [hr] at h; cases h]
      exact .free
    | some r =>
      by_cases retiring : r.state = .retiring
      · exact .retiring retiring
      · rw [afterRestart_kept s level2 i r hr retiring fun _ => hi]
        exact .stays ⟨rfl, rfl, rfl, id⟩

theorem runRestart_proceeds (s : State) (bytes : List Byte) (low : LowLines) :
    Proceeds (.restart bytes low) s (s.runRestart bytes low) := by
  unfold State.runRestart
  split
  · rename_i level2 _ _
    have shifted : Guards (s.taken []) ((s.setMp { s.mp with mdo := .zeros }).taken []) :=
      (Guards.refl _).kept rfl rfl rfl
    have restarted := shifted.trans (restartBlocks_guards _ level2)
    exact ⟨[], .emptied rfl, .inl ((restarted.requestProbes _).settle low)⟩
  · exact Guards.proceeds ((Guards.refl s).kept rfl rfl rfl)

/-- What every event but a full reset does to the command queue, to PU and to the protected slots. -/
theorem exec_proceeds (c : Instr) (hc : c ≠ .fullReset) (he : exec c s = .next t) : Proceeds c s t := by
  have same := Guards.refl s
  cases c with
  | addressEvent a d low =>
    cases he
    refine Guards.live (Guards.settle (Guards.resolve ?_ a d) low)
    split
    · exact same
    · exact (same.closeForRestart false).arbitrateAll low
  | repeatedStart cut next low =>
    cases he
    have closed := same.closeForRestart cut
    refine Guards.live ?_
    dsimp only
    split
    · exact ((closed.arbitrateAll low).resolve _ _).settle low
    · exact closed.settle low
  | stopCondition low => cases he; exact Guards.live (same.closeForStop.settle low)
  | writeEvent b => cases he; exact Guards.live (same.takeByte b).conclude
  | masterReadAnswer ack => cases he; exact Guards.live (same.takeReadAnswer ack).conclude
  | targetAddressAnswer k ack => cases he; exact Guards.live (same.addressAnswer k ack).conclude
  | targetByteAnswer k ack => cases he; exact Guards.live (same.byteAnswer k ack).conclude
  | readByteArrives k b => cases he; exact Guards.live (same.byteArrives k b).conclude
  | holdLimitExpiry => cases he; exact Guards.live same.holdExpiry.conclude
  | forwardEnd k low => cases he; exact Guards.live (same.endForward k low)
  | deliveryEnd k o low => cases he; exact Guards.live (same.endDelivery k o low)
  | probeEnd k answer low => cases he; exact Guards.live (same.endProbe k answer low)
  | discoveryProbeEnd k found low => cases he; exact Guards.live (same.endDiscoveryProbe k found low)
  | stall k clock =>
    cases he
    refine Guards.live ?_
    cases clock with
    | heldLow => exact same.clockHeld k
    | rises => exact same.kept rfl rfl rfl
    | expires low => exact same.takeStall k low
  | busFault k => cases he; exact Guards.live (same.takeFault k).conclude
  | recoveryAttemptSucceeds k low =>
    cases he
    split
    · exact Guards.proceeds ((same.attemptSucceeds k).settle low)
    · exact same.proceeds
  | recoveryAttemptFails k =>
    cases he
    split
    · exact Guards.proceeds (same.attemptFails k).conclude
    · exact same.proceeds
  | attemptTimerExpiry k =>
    cases he
    split
    · exact Guards.proceeds (same.kept rfl rfl rfl)
    · exact same.proceeds
  | closingEnd k low =>
    cases he
    split
    · exact Guards.proceeds ((same.releaseBus k).settle low)
    · exact same.proceeds
  | surveyTimerExpiry low => cases he; exact Guards.proceeds (Guards.timed (same.surveyPass.settle low))
  | idleTimerExpiry =>
    cases he
    refine Guards.proceeds (Guards.timed ?_)
    split <;> exact same.kept rfl rfl rfl
  | stepTimerExpiry low =>
    cases he
    have started : Guards s (s.setHm { s.hm with stepRun := 0 }) := same.kept rfl rfl rfl
    exact Guards.proceeds (Guards.timed ((started.holdOffSteps allSlots).settle low))
  | secondTimerExpiry =>
    cases he
    have started : Guards s (s.setHm { s.hm with secondRun := 0 }) := same.kept rfl rfl rfl
    exact Guards.proceeds (Guards.timed (started.absenceSeconds allSlots).conclude)
  | lookup => cases he; exact taking_guards fun c u => (Guards.refl u).runLookup c
  | bind low => cases he; exact taking_guards fun c u => (Guards.refl u).runBind low c
  | edit => cases he; exact taking_guards fun c u => (Guards.refl u).runEdit c
  | rebind low => cases he; exact taking_guards fun c u => (Guards.refl u).runRebind low c
  | retire => cases he; exact taking_guards fun c u => (Guards.refl u).runRetire c
  | clearCounts => cases he; exact taking_guards fun c u => (Guards.refl u).runClearCounts c
  | probe low => cases he; exact taking_guards fun c u => (Guards.refl u).runProbe low c
  | discover low => cases he; exact taking_guards fun c u => (Guards.refl u).runDiscover low c
  | cancel => cases he; exact taking_guards fun c u => (Guards.refl u).runCancel c
  | pause => cases he; exact taking_guards fun c u => (Guards.refl u).runPause c
  | resume low => cases he; exact taking_guards fun c u => (Guards.refl u).runResume low c
  | flush low => cases he; exact taking_guards fun c u => (Guards.refl u).runFlush low c
  | partition => cases he; exact taking_guards fun c u => (Guards.refl u).runPartition c
  | setTiming => cases he; exact taking_guards fun c u => (Guards.refl u).runSetTiming c
  | setProtect => cases he; exact taking_proceeds fun c u => runSetProtect_protects u c
  | fixProtect => cases he; exact taking_proceeds fun c u => runFixProtect_protects u c
  | setAlert => cases he; exact taking_guards fun c u => (Guards.refl u).runSetAlert c
  | changes => cases he; exact taking_guards fun c u => (Guards.refl u).kept rfl rfl rfl
  | status c => cases he; exact framed_proceeds rfl rfl rfl
  | writeEnable => cases he; exact framed_proceeds rfl rfl rfl
  | writeDisable => cases he; exact framed_proceeds rfl rfl rfl
  | push bytes => cases he; exact proceeds_frame (runPush_proceeds s bytes)
  | pop clocks empty => cases he; exact proceeds_frame ((runPop_guards s clocks empty).proceeds)
  | restartEnable => cases he; exact framed_proceeds rfl rfl rfl
  | restart bytes low => cases he; exact proceeds_frame (runRestart_proceeds s bytes low)
  | ackRestart => cases he; exact framed_proceeds rfl rfl rfl
  | unknownFrame code =>
    cases he
    split
    · exact framed_proceeds rfl rfl rfl
    · exact same.proceeds
  | partialFrame bits =>
    cases he
    split
    · exact framed_proceeds rfl rfl rfl
    · exact same.proceeds
  | emptyFrame => cases he; exact framed_proceeds rfl rfl rfl
  | fullReset => exact absurd rfl hc
  | protChange high => cases he; exact ⟨_, .same, .inr ⟨rfl, rfl, .pin high⟩⟩
  | fullResetEnd mcs =>
    cases he
    split <;> exact Guards.proceeds (same.kept rfl rfl rfl)

end Sys2Proof.Machine
end

section
namespace Sys2Proof.Machine

variable {s t : State}

/-! ### Protected slots over every event (R155, R156) -/

theorem SlotGuarded.record {r : Record} {o : Option Record} (h : SlotGuarded (some r) o) (hs : r.state ≠ .retiring) :
    ∃ q, o = some q ∧ r.Stays q := by
  cases h with
  | stays h => exact ⟨_, rfl, h⟩
  | retiring h => exact absurd h hs

theorem SlotGuarded.notRetiring {o : Option Record} {q : Record} (h : SlotGuarded o (some q))
    (hs : ∀ r, o = some r → r.state ≠ .retiring) : q.state ≠ .retiring := by
  cases h with
  | stays h => exact fun retiring => hs _ rfl (h.retiring retiring)
  | retiring h => exact absurd h (hs _ rfl)

theorem Guards.keepsProtected (h : Guards s t) (clear : s.NoRetiringProtected) : KeepsProtected s t := by
  intro i r hi hr
  have guarded := h.slots i hi
  rw [hr] at guarded
  obtain ⟨q, hq, stays⟩ := guarded.record (clear i r hi hr)
  exact ⟨q, hq, stays.aliasAddr, stays.segment, stays.target⟩

theorem Guards.noRetiringProtected (h : Guards s t) (clear : s.NoRetiringProtected) : t.NoRetiringProtected := by
  intro i q hi hq
  rw [isProtected_of_pu h.pu] at hi
  have guarded := h.slots i hi
  rw [hq] at guarded
  exact guarded.notRetiring fun r => clear i r hi

theorem SetsProtection.keepsProtected (h : SetsProtection s t) : KeepsProtected s t := fun i r _ hr =>
  ⟨r, (recAt_of_dir h.dir i).trans hr, rfl, rfl, rfl⟩

/-- SET_PROTECT takes no code whose range holds a RETIRING record (R156). -/
theorem SetsProtection.noRetiringProtected (h : SetsProtection s t) (clear : s.NoRetiringProtected) :
    t.NoRetiringProtected := by
  obtain ⟨dir, -, pu⟩ := h
  intro i r hi hr
  rw [recAt_of_dir dir] at hr
  have below : i.val < protectedCount t.pu.code := of_decide_eq_true hi
  generalize t.pu = p at pu below
  cases pu with
  | replaced _ none => exact fun retiring =>
      Bool.eq_false_iff.mp none ((retiringBelow_iff s _).mpr ⟨i, r, below, hr, retiring⟩)
  | fixed => exact clear i r (decide_eq_true below) hr
  | pin high => exact clear i r (decide_eq_true below) hr

theorem exec_noRetiringProtected (clear : s.NoRetiringProtected) (c : Instr) (he : exec c s = .next t) :
    t.NoRetiringProtected := by
  by_cases hc : c = .fullReset
  · subst hc
    cases he
    intro i r _ hr
    rw [show s.heldReset.recAt i = none from reset_recAt i] at hr
    cases hr
  · obtain ⟨queue, -, guards | sets⟩ := exec_proceeds c hc he
    · exact guards.noRetiringProtected clear
    · exact sets.noRetiringProtected clear

/-- Settles O19: every operation of an event keeps the protected slots, since it frees a slot only of a RETIRING record
or once DIR has found it unprotected; and what sets PU changes no record. -/
theorem protectedSlotsStay : Obligations.ProtectedSlotsStay := by
  unfold Obligations.ProtectedSlotsStay
  intro c s t clear hc he
  obtain ⟨queue, -, guards | sets⟩ := exec_proceeds c hc he
  · exact guards.keepsProtected clear
  · exact sets.keepsProtected

/-- Settles O20: no operation retires a record in the protected range, and SET_PROTECT looks through the range of its
code. -/
theorem noRetiringProtectedKept : Obligations.NoRetiringProtectedKept := by
  unfold Obligations.NoRetiringProtectedKept
  intro s t clear he
  unfold step at he
  split at he
  · cases he
    have passes : Guards s s.tick := Guards.timed ((Guards.refl s).kept rfl rfl rfl)
    exact passes.noRetiringProtected clear
  · rename_i c rest _
    exact exec_noRetiringProtected (s := { s with pending := rest }) clear c he

/-! ### The command queue over every event (R160, R162) -/

theorem Protects.commands (h : Protects s t) : t.mp.commands = s.mp.commands := by
  rcases h with guards | sets
  · exact guards.commands
  · exact sets.commands

/-- Settles O11: only a PUSH puts a command into the queue, once its check of the latch has passed. -/
theorem modifyingCommandsNeedTheLatch : Obligations.ModifyingCommandsNeedTheLatch := by
  unfold Obligations.ModifyingCommandsNeedTheLatch
  intro c s t he
  by_cases hc : c = .fullReset
  · subst hc
    cases he
    exact .inr (.inr (.inl ⟨.inr rfl, rfl⟩))
  obtain ⟨queue, becomes, protects⟩ := exec_proceeds c hc he
  have commands : t.mp.commands = queue := protects.commands
  rw [commands]
  cases becomes with
  | same => exact .inl rfl
  | taken head => exact .inr (.inl ⟨_, head⟩)
  | emptied restart => exact .inr (.inr (.inl ⟨.inl ⟨_, _, restart⟩, rfl⟩))
  | pushed push latch => exact .inr (.inr (.inr ⟨_, _, push, rfl, latch⟩))

/-! ### PU and the commands that set it (R153, R157 to R159, R183) -/

theorem decodeProtect_inRange {a : Byte} (h : a.toNat < 8) (b : Byte) :
    decodeProtect [a, b] = (switchOf b).map fun lock => (⟨a.toNat, h⟩, lock) := by
  unfold decodeProtect
  dsimp only
  rw [dif_pos h]
  cases switchOf b <;> rfl

theorem decodeProtect_outOfRange {a : Byte} (h : ¬a.toNat < 8) (b : Byte) : decodeProtect [a, b] = none := dif_neg h

theorem decodeProtect_none (a b : Byte) : decodeProtect [a, b] = none ↔ 8 ≤ a.toNat ∨ 2 ≤ b.toNat := by
  rw [← switchOf_none]
  by_cases h : a.toNat < 8
  · rw [decodeProtect_inRange h, Option.map_eq_none_iff]
    exact (or_iff_right (Nat.not_le_of_lt h)).symm
  · exact iff_of_true (decodeProtect_outOfRange h b) (.inl (Nat.le_of_not_lt h))

theorem decodeProtect_some {a b : Byte} {code : Fin 8} {lock : Bool} (hd : decodeProtect [a, b] = some (code, lock)) :
    code.val = a.toNat ∧ (lock = true ↔ b = 0x01) := by
  by_cases h : a.toNat < 8
  · rw [decodeProtect_inRange h] at hd
    obtain ⟨l, switch, e⟩ := Option.map_eq_some_iff.mp hd
    obtain ⟨rfl, rfl⟩ := Prod.mk.inj e
    rw [switchOf_some] at switch
    refine ⟨rfl, ?_⟩
    rw [switch]
    cases l <;> decide
  · rw [decodeProtect_outOfRange h] at hd
    cases hd

@[simp] theorem taken_pu (s : State) (rest : List Command) : (s.taken rest).pu = s.pu := rfl

theorem exec_setProtect {tag : Byte} {args : List Byte} {rest : List Command}
    (hq : s.queues .setProtect tag args rest) :
    exec .setProtect s = .next ((s.taken rest).runSetProtect ⟨.setProtect, tag, args⟩) :=
  congrArg Host.Outcome.next (taking_of_queues s hq fun c u => u.runSetProtect c)

theorem exec_fixProtect {tag : Byte} {args : List Byte} {rest : List Command}
    (hq : s.queues .fixProtect tag args rest) :
    exec .fixProtect s = .next ((s.taken rest).runFixProtect ⟨.fixProtect, tag, args⟩) :=
  congrArg Host.Outcome.next (taking_of_queues s hq fun c u => u.runFixProtect c)

theorem runSetProtect_badField {c : Command} (hd : decodeProtect c.args = none) :
    s.runSetProtect c = s.answer c .badField := by
  simp only [State.runSetProtect, hd]

/-- The checks of SET_PROTECT once its fields decode, in their order (R157). -/
theorem runSetProtect_checked {c : Command} {code : Fin 8} {lock : Bool}
    (hd : decodeProtect c.args = some (code, lock)) :
    s.runSetProtect c =
      if s.pu.fixed then s.answer c .fixed
      else if s.pu.inForce then s.answer c .locked
      else if s.retiringBelow code then s.answer c .badField
      else (s.setPu { s.pu with code := code, lock := lock }).answerDone c [] := by
  simp only [State.runSetProtect, hd]

theorem Protection.inForce_iff (p : Protection) : p.inForce = true ↔ p.lock = true ∧ p.prot = false := by
  simp [Protection.inForce]

/-- Settles O16, check by check in their order. -/
theorem setProtectReplacesCodeAndLock : Obligations.SetProtectReplacesCodeAndLock := by
  unfold Obligations.SetProtectReplacesCodeAndLock
  refine ⟨decodeProtect_none, fun a b code lock hd => decodeProtect_some hd, rfl, fun s tag a b rest hq => ?_⟩
  intro answered
  refine ⟨fun hn => ?_, fun code lock hd => ?_⟩
  · rw [exec_setProtect hq, runSetProtect_badField hn]
    rfl
  have run := exec_setProtect hq
  rw [runSetProtect_checked hd, taken_pu] at run
  have unlocked : s.pu.lock = false ∨ s.pu.prot = true → ¬s.pu.inForce = true := fun h force => by
    obtain ⟨lock, prot⟩ := s.pu.inForce_iff.mp force
    rcases h with h | h
    · exact Bool.noConfusion (h.symm.trans lock)
    · exact Bool.noConfusion (h.symm.trans prot)
  refine ⟨fun fixed => ?fixed, fun outside lock prot => ?locked, fun outside free held => ?retiring,
    fun outside free none => ?replaced⟩
  case fixed =>
    rw [run, if_pos fixed]
    rfl
  all_goals have unfixed : ¬s.pu.fixed = true := Bool.eq_false_iff.mp outside
  case locked =>
    rw [run, if_neg unfixed, if_pos (s.pu.inForce_iff.mpr ⟨lock, prot⟩)]
    rfl
  case retiring =>
    rw [run, if_neg unfixed, if_neg (unlocked free), if_pos ((retiringBelow_iff (s.taken rest) code).mpr held)]
    rfl
  case replaced =>
    have clear : ¬(s.taken rest).retiringBelow code = true := fun h => by
      obtain ⟨i, r, below, hr, retiring⟩ := (retiringBelow_iff _ code).mp h
      exact none i r below hr retiring
    rw [run, if_neg unfixed, if_neg (unlocked free), if_neg clear]
    rfl

/-- While protect-fixed is set no event but a full reset changes it, the code or the lock (R159). -/
theorem exec_fixed (fixed : s.pu.fixed = true) (c : Instr) (hc : c ≠ .fullReset) (he : exec c s = .next t) :
    t.pu.fixed = true ∧ t.pu.code = s.pu.code ∧ t.pu.lock = s.pu.lock := by
  obtain ⟨queue, -, guards | ⟨-, -, pu⟩⟩ := exec_proceeds c hc he
  · rw [guards.pu]
    exact ⟨fixed, rfl, rfl⟩
  · generalize t.pu = p at pu
    cases pu with
    | replaced unfixed _ => exact Bool.noConfusion (unfixed.symm.trans fixed)
    | fixed => exact ⟨rfl, rfl, rfl⟩
    | pin high => exact ⟨fixed, rfl, rfl⟩

/-- Settles O17: the two commands by protect-fixed, and what every event leaves of it. -/
theorem fixProtectHoldsUntilFullReset : Obligations.FixProtectHoldsUntilFullReset := by
  unfold Obligations.FixProtectHoldsUntilFullReset
  refine ⟨rfl, rfl, fun s => ⟨fun tag args rest hq => ⟨fun unfixed => ?_, fun fixed => ?_⟩,
    fun tag args rest hq hd fixed => ?_, fun c t he fixed hc => exec_fixed fixed c hc he, _, rfl, rfl, rfl, rfl⟩⟩
  · rw [exec_fixProtect hq, State.runFixProtect, taken_pu, if_neg (Bool.eq_false_iff.mp unfixed)]
    rfl
  · rw [exec_fixProtect hq, State.runFixProtect, taken_pu, if_pos fixed]
    rfl
  · obtain ⟨⟨code, lock⟩, decoded⟩ := Option.ne_none_iff_exists'.mp hd
    rw [exec_setProtect hq, runSetProtect_checked decoded, taken_pu, if_pos fixed]
    rfl

/-- Settles O18: the counts are one list to evaluate, and a slot is protected by its comparison with the count. -/
theorem protectedRangeAndPin : Obligations.ProtectedRangeAndPin := by
  unfold Obligations.ProtectedRangeAndPin
  exact ⟨by decide, fun _ _ => decide_eq_true_iff, fun _ _ => rfl⟩

end Sys2Proof.Machine
end

section
namespace Sys2Proof.Machine

/-! ### Engines and long operations that run on inside an event (R52, R65, R132, R167)

Few operations of an event change a flag of an engine, answer a PAUSE or a RESUME, or change MP. Over all the others
the engines and the commands run on, by one lemma per operation in the order of the model. Between the end of a
transaction and the release of its bus a stall timer may run with nothing left on the bus; `off` names that engine. -/

/-- What keeps a flag of an engine set while it waits (R52, R146). -/
def LongWork.flagged : LongWork → Bool
  | .pause _ | .resume _ => true
  | .retire .. | .probe .. | .discover _ => false

/-- An operation of this work waits and has not been answered in the event. -/
def State.awaits (s : State) (w : LongWork) : Bool := s.dc.ops.any fun o => o.work == w && o.answer.isNone

/-- The stall timer of the engine runs only in a target's hold of a transaction on the bus (R59, R65). -/
def Engine.Timed (e : Engine) : Prop := e.stall ≠ none → ∃ x, e.tx = some x ∧ x.step.released = true

/-- The engine keeps its flags, and its state too unless it was IDLE and has begun work (R54). -/
structure Engine.SameFlags (e e' : Engine) : Prop where
  state : e.state ≠ .idle → e'.state = e.state
  pause : e'.pausePending = e.pausePending
  resume : e'.resumeWaiting = e.resumeWaiting

structure RunsOn (off : Option Seg) (s u : State) : Prop where
  mp : u.mp = s.mp
  count : u.dc.ops.length = s.dc.ops.length
  waiting : ∀ w, w.flagged = true → u.awaits w = s.awaits w
  flags : ∀ k, (s.engine k).SameFlags (u.engine k)
  timers : ∀ k, off ≠ some k → (s.engine k).Timed → (u.engine k).Timed

theorem Engine.SameFlags.refl (e : Engine) : e.SameFlags e := ⟨fun _ => rfl, rfl, rfl⟩

theorem Engine.SameFlags.trans {a b c : Engine} (h : a.SameFlags b) (g : b.SameFlags c) : a.SameFlags c where
  state ha := (g.state (h.state ha ▸ ha)).trans (h.state ha)
  pause := g.pause.trans h.pause
  resume := g.resume.trans h.resume

theorem RunsOn.refl (off : Option Seg) (s : State) : RunsOn off s s :=
  ⟨rfl, rfl, fun _ _ => rfl, fun _ => .refl _, fun _ _ => id⟩

variable {off : Option Seg} {s u t : State} {k : Seg} {x y : Tx}

theorem RunsOn.trans (h : RunsOn off s u) (g : RunsOn off u t) : RunsOn off s t where
  mp := g.mp.trans h.mp
  count := g.count.trans h.count
  waiting w hw := (g.waiting w hw).trans (h.waiting w hw)
  flags j := (h.flags j).trans (g.flags j)
  timers j hj := g.timers j hj ∘ h.timers j hj

theorem RunsOn.weaken (h : RunsOn none s u) (off : Option Seg) : RunsOn off s u :=
  { h with timers := fun j _ => h.timers j nofun }

/-! #### Changes of one block -/

theorem awaits_of_dc (h : t.dc = u.dc) (w : LongWork) : t.awaits w = u.awaits w := by
  unfold State.awaits
  rw [h]

/-- A change of UP, DIR, PWP, HM, PU or AU, of whatever kind. -/
theorem RunsOn.still (h : RunsOn off s u) (mp : t.mp = u.mp) (dc : t.dc = u.dc) (eng : t.eng = u.eng) :
    RunsOn off s t :=
  h.trans ⟨mp, by rw [dc], fun w _ => awaits_of_dc dc w, fun j => engine_of_eng eng j ▸ .refl _,
    fun j _ => engine_of_eng eng j ▸ id⟩

/-- Every engine changes by what keeps its flags and lets its stall timer run no further. -/
theorem RunsOn.eachEngine (h : RunsOn off s u) (mp : t.mp = u.mp) (dc : t.dc = u.dc)
    (flags : ∀ j, (u.engine j).SameFlags (t.engine j)) (timers : ∀ j, (u.engine j).Timed → (t.engine j).Timed) :
    RunsOn off s t :=
  h.trans ⟨mp, by rw [dc], fun w _ => awaits_of_dc dc w, flags, fun j _ => timers j⟩

theorem RunsOn.modEngine (h : RunsOn off s u) {f : Engine → Engine} (flags : (u.engine k).SameFlags (f (u.engine k)))
    (timer : (u.engine k).Timed → (f (u.engine k)).Timed) : RunsOn off s (u.modEngine k f) := by
  refine h.eachEngine rfl rfl (fun j => ?_) fun j => ?_
  all_goals
    rw [engine_modEngine]
    split
    · rename_i here
      subst here
      assumption
  · exact .refl _
  · exact id

/-- A change of what waits at the engine: its request, its probe queue or its discovery. -/
theorem RunsOn.atEngine (h : RunsOn off s u) (k : Seg) (f : Engine → Engine)
    (same : ∀ e, (f e).state = e.state ∧ (f e).pausePending = e.pausePending ∧
      (f e).resumeWaiting = e.resumeWaiting ∧ (f e).tx = e.tx ∧ (f e).stall = e.stall) :
    RunsOn off s (u.modEngine k f) := by
  obtain ⟨state, pause, resume, tx, stall⟩ := same (u.engine k)
  refine h.modEngine ⟨fun _ => state, pause, resume⟩ fun timed => ?_
  unfold Engine.Timed
  rw [tx, stall]
  exact timed

/-- The engine's transaction goes on to a step in which the clock is released. -/
theorem RunsOn.putTx (h : RunsOn off s u) (k : Seg) (x : Tx) (released : x.step.released = true) :
    RunsOn off s (u.modEngine k fun e => { e with tx := some x }) :=
  h.modEngine ⟨fun _ => rfl, rfl, rfl⟩ fun _ _ => ⟨x, rfl, released⟩

theorem RunsOn.mapTx (h : RunsOn off s u) (k : Seg) (f : Tx → Tx)
    (released : ∀ x, x.step.released = true → (f x).step.released = true) :
    RunsOn off s (u.modEngine k fun e => { e with tx := e.tx.map f }) := by
  refine h.modEngine ⟨fun _ => rfl, rfl, rfl⟩ fun timed running => ?_
  obtain ⟨x, hx, hr⟩ := timed running
  exact ⟨f x, congrArg (Option.map f) hx, released x hr⟩

/-- After a bit or byte of the target the stall timer is stopped, whatever comes next (R65). -/
theorem RunsOn.stepTx (h : RunsOn off s u) (k : Seg) (x : Tx) : RunsOn off s (u.stepTx k x) :=
  h.modEngine ⟨fun _ => rfl, rfl, rfl⟩ fun _ running => absurd rfl running

/-- Answers of commands that set no flag. -/
theorem RunsOn.settleOps (h : RunsOn off s u) {f : LongOp → Option Response}
    (quiet : ∀ o, o.work.flagged = true → f o = none) : RunsOn off s (u.settleOps f) := by
  refine h.trans ⟨rfl, List.length_map .., fun w hw => ?_, fun _ => .refl _, fun _ _ => id⟩
  unfold State.awaits State.settleOps
  rw [setDc_dc, List.any_map]
  congr 1
  funext o
  simp only [Function.comp_apply]
  cases ha : o.answer with
  | some r => simp [ha]
  | none =>
    by_cases here : o.work = w
    · simp [quiet o (here ▸ hw)]
    · simp [here]

theorem LongWork.ne_of_flagged {v w : LongWork} (hv : v.flagged = true) (hw : w.flagged = false) : v ≠ w := fun e =>
  Bool.noConfusion (hv.symm.trans (e ▸ hw))

theorem RunsOn.moveNotes (h : RunsOn off s u) (i : Slot) (onBus : Bool) : RunsOn off s (u.moveNotes i onBus) := by
  refine h.trans ⟨rfl, List.length_map .., fun w hw => ?_, fun _ => .refl _, fun _ _ => id⟩
  unfold State.awaits State.moveNotes
  rw [setDc_dc, List.any_map]
  congr 1
  funext o
  simp only [Function.comp_apply]
  split
  · rename_i j _ hp
    split
    · have other : ∀ b, (LongWork.probe j b == w) = false := fun b =>
        beq_false_of_ne (LongWork.ne_of_flagged hw rfl).symm
      rw [hp, other, other]
    · rfl
  · rfl

theorem RunsOn.answerProbes (h : RunsOn off s u) (i : Slot) (code : ResultCode) : RunsOn off s (u.answerProbes i code) :=
  h.settleOps fun _ ho => if_neg fun e => e.elim (LongWork.ne_of_flagged ho rfl) (LongWork.ne_of_flagged ho rfl)

theorem RunsOn.answerQueuedProbes (h : RunsOn off s u) (i : Slot) (code : ResultCode) :
    RunsOn off s (u.answerQueuedProbes i code) :=
  h.settleOps fun _ ho => if_neg (LongWork.ne_of_flagged ho rfl)

theorem RunsOn.answerRetires (h : RunsOn off s u) (i : Slot) : RunsOn off s (u.answerRetires i) := by
  refine h.settleOps fun o ho => ?_
  split
  · rename_i hw
    exact absurd hw (LongWork.ne_of_flagged ho rfl)
  · rfl

theorem RunsOn.answerBusProbes (h : RunsOn off s u) (i : Slot) (o : ProbeOutcome) (byte : Option Byte) :
    RunsOn off s (u.answerBusProbes i o byte) := by
  unfold State.answerBusProbes
  split
  · exact h.settleOps fun _ ho => if_neg (LongWork.ne_of_flagged ho rfl)
  · exact h

theorem RunsOn.endDiscovery (h : RunsOn off s u) (k : Seg) (code : ResultCode) :
    RunsOn off s (u.endDiscovery k code) := by
  unfold State.endDiscovery
  split
  · exact h
  · refine (h.atEngine k (fun e => { e with discovery := none }) fun _ => ⟨rfl, rfl, rfl, rfl, rfl⟩).settleOps
      fun _ ho => if_neg (LongWork.ne_of_flagged ho rfl)

/-! #### Claims, purges and records that change or go (R11, R12, R42, R87) -/

theorem RunsOn.setUp (h : RunsOn off s u) (v : UpPort) : RunsOn off s (u.setUp v) := h.still rfl rfl rfl

theorem RunsOn.setCtx (h : RunsOn off s u) (c : UpContext) : RunsOn off s (u.setCtx c) := h.still rfl rfl rfl

theorem RunsOn.setOut (h : RunsOn off s u) (o : UpLines) : RunsOn off s (u.setOut o) := h.still rfl rfl rfl

theorem RunsOn.markChanged (h : RunsOn off s u) (i : Slot) : RunsOn off s (u.markChanged i) := h.still rfl rfl rfl

theorem RunsOn.putRec (h : RunsOn off s u) (i : Slot) (o : Option Record) : RunsOn off s (u.putRec i o) :=
  h.still rfl rfl rfl

theorem RunsOn.modRec (h : RunsOn off s u) (i : Slot) (f : Record → Record) : RunsOn off s (u.modRec i f) :=
  h.still (by simp) (by simp) (by simp)

theorem RunsOn.withdraw (h : RunsOn off s u) (k : Seg) (how : Withdrawal) : RunsOn off s (u.withdraw k how) := by
  have taken := h.atEngine k (fun e => { e with request := none }) fun _ => ⟨rfl, rfl, rfl, rfl, rfl⟩
  unfold State.withdraw
  split
  · exact h
  · dsimp only
    split <;> exact taken.still (by simp) (by simp) (by simp)

theorem RunsOn.withdrawSlot (h : RunsOn off s u) (k : Seg) (i : Slot) (how : Withdrawal) :
    RunsOn off s (u.withdrawSlot k i how) := by
  unfold State.withdrawSlot
  split
  · split
    · exact h.withdraw k how
    · exact h
  · exact h

theorem RunsOn.undeliveredClaim (h : RunsOn off s u) (i : Slot) : RunsOn off s (u.undeliveredClaim i) :=
  h.still (by simp) (by simp) (by simp)

theorem RunsOn.undeliveredClaims (h : RunsOn off s u) (es : List Entry) : RunsOn off s (u.undeliveredClaims es) :=
  h.still (by simp) (by simp) (by simp)

theorem RunsOn.purge (h : RunsOn off s u) (k : Seg) (covers : Entry → Bool) : RunsOn off s (u.purge k covers) :=
  h.still (by simp) (by simp) (by simp)

/-- Engines that change only what they note of the record of a transaction run on. -/
theorem RunsOn.mapEngines (h : RunsOn off s u) (f : Engine → Engine) (g : Tx → Tx)
    (same : ∀ e, (f e).state = e.state ∧ (f e).pausePending = e.pausePending ∧
      (f e).resumeWaiting = e.resumeWaiting ∧ (f e).tx = e.tx.map g ∧ (f e).stall = e.stall)
    (step : ∀ x, (g x).step = x.step) : RunsOn off s (u.setEng (u.eng.map f)) := by
  have mapped : ∀ j, (u.setEng (u.eng.map f)).engine j = f (u.engine j) := fun j => Quad.get_map ..
  refine h.eachEngine rfl rfl (fun j => ?_) fun j timed running => ?_
  all_goals
    obtain ⟨state, pause, resume, tx, stall⟩ := same (u.engine j)
    rw [mapped] at *
  · exact ⟨fun _ => state, pause, resume⟩
  · obtain ⟨x, hx, hr⟩ := timed (stall ▸ running)
    exact ⟨g x, by rw [tx, hx]; rfl, (step x).symm ▸ hr⟩

theorem RunsOn.freeSlot (h : RunsOn off s u) (i : Slot) : RunsOn off s (u.freeSlot i) := by
  unfold State.freeSlot
  split
  · exact h
  · have cleared := fun d => h.still (t := (u.putRec i none).setDir d) rfl rfl rfl
    have forgot := fun d => (cleared d).mapEngines (Engine.forgetSlot i)
      (fun x => if x.slot = some i then { x with sameRecord := false, ownsMarker := false } else x)
      (fun _ => ⟨rfl, rfl, rfl, rfl, rfl⟩) fun x => by split <;> rfl
    exact ((((forgot _).markChanged i).withdrawSlot _ i .nak).answerRetires i).answerProbes i .retired

theorem RunsOn.retireCheck (h : RunsOn off s u) (i : Slot) : RunsOn off s (u.retireCheck i) := by
  rcases retireCheck_cases u i with e | e <;> rw [e]
  · exact h.freeSlot i
  · exact h

theorem RunsOn.retireChecks (h : RunsOn off s u) (es : List Entry) : RunsOn off s (u.retireChecks es) := by
  induction es generalizing u with
  | nil => exact h
  | cons e rest ih => exact ih (h.retireCheck e.slot)

theorem RunsOn.purgeAndRetire (h : RunsOn off s u) (k : Seg) (covers : Entry → Bool) :
    RunsOn off s (u.purgeAndRetire k covers) := (h.purge k covers).retireChecks _

theorem RunsOn.leaveBound (h : RunsOn off s u) (i : Slot) (k : Seg) (purges : Bool) :
    RunsOn off s (u.leaveBound i k purges) := by
  have withdrawn := h.withdrawSlot k i .standIn
  unfold State.leaveBound
  dsimp only
  split
  · exact withdrawn.purge k _
  · exact withdrawn

theorem RunsOn.moveRec (h : RunsOn off s u) (i : Slot) (f : Record → Record) : RunsOn off s (u.moveRec i f) := by
  unfold State.moveRec
  split
  · exact h
  · have moved := fun o => (h.putRec i o).markChanged i
    dsimp only
    split
    · exact (moved _).leaveBound i _ _
    · exact moved _

theorem RunsOn.charge (h : RunsOn off s u) (i : Slot) : RunsOn off s (u.charge i) := by
  unfold State.charge
  split
  · split
    · split
      · exact h.moveRec i _
      · exact h.putRec i _
    · exact h
  · exact h

theorem RunsOn.usedClaim (h : RunsOn off s u) (i : Slot) : RunsOn off s (u.usedClaim i) := h.modRec i _

theorem RunsOn.clearMarker (h : RunsOn off s u) (i : Slot) : RunsOn off s (u.clearMarker i) := h.modRec i _

theorem RunsOn.absenceExpiry (h : RunsOn off s u) (i : Slot) : RunsOn off s (u.absenceExpiry i) := by
  unfold State.absenceExpiry
  split
  · split
    · split
      · exact h.freeSlot i
      · exact h.putRec i _
    · exact h
  · exact h

theorem RunsOn.afterEnd (h : RunsOn off s u) (i : Slot) : RunsOn off s (u.afterEnd i) := by
  have checked := h.retireCheck i
  unfold State.afterEnd
  dsimp only
  split
  · split
    · exact (checked.putRec i _).absenceExpiry i
    · exact checked
  · exact checked

theorem RunsOn.createRec (h : RunsOn off s u) (i : Slot) (r : Record) : RunsOn off s (u.createRec i r) :=
  h.still rfl rfl rfl

/-! #### Probe requests (R56, R96, R98) -/

theorem RunsOn.enqueueProbe (h : RunsOn off s u) (k : Seg) (i : Slot) :
    RunsOn off s (u.modEngine k (Engine.enqueueProbe i)) :=
  h.atEngine k _ fun _ => ⟨rfl, rfl, rfl, rfl, rfl⟩

theorem RunsOn.refuseProbe (h : RunsOn off s u) (i : Slot) : RunsOn off s (u.refuseProbe i) :=
  (h.modRec i _).answerQueuedProbes i .segmentFault

theorem RunsOn.refuseProbes (h : RunsOn off s u) (es : List Slot) : RunsOn off s (u.refuseProbes es) := by
  induction es generalizing u with
  | nil => exact h
  | cons i rest ih => exact ih (h.refuseProbe i)

theorem RunsOn.requestProbe (h : RunsOn off s u) (i : Slot) : RunsOn off s (u.requestProbe i) := by
  unfold State.requestProbe
  split
  · split
    · exact h.refuseProbe i
    · exact h.enqueueProbe _ i
  · exact h

theorem RunsOn.requestProbes (h : RunsOn off s u) (es : List Slot) : RunsOn off s (u.requestProbes es) := by
  induction es generalizing u with
  | nil => exact h
  | cons i rest ih => exact ih (h.requestProbe i)

/-! #### The arbiters' choices (R54) -/

/-- An IDLE engine that becomes ACTIVE or RECOVERING with no stall timer keeps its flags. -/
theorem RunsOn.leavesIdle (h : RunsOn off s u) {f : Engine → Engine} (idle : (u.engine k).state = .idle)
    (same : ∀ e, (f e).pausePending = e.pausePending ∧ (f e).resumeWaiting = e.resumeWaiting ∧ (f e).stall = none) :
    RunsOn off s (u.modEngine k f) := by
  obtain ⟨pause, resume, stall⟩ := same (u.engine k)
  exact h.modEngine ⟨fun busy => absurd idle busy, pause, resume⟩ fun _ running => absurd stall running

theorem RunsOn.beginWork (h : RunsOn off s u) (k : Seg) (w : Work) : RunsOn off s (u.beginWork k w) := by
  cases w with
  | forward q =>
    have taken := h.atEngine k (fun e => { e with request := none }) fun _ => ⟨rfl, rfl, rfl, rfl, rfl⟩
    unfold State.beginWork
    dsimp only
    split
    · exact (taken.setCtx _).modRec _ _
    · exact taken.setCtx _
  | delivery e r => exact h.modRec _ _
  | probe i r =>
    have taken := h.atEngine k (fun e => { e with probeQueue := e.probeQueue.erase i }) fun _ => ⟨rfl, rfl, rfl, rfl, rfl⟩
    exact (taken.moveNotes i true).modRec i _

theorem beginWork_state (k : Seg) (w : Work) : ((u.beginWork k w).engine k).state = (u.engine k).state := by
  cases w with
  | forward q =>
    unfold State.beginWork
    dsimp only
    split <;> simp
  | delivery e r => simp [State.beginWork]
  | probe i r => simp [State.beginWork]

theorem RunsOn.offerDiscovery (h : RunsOn off s u) (low : LowLines) (idle : (u.engine k).state = .idle) :
    RunsOn off s (u.offerDiscovery k low) := by
  have passed := fun d : Discovery => h.atEngine k (fun e => { e with discovery := some d }) fun _ =>
    ⟨rfl, rfl, rfl, rfl, rfl⟩
  have stays : ∀ d : Discovery,
      ((u.modEngine k fun e => { e with discovery := some d }).engine k).state = .idle := fun d => by
    rw [engine_modEngine_self]
    exact idle
  unfold State.offerDiscovery
  split
  · exact h
  · dsimp only
    split
    · exact (passed _).endDiscovery k .done
    · split
      · exact (passed _).leavesIdle (stays _) fun _ => ⟨rfl, rfl, rfl⟩
      · exact (passed _).leavesIdle (stays _) fun _ => ⟨rfl, rfl, rfl⟩

theorem RunsOn.arbitrate (h : RunsOn off s u) (low : LowLines) (k : Seg) : RunsOn off s (u.arbitrate low k) := by
  unfold State.arbitrate
  split
  · rename_i idle
    split
    · rename_i w _
      split
      · exact h.leavesIdle idle fun _ => ⟨rfl, rfl, rfl⟩
      · exact (h.beginWork k w).leavesIdle ((beginWork_state k w).trans idle) fun _ => ⟨rfl, rfl, rfl⟩
    · exact h.offerDiscovery low idle
  · exact h

theorem RunsOn.arbitrateAll (h : RunsOn off s u) (low : LowLines) : RunsOn off s (u.arbitrateAll low) :=
  (((h.arbitrate low 0).arbitrate low 1).arbitrate low 2).arbitrate low 3

end Sys2Proof.Machine
end

section
namespace Sys2Proof.Machine

variable {off : Option Seg} {s u t : State} {k : Seg} {x y : Tx}

/-! #### The upstream port (R30 to R49) -/

/-- The end a forward is asked for leaves the clock released to the target (R59). -/
theorem RunsOn.requestEnd (h : RunsOn off s u) (k : Seg) : RunsOn off s (u.requestEnd k) := by
  unfold State.requestEnd
  refine h.modEngine ?_ fun timed => ?_
  · split
    · split <;> exact ⟨fun _ => rfl, rfl, rfl⟩
    · exact .refl _
  · split
    · split
      · exact fun _ => ⟨_, rfl, BusStep.closing_released _⟩
      · exact timed
    · exact timed

theorem RunsOn.requestEndOpen (h : RunsOn off s u) : RunsOn off s u.requestEndOpen := by
  unfold State.requestEndOpen
  split
  · exact h.requestEnd _
  · exact h

theorem RunsOn.dropRequest (h : RunsOn off s u) : RunsOn off s u.dropRequest := by
  unfold State.dropRequest
  split
  · exact h.atEngine _ (fun e => { e with request := none }) fun _ => ⟨rfl, rfl, rfl, rfl, rfl⟩
  · exact h

theorem RunsOn.leaveTransaction (h : RunsOn off s u) : RunsOn off s u.leaveTransaction := h.setUp _

theorem RunsOn.commit (h : RunsOn off s u) : RunsOn off s u.commit := by
  have released : RunsOn off s u.releaseReservation := h.still rfl rfl rfl
  unfold State.commit
  split
  · split
    · exact h.still rfl rfl rfl
    · split
      · exact released.undeliveredClaim _
      · exact released
  · exact released

theorem RunsOn.closeForStop (h : RunsOn off s u) : RunsOn off s u.closeForStop := by
  unfold State.closeForStop
  split
  · exact h.commit.leaveTransaction
  · exact h.dropRequest.requestEndOpen.leaveTransaction

theorem RunsOn.closeForRestart (h : RunsOn off s u) (cut : Bool) : RunsOn off s (u.closeForRestart cut) := by
  unfold State.closeForRestart
  split
  · exact h.commit.leaveTransaction
  · split
    · split
      · exact h.leaveTransaction
      · exact h.requestEndOpen.leaveTransaction
    · exact h.dropRequest.leaveTransaction
  · exact h.requestEndOpen.leaveTransaction

theorem RunsOn.abandonOpen (h : RunsOn off s u) : RunsOn off s u.abandonOpen := h.requestEndOpen.setCtx _

theorem RunsOn.resolveRefused (h : RunsOn off s u) : RunsOn off s u.resolveRefused := h.abandonOpen.setUp _

theorem RunsOn.upStandIn (h : RunsOn off s u) : RunsOn off s u.upStandIn := h.still (by simp) (by simp) (by simp)

theorem RunsOn.resolveStandIn (h : RunsOn off s u) (a : Addr) (d : Dir) (i : Slot) (r : Record) :
    RunsOn off s (u.resolveStandIn a d i r) := (h.abandonOpen.setCtx _).upStandIn

theorem RunsOn.resolvePosted (h : RunsOn off s u) (a : Addr) (d : Dir) (i : Slot) (r : Record) :
    RunsOn off s (u.resolvePosted a d i r) := h.abandonOpen.still rfl rfl rfl

theorem RunsOn.repeatOnBus (h : RunsOn off s u) (k : Seg) (d : Dir) : RunsOn off s (u.repeatOnBus k d) :=
  h.mapTx k (fun x => { x with dir := d, phase := .address, step := .address }) fun _ _ => rfl

theorem RunsOn.resolveCarried (h : RunsOn off s u) (mode : UpMode) (a : Addr) (d : Dir) (k : Seg) (slot : Option Slot)
    (target : Addr) (answer : Option Answer) : RunsOn off s (u.resolveCarried mode a d k slot target answer) := by
  have requested := fun q : FwdRequest => h.abandonOpen.atEngine k (fun e => { e with request := some q }) fun _ =>
    ⟨rfl, rfl, rfl, rfl, rfl⟩
  unfold State.resolveCarried
  dsimp only
  split
  · exact (h.repeatOnBus k d).setUp _
  · exact (requested _).setUp _

theorem RunsOn.resolveRecord (h : RunsOn off s u) (a : Addr) (d : Dir) (i : Slot) (r : Record) :
    RunsOn off s (u.resolveRecord a d i r) := by
  unfold State.resolveRecord
  split
  · split
    · exact h.resolvePosted a d i r
    · split
      · exact h.resolveCarried _ a d _ _ _ _
      · exact h.resolveStandIn a d i r
  · exact h.resolveStandIn a d i r

theorem RunsOn.resolveUnknown (h : RunsOn off s u) (a : Addr) (d : Dir) : RunsOn off s (u.resolveUnknown a d) := by
  unfold State.resolveUnknown
  split
  · split
    · exact h.resolveCarried _ a d _ _ _ _
    · exact h.resolveRefused
  · exact h.resolveRefused

theorem RunsOn.resolve (h : RunsOn off s u) (a : Addr) (d : Dir) : RunsOn off s (u.resolve a d) := by
  have noticed : RunsOn off s (u.setHm u.hm.notice) := h.still rfl rfl rfl
  unfold State.resolve
  dsimp only
  split
  · exact noticed.resolveRefused
  · split
    · split
      · exact noticed.resolveRecord a d _ _
      · exact noticed.resolveUnknown a d
    · exact noticed.resolveUnknown a d

theorem RunsOn.carryByte (h : RunsOn off s u) (k : Seg) (b : Byte) : RunsOn off s (u.carryByte k b) := by
  unfold State.carryByte
  split
  · split
    · exact (h.putTx k _ rfl).setUp _
    · exact h
  · exact h

theorem RunsOn.takeByte (h : RunsOn off s u) (b : Byte) : RunsOn off s (u.takeByte b) := by
  unfold State.takeByte
  split
  · split
    · split
      · exact h.setUp _
      · exact h.setOut _
    · exact h.setOut _
    · split
      · exact h.carryByte _ b
      · exact h
    · split
      · exact h.carryByte _ b
      · exact h
    · exact h
    · exact h
  · exact h.setOut _
  · exact h
  · exact h

theorem RunsOn.fetchByte (h : RunsOn off s u) (k : Seg) : RunsOn off s (u.fetchByte k) :=
  (h.mapTx k (fun x => { x with phase := .data, step := .fetch }) fun _ _ => rfl).setCtx _

/-- The clock is released for the master's NAK, and for the next byte after its ACK (R38, R59). -/
theorem RunsOn.answerByte (h : RunsOn off s u) (k : Seg) (ack : Bool) : RunsOn off s (u.answerByte k ack) := by
  unfold State.answerByte
  split
  · rename_i x _
    split
    · have given := (h.putTx k { x with step := .nak, carried := x.carried + 1 } rfl).setOut .released
      dsimp only
      split
      · exact given.fetchByte k
      · exact given.setCtx _
    · exact h
  · exact h

theorem RunsOn.takeReadAnswer (h : RunsOn off s u) (ack : Bool) : RunsOn off s (u.takeReadAnswer ack) := by
  unfold State.takeReadAnswer
  split
  · split
    · exact h.setOut _
    · split
      · split
        · exact h.setOut _
        · exact h.setUp _
      · split
        · exact h.answerByte _ ack
        · exact h
      · split
        · exact h.answerByte _ ack
        · exact h
      · exact h
      · exact h
      · exact h
  · exact h
  · exact h
  · exact h

theorem RunsOn.answerAsExpired (h : RunsOn off s u) : RunsOn off s u.answerAsExpired := by
  rw [answerAsExpired_eq]
  exact h.setUp _

theorem RunsOn.holdExpiry (h : RunsOn off s u) : RunsOn off s u.holdExpiry := by
  unfold State.holdExpiry
  split
  · exact h.dropRequest.requestEndOpen.answerAsExpired
  · exact h

/-! #### A target's answers and bytes, and the clock (R36 to R38, R60, R65) -/

theorem RunsOn.usedByForward (h : RunsOn off s u) (x : Tx) : RunsOn off s (u.usedByForward x) := by
  unfold State.usedByForward
  split
  · exact h.usedClaim _
  · exact h

theorem RunsOn.relayAddressAck (h : RunsOn off s u) (k : Seg) (x : Tx) : RunsOn off s (u.relayAddressAck k x) := by
  unfold State.relayAddressAck
  dsimp only
  split
  · exact h.setUp _
  · exact (h.setUp _).fetchByte k

theorem RunsOn.forwardAddressAnswer (h : RunsOn off s u) (k : Seg) (x : Tx) (ack : Bool) :
    RunsOn off s (u.forwardAddressAnswer k x ack) := by
  have used := fun y => (h.usedByForward x).stepTx k y
  unfold State.forwardAddressAnswer
  split
  · split
    · exact used _
    · exact h.stepTx k _
  · split
    · dsimp only
      split
      · exact (used _).relayAddressAck k x
      · exact used _
    · dsimp only
      split
      · exact (h.stepTx k _).setUp _
      · exact h.stepTx k _

theorem RunsOn.sendNext (h : RunsOn off s u) (k : Seg) (x : Tx) (n : Nat) : RunsOn off s (u.sendNext k x n) := by
  unfold State.sendNext
  split
  · split <;> exact h.stepTx k _
  · exact h

theorem RunsOn.addressAnswer (h : RunsOn off s u) (k : Seg) (ack : Bool) : RunsOn off s (u.addressAnswer k ack) := by
  unfold State.addressAnswer
  split
  · split
    · split
      · exact h.forwardAddressAnswer k _ ack
      · exact h.forwardAddressAnswer k _ ack
      · split
        · exact h.sendNext k _ 0
        · exact h.stepTx k _
      · exact h
      · exact h
      · exact h
    · exact h
  · exact h

theorem RunsOn.forwardByteAnswer (h : RunsOn off s u) (k : Seg) (x : Tx) (ack : Bool) :
    RunsOn off s (u.forwardByteAnswer k x ack) := by
  have stepped := fun y => h.stepTx k y
  unfold State.forwardByteAnswer
  dsimp only
  split
  · exact stepped _
  · split
    · split
      · exact (stepped _).setUp _
      · exact stepped _
    · split
      · exact (stepped _).setUp _
      · exact stepped _

theorem RunsOn.byteAnswer (h : RunsOn off s u) (k : Seg) (ack : Bool) : RunsOn off s (u.byteAnswer k ack) := by
  unfold State.byteAnswer
  split
  · split
    · split
      · exact h
      · split
        · exact h.forwardByteAnswer k _ ack
        · exact h.forwardByteAnswer k _ ack
        · split
          · exact h.sendNext k _ _
          · exact h.stepTx k _
        · exact h
        · exact h
        · exact h
    · exact h
  · exact h

theorem RunsOn.byteArrives (h : RunsOn off s u) (k : Seg) (b : Byte) : RunsOn off s (u.byteArrives k b) := by
  have stepped := fun y => h.stepTx k y
  unfold State.byteArrives
  split
  · split
    · split
      · exact stepped _
      · dsimp only
        split
        · exact (stepped _).setUp _
        · exact stepped _
    · exact h
  · exact h

/-- The stall timer starts only in a hold of a clock that the engine has released (R59, R65). -/
theorem RunsOn.clockHeld (h : RunsOn off s u) (k : Seg) : RunsOn off s (u.clockHeld k) := by
  rcases clockHeld_cases u k with e | ⟨-, released, e⟩ <;> rw [e]
  · exact h
  · exact h.modEngine ⟨fun _ => rfl, rfl, rfl⟩ fun _ _ => released

theorem RunsOn.clockRises (h : RunsOn off s u) (k : Seg) : RunsOn off s (u.clockRises k) :=
  h.modEngine ⟨fun _ => rfl, rfl, rfl⟩ fun _ running => absurd rfl running

/-! #### Transactions that end (R17, R63 to R68, R82 to R86) -/

/-- The engine whose transaction is taken off the bus is the one whose timer is left for the release of the bus. -/
theorem RunsOn.clearTx (h : RunsOn (some k) s u) : RunsOn (some k) s (u.clearTx k) := by
  refine h.trans ⟨rfl, rfl, fun _ _ => rfl, fun j => ?_, fun j hj => ?_⟩
  all_goals unfold State.clearTx
  · rw [engine_modEngine]
    split
    · rename_i here
      subst here
      exact ⟨fun _ => rfl, rfl, rfl⟩
    · exact .refl _
  · rw [engine_modEngine_other _ fun here => hj (congrArg some here.symm)]
    exact id

theorem RunsOn.forwardOver (h : RunsOn off s u) (slot : Option Slot) (charged : Bool) :
    RunsOn off s (u.forwardOver slot charged) := by
  unfold State.forwardOver
  split
  · rename_i i
    have cleared := h.clearMarker i
    refine RunsOn.afterEnd ?_ i
    split
    · exact cleared.charge i
    · exact cleared
  · exact h

theorem RunsOn.deliveryOver (h : RunsOn (some k) s u) (i : Slot) (lost charged : Bool) :
    RunsOn (some k) s (u.deliveryOver k i lost charged) := by
  have removed : RunsOn (some k) s (u.removeHead k) := h.still rfl rfl rfl
  have cleared := removed.clearTx.clearMarker i
  have claimed : RunsOn (some k) s (if lost then (((u.removeHead k).clearTx k).clearMarker i).undeliveredClaim i
      else (((u.removeHead k).clearTx k).clearMarker i).usedClaim i) := by
    split
    · exact cleared.undeliveredClaim i
    · exact cleared.usedClaim i
  refine RunsOn.afterEnd ?_ i
  split
  · exact claimed.charge i
  · exact claimed

theorem RunsOn.deliveryCut (h : RunsOn (some k) s u) (i : Slot) : RunsOn (some k) s (u.deliveryCut k i) := by
  unfold State.deliveryCut
  split
  · split
    · exact h.deliveryOver i true false
    · have retried := fun f => h.still (t := u.modPool k f) rfl rfl rfl
      exact ((retried _).clearTx.clearMarker i).afterEnd i
  · exact h.clearTx.clearMarker i

theorem RunsOn.clearProbeMarker (h : RunsOn off s u) (x : Tx) (i : Slot) : RunsOn off s (u.clearProbeMarker x i) := by
  unfold State.clearProbeMarker
  split
  · exact h.clearMarker i
  · exact h

theorem RunsOn.storeIdentity (h : RunsOn off s u) (i : Slot) (byte : Option Byte) :
    RunsOn off s (u.storeIdentity i byte) := by
  unfold State.storeIdentity
  split
  · split
    · exact h
    · exact (h.putRec i _).markChanged i
  · exact h

theorem RunsOn.reprobeFailed (h : RunsOn off s u) (i : Slot) (r : Record) (o : ProbeOutcome) :
    RunsOn off s (u.reprobeFailed i r o) := by
  unfold State.reprobeFailed
  split
  · exact h.moveRec i _
  · exact h.modRec i _

/-- Every row of R17's table changes the record alone, with what follows where it leaves BOUND. -/
theorem RunsOn.applyOutcome (h : RunsOn off s u) (i : Slot) (r : Record) (o : ProbeOutcome) (byte : Option Byte) :
    RunsOn off s (u.applyOutcome i r o byte) := by
  unfold State.applyOutcome
  split
  · exact h.storeIdentity i byte
  · exact h
  · exact (h.moveRec i _).storeIdentity i byte
  · exact h.reprobeFailed i r _
  · exact h
  · exact h.moveRec i _
  · exact h.reprobeFailed i r _
  · exact h
  · exact h
  · exact h.moveRec i _

theorem RunsOn.probeOver (h : RunsOn off s u) (k : Seg) (x : Tx) (i : Slot) (answer : ProbeAnswer) :
    RunsOn off s (u.probeOver k x i answer) := by
  have cleared := h.clearProbeMarker x i
  unfold State.probeOver
  dsimp only
  split
  · split
    · exact ((cleared.applyOutcome i _ _ _).answerBusProbes i _ _).afterEnd i
    · exact cleared.afterEnd i
  · exact cleared

theorem RunsOn.probeCut (h : RunsOn off s u) (k : Seg) (x : Tx) (i : Slot) : RunsOn off s (u.probeCut k x i) := by
  have ended := (h.clearProbeMarker x i).afterEnd i
  unfold State.probeCut
  dsimp only
  split
  · split
    · refine RunsOn.moveNotes ?_ i false
      exact ended.atEngine k _ fun _ => ⟨rfl, rfl, rfl, rfl, rfl⟩
    · exact ended
  · exact ended

theorem RunsOn.putDiscovery (h : RunsOn off s u) (k : Seg) (d : Discovery) : RunsOn off s (u.putDiscovery k d) :=
  h.atEngine k (fun e => { e with discovery := some d }) fun _ => ⟨rfl, rfl, rfl, rfl, rfl⟩

theorem RunsOn.creation (h : RunsOn off s u) (c : Creation) (k : Seg) (a b : Addr) : RunsOn off s (c.records k a b u) := by
  cases c with
  | create i => exact h.createRec i _
  | known => exact h
  | collision => exact h
  | full => exact h

theorem RunsOn.afterAddress (h : RunsOn off s u) (k : Seg) (d : Discovery) : RunsOn off s (u.afterAddress k d) := by
  have put := h.putDiscovery k d
  unfold State.afterAddress
  dsimp only
  split
  · exact put.endDiscovery k _
  · split
    · exact put.endDiscovery k _
    · exact put

theorem RunsOn.discoveryProbeOver (h : RunsOn off s u) (k : Seg) (a : Addr) (found : Bool) :
    RunsOn off s (u.discoveryProbeOver k a found) := by
  unfold State.discoveryProbeOver
  split
  · exact h
  · rename_i d _
    split
    · have created := h.creation (u.judgeCreation k a (d.aliasOf a)) k a (d.aliasOf a)
      unfold State.deviceFound
      dsimp only
      split
      · exact (created.putDiscovery k _).endDiscovery k _
      · exact created.afterAddress k _
    · exact h.afterAddress k _

theorem RunsOn.discoveryCut (h : RunsOn off s u) (k : Seg) : RunsOn off s (u.discoveryCut k) := by
  unfold State.discoveryCut
  split
  · exact h
  · dsimp only
    split
    · exact (h.putDiscovery k _).endDiscovery k _
    · exact h.putDiscovery k _

theorem RunsOn.closeDownstream (h : RunsOn off s u) (k : Seg) : RunsOn off s (u.closeDownstream k) := by
  rw [closeDownstream_eq]
  exact h.setUp _

theorem RunsOn.forwardLost (h : RunsOn off s u) (k : Seg) (x : Tx) : RunsOn off s (u.forwardLost k x) := by
  rw [forwardLost_eq]
  exact h.setUp _

theorem RunsOn.stallOver (h : RunsOn (some k) s u) (x : Tx) : RunsOn (some k) s (u.stallOver k x) := by
  have lost := h.forwardLost k x
  unfold State.stallOver
  split
  · exact lost.forwardOver _ true
  · exact lost.forwardOver _ true
  · split
    · exact h.deliveryOver _ true true
    · exact h
  · split
    · exact h.probeOver k x _ _
    · exact h
  · split
    · exact h.probeOver k x _ _
    · exact h
  · exact h.discoveryProbeOver k _ false

theorem RunsOn.cutOver (h : RunsOn (some k) s u) (x : Tx) : RunsOn (some k) s (u.cutOver k x) := by
  have lost := h.forwardLost k x
  unfold State.cutOver
  split
  · exact lost.forwardOver _ false
  · exact lost.forwardOver _ false
  · split
    · exact h.deliveryCut _
    · exact h
  · split
    · exact h.probeCut k x _
    · exact h
  · split
    · exact h.probeCut k x _
    · exact h
  · exact h.discoveryCut k

/-! #### The timers (R101, R107, R112) -/

theorem RunsOn.surveyPass (h : RunsOn off s u) : RunsOn off s u.surveyPass := by
  rw [surveyPass_eq, State.resurvey, State.clearUsed]
  exact (h.requestProbes u.surveyed).still (by simp) (by simp) (by simp)

theorem RunsOn.holdOffStep (h : RunsOn off s u) (i : Slot) : RunsOn off s (u.holdOffStep i) := by
  unfold State.holdOffStep
  split
  · split
    · dsimp only
      split
      · exact (h.putRec i _).requestProbe i
      · exact h.putRec i _
    · exact h
  · exact h

theorem RunsOn.holdOffSteps (h : RunsOn off s u) (es : List Slot) : RunsOn off s (u.holdOffSteps es) := by
  induction es generalizing u with
  | nil => exact h
  | cons i rest ih => exact ih (h.holdOffStep i)

theorem RunsOn.absenceSecond (h : RunsOn off s u) (i : Slot) : RunsOn off s (u.absenceSecond i) := by
  unfold State.absenceSecond
  split
  · split
    · dsimp only
      split
      · exact (h.putRec i _).absenceExpiry i
      · exact h.putRec i _
    · exact h
  · exact h

theorem RunsOn.absenceSeconds (h : RunsOn off s u) (es : List Slot) : RunsOn off s (u.absenceSeconds es) := by
  induction es generalizing u with
  | nil => exact h
  | cons i rest ih => exact ih (h.absenceSecond i)

theorem tick_engine (hr : u.inReset = false) (j : Seg) : u.tick.engine j = (u.engine j).tick := by
  rw [tick_running u hr]
  exact Quad.get_map u.eng Engine.tick j

theorem tick_blocks (u : State) : u.tick.mp = u.mp ∧ u.tick.dc = u.dc := by
  cases hr : u.inReset with
  | true => rw [tick_held u hr]; exact ⟨rfl, rfl⟩
  | false => rw [tick_running u hr]; exact ⟨rfl, rfl⟩

/-- A stall timer that runs goes on running, and no other starts (R65, log entry 3). -/
theorem RunsOn.tick (h : RunsOn off s u) : RunsOn off s u.tick := by
  cases hr : u.inReset with
  | true =>
    rw [tick_held u hr]
    exact h
  | false =>
    obtain ⟨mp, dc⟩ := tick_blocks u
    refine h.eachEngine mp dc (fun j => ?_) fun j timed => ?_
    all_goals rw [tick_engine hr]
    · exact ⟨fun _ => rfl, rfl, rfl⟩
    · intro running
      obtain ⟨x, onBus⟩ := timed fun stopped => running (congrArg (Option.map Timer.tick) stopped)
      exact ⟨x, onBus⟩

/-! #### Commands on records and discoveries (R20 to R22, R124, R136 to R143) -/

theorem RunsOn.applyThreshold (h : RunsOn off s u) (i : Slot) : RunsOn off s (u.applyThreshold i) := by
  unfold State.applyThreshold
  split
  · split
    · split
      · exact h.moveRec i _
      · exact h
    · exact h.putRec i _
  · exact h

theorem RunsOn.applyEdit (h : RunsOn off s u) (i : Slot) (r : Record) (sel : Selection) :
    RunsOn off s (u.applyEdit i r sel) := by
  have selected := h.putRec i (some (r.select sel))
  have marked : RunsOn off s (if (r.select sel).identity = r.identity then u.putRec i (some (r.select sel))
      else (u.putRec i (some (r.select sel))).markChanged i) := by
    split
    · exact selected
    · exact selected.markChanged i
  unfold State.applyEdit
  dsimp only
  split
  · exact marked.applyThreshold i
  · exact marked

theorem RunsOn.rebindMarker (h : RunsOn off s u) (i : Slot) (same : Bool) : RunsOn off s (u.rebindMarker i same) := by
  unfold State.rebindMarker
  split
  · exact h
  · refine (h.mapEngines (Engine.disown i)
      (fun x => if x.slot = some i then { x with ownsMarker := false, sameRecord := false } else x)
      (fun _ => ⟨rfl, rfl, rfl, rfl, rfl⟩) fun x => ?_).clearMarker i
    split <;> rfl

theorem RunsOn.leaveQueue (h : RunsOn off s u) (i : Slot) (old new : Seg) : RunsOn off s (u.leaveQueue i old new) := by
  unfold State.leaveQueue
  split
  · exact h
  · exact h.atEngine old _ fun _ => ⟨rfl, rfl, rfl, rfl, rfl⟩

theorem RunsOn.applyRebind (h : RunsOn off s u) (i : Slot) (r : Record) (k : Seg) (a : Addr) :
    RunsOn off s (u.applyRebind i r k a) :=
  ((((h.moveRec i _).rebindMarker i _).leaveQueue i _ _).moveNotes i false).requestProbe i

theorem RunsOn.enterRetiring (h : RunsOn off s u) (i : Slot) : RunsOn off s (u.enterRetiring i) := by
  unfold State.enterRetiring
  split
  · split
    · exact h
    · exact h.moveRec i _
  · exact h

theorem RunsOn.cancelOn (h : RunsOn off s u) (tag : Byte) (k : Seg) : RunsOn off s (u.cancelOn tag k) := by
  unfold State.cancelOn
  split
  · split
    · split
      · exact h.putDiscovery k _
      · exact h.endDiscovery k _
    · exact h
  · exact h

theorem RunsOn.cancelAll (h : RunsOn off s u) (tag : Byte) : RunsOn off s (u.cancelAll tag) :=
  (((h.cancelOn tag 0).cancelOn tag 1).cancelOn tag 2).cancelOn tag 3

/-- New settings touch an engine in its rate alone (R64, R149). -/
theorem RunsOn.retime (h : RunsOn off s u) (t : Timing) : RunsOn off s (u.retime t) := by
  have engines := fun j => retime_engine (s := u) (t := t) j
  refine h.eachEngine rfl rfl (fun j => ?_) fun j timed running => ?_
  all_goals rw [engines] at *
  · exact ⟨fun _ => rfl, rfl, rfl⟩
  · exact timed running

end Sys2Proof.Machine
end

section
namespace Sys2Proof.Machine

variable {off : Option Seg} {joined taken : Nat} {s u v t : State} {k : Seg} {x : Tx} {w : LongWork}

/-! ### The flags of the engines, and who waits for them (R52, R73, R74, R146) -/

/-- What FlagsLaw says of one engine, a PAUSE or a RESUME waiting on it or not. -/
structure Engine.Flagged (e : Engine) (pause resume : Bool) : Prop where
  pause : e.pausePending = pause
  resume : e.resumeWaiting = resume
  busy : e.pausePending = true → e.state = .active ∨ e.state = .recovering
  recovers : e.resumeWaiting = true → e.state = .recovering
  one : (e.pausePending && e.resumeWaiting) = false

/-- FlagsLaw inside an event: a command answered in the event waits no more. -/
def State.FlagsStand (s : State) : Prop := ∀ k, (s.engine k).Flagged (s.awaits (.pause k)) (s.awaits (.resume k))

theorem Engine.Flagged.unset {e : Engine} (pause : e.pausePending = false) (resume : e.resumeWaiting = false) :
    e.Flagged false false :=
  ⟨pause, resume, fun h => Bool.noConfusion (pause.symm.trans h), fun h => Bool.noConfusion (resume.symm.trans h), by
    rw [pause]; rfl⟩

theorem Engine.Flagged.sameFlags {e e' : Engine} {pause resume : Bool} (h : e.Flagged pause resume)
    (g : e.SameFlags e') : e'.Flagged pause resume where
  pause := g.pause.trans h.pause
  resume := g.resume.trans h.resume
  busy hp := by
    have busy := h.busy (g.pause ▸ hp)
    rwa [g.state (by rcases busy with b | b <;> rw [b] <;> nofun)]
  recovers hr := by
    have recovers := h.recovers (g.resume ▸ hr)
    rwa [g.state (by rw [recovers]; nofun)]
  one := by
    rw [g.pause, g.resume]
    exact h.one

theorem RunsOn.flagsStand (h : RunsOn off s u) (stand : s.FlagsStand) : u.FlagsStand := fun k => by
  rw [h.waiting _ rfl, h.waiting _ rfl]
  exact (stand k).sameFlags (h.flags k)

/-- While no operation holds an answer, those that wait are those that are there. -/
theorem awaits_of_noAnswer (h : s.NoAnswerHeld) (w : LongWork) : s.awaits w = s.dc.ops.any fun o => o.work == w := by
  refine Bool.eq_iff_iff.mpr ?_
  simp only [State.awaits, List.any_eq_true, Bool.and_eq_true]
  exact exists_congr fun o => and_congr_right fun ho => and_iff_left (by rw [h o ho]; rfl)

theorem flagsLaw_iff (h : s.NoAnswerHeld) : s.FlagsLaw ↔ s.FlagsStand := by
  refine forall_congr' fun k => ?_
  rw [awaits_of_noAnswer h, awaits_of_noAnswer h]
  exact ⟨fun ⟨pause, resume, busy, recovers, one⟩ => ⟨pause, resume, busy, recovers, one⟩,
    fun ⟨pause, resume, busy, recovers, one⟩ => ⟨pause, resume, busy, recovers, one⟩⟩

theorem stallLaw_iff : s.StallLaw ↔ ∀ k, (s.engine k).Timed := by
  refine forall_congr' fun k => imp_congr_right fun _ => exists_congr fun x => and_congr_right fun _ => ?_
  exact (BusStep.released_iff x.step).symm

/-- A command that waits has not been answered when the flag is asked for (R146). -/
theorem awaits_le (h : (s.dc.ops.any fun o => o.work == w) = false) : s.awaits w = false := by
  rw [State.awaits, List.any_eq_false]
  intro o ho hw
  exact List.any_eq_false.mp h o ho (Bool.and_eq_true_iff.mp hw).1

theorem awaits_answered (u : State) {f : LongOp → Option Response} (answers : ∀ o, (f o).isSome = true ↔ o.work = w)
    (w' : LongWork) : (u.settleOps f).awaits w' = (u.awaits w' && w' != w) := by
  unfold State.awaits State.settleOps
  rw [setDc_dc, List.any_map]
  refine Bool.eq_iff_iff.mpr ?_
  simp only [List.any_eq_true, Bool.and_eq_true, bne_iff_ne, Function.comp_apply, beq_iff_eq]
  constructor
  · rintro ⟨o, ho, hw, ha⟩
    cases hn : o.answer with
    | some r => simp [hn] at ha
    | none =>
      rw [hn] at hw ha
      refine ⟨⟨o, ho, hw, by rw [hn]; rfl⟩, fun e => ?_⟩
      have given := (answers o).mpr (hw.trans e)
      simp only [Option.isNone_iff_eq_none] at ha
      rw [ha] at given
      cases given
  · rintro ⟨⟨o, ho, hw, ha⟩, other⟩
    refine ⟨o, ho, ?_⟩
    rw [Option.isNone_iff_eq_none.mp ha]
    refine ⟨hw, ?_⟩
    cases hf : f o with
    | none => rfl
    | some r => exact absurd (hw.symm.trans ((answers o).mp (by rw [hf]; rfl))) other

theorem awaits_answerPause (u : State) (k : Seg) (code : ResultCode) (w : LongWork) :
    (u.answerPause k code).awaits w = (u.awaits w && w != .pause k) :=
  awaits_answered u (fun o => by by_cases h : o.work = .pause k <;> simp [h]) w

theorem awaits_answerResume (u : State) (k : Seg) (code : ResultCode) (w : LongWork) :
    (u.answerResume k code).awaits w = (u.awaits w && w != .resume k) :=
  awaits_answered u (fun o => by by_cases h : o.work = .resume k <;> simp [h]) w

theorem awaits_modEngine (u : State) (k : Seg) (f : Engine → Engine) (w : LongWork) :
    (u.modEngine k f).awaits w = u.awaits w := rfl

theorem engine_answerPause (u : State) (k j : Seg) (code : ResultCode) : (u.answerPause k code).engine j = u.engine j := rfl

theorem engine_answerResume (u : State) (k j : Seg) (code : ResultCode) :
    (u.answerResume k code).engine j = u.engine j := rfl

theorem engine_addOp (u : State) (w : LongWork) (tag : Byte) (j : Seg) : (u.addOp w tag).engine j = u.engine j := rfl

theorem awaits_addOp (u : State) (w' w : LongWork) (tag : Byte) :
    (u.addOp w' tag).awaits w = (u.awaits w || w' == w) := by
  simp [State.awaits, State.addOp, List.any_append]

theorem awaits_enterPaused (u : State) (k : Seg) (w : LongWork) :
    (u.enterPaused k).awaits w = (u.awaits w && w != .pause k) :=
  (awaits_of_dc (enterPaused_dc u k) w).trans (awaits_answerPause u k .done w)

/-! ### One engine turns to another state -/

/-- From `u` to `v` engine `k` turns to another state or sets or clears a flag, `joined` commands have joined DC's
operations, and what is not engine `k`'s runs on. -/
structure Turns (off : Option Seg) (k : Seg) (joined : Nat) (u v : State) : Prop where
  mp : v.mp = u.mp
  count : v.dc.ops.length = u.dc.ops.length + joined
  waiting : ∀ w, w.flagged = true → w ≠ .pause k → w ≠ .resume k → v.awaits w = u.awaits w
  flags : ∀ j, j ≠ k → (u.engine j).SameFlags (v.engine j)
  timers : ∀ j, (off ≠ some j → (u.engine j).Timed) → (v.engine j).Timed

/-- A change of the engine: its stall timer is stopped or, if the engine has its transaction on the bus, left alone. -/
theorem Turns.modEngine (u : State) (k : Seg) (f : Engine → Engine)
    (timer : (off ≠ some k → (u.engine k).Timed) → (f (u.engine k)).Timed)
    (others : off = none ∨ off = some k) : Turns off k 0 u (u.modEngine k f) := by
  refine ⟨rfl, rfl, fun _ _ _ _ => rfl, fun j hj => ?_, fun j hj => ?_⟩
  · rw [engine_modEngine_other _ hj]
    exact .refl _
  · rw [engine_modEngine]
    split
    · rename_i here
      exact timer fun h => here ▸ hj (here ▸ h)
    · rename_i here
      refine hj ?_
      rcases others with rfl | rfl
      · nofun
      · exact fun e => here (Option.some.inj e).symm

/-- A change of the engine's state and flags alone. -/
theorem Turns.setFlags (u : State) (k : Seg) (f : Engine → Engine) (same : ∀ e, (f e).tx = e.tx ∧ (f e).stall = e.stall) :
    Turns none k 0 u (u.modEngine k f) := by
  refine .modEngine u k f (fun timed => ?_) (.inl rfl)
  obtain ⟨tx, stall⟩ := same (u.engine k)
  unfold Engine.Timed
  rw [tx, stall]
  exact timed nofun

/-- With its stall timer stopped, it does not matter what the engine's bus shows. -/
theorem Turns.stopped (u : State) (k : Seg) (f : Engine → Engine) (stopped : (f (u.engine k)).stall = none) :
    Turns (some k) k 0 u (u.modEngine k f) :=
  .modEngine u k f (fun _ running => absurd stopped running) (.inr rfl)

theorem Turns.runsOn (h : Turns off k joined u v) (g : RunsOn none v t) : Turns off k joined u t where
  mp := g.mp.trans h.mp
  count := g.count.trans h.count
  waiting w hw hp hr := (g.waiting w hw).trans (h.waiting w hw hp hr)
  flags j hj := (h.flags j hj).trans (g.flags j)
  timers j hj := g.timers j nofun (h.timers j hj)

/-- The PAUSE or RESUME that waits on the engine may be answered. -/
theorem Turns.answer (h : Turns off k joined u v) (dc : t.dc.ops.length = v.dc.ops.length) (mp : t.mp = v.mp)
    (eng : t.eng = v.eng) (w' : LongWork) (waits : ∀ w, t.awaits w = (v.awaits w && w != w'))
    (here : w' = .pause k ∨ w' = .resume k) : Turns off k joined u t where
  mp := mp.trans h.mp
  count := dc.trans h.count
  waiting w hw hp hr := by
    have other : (w != w') = true := by
      rw [bne_iff_ne]
      rcases here with rfl | rfl
      · exact hp
      · exact hr
    rw [waits, other, Bool.and_true]
    exact h.waiting w hw hp hr
  flags j hj := by
    rw [engine_of_eng eng]
    exact h.flags j hj
  timers j hj := by
    rw [engine_of_eng eng]
    exact h.timers j hj

theorem Turns.answerPause (h : Turns off k joined u v) (code : ResultCode) :
    Turns off k joined u (v.answerPause k code) :=
  h.answer (List.length_map ..) rfl rfl _ (awaits_answerPause v k code) (.inl rfl)

theorem Turns.answerResume (h : Turns off k joined u v) (code : ResultCode) :
    Turns off k joined u (v.answerResume k code) :=
  h.answer (List.length_map ..) rfl rfl _ (awaits_answerResume v k code) (.inr rfl)

theorem Turns.addOp (h : Turns off k joined u v) (tag : Byte) (here : w = .pause k ∨ w = .resume k) :
    Turns off k (joined + 1) u (v.addOp w tag) where
  mp := h.mp
  count := by
    have added : (v.addOp w tag).dc.ops.length = v.dc.ops.length + 1 := List.length_append ..
    rw [added, h.count, Nat.add_assoc]
  waiting w' hw hp hr := by
    have other : (w == w') = false := by
      rw [beq_eq_false_iff_ne]
      rcases here with rfl | rfl
      · exact hp.symm
      · exact hr.symm
    rw [awaits_addOp, other, Bool.or_false]
    exact h.waiting w' hw hp hr
  flags := h.flags
  timers := h.timers

theorem enterPaused_turns (u : State) (k : Seg) : Turns (some k) k 0 u (u.enterPaused k) := by
  have paused := (Turns.stopped u k (fun e => { e with
    state := .paused, pausePending := false, tx := none, stall := none, attempt := none }) rfl).answerPause .done
  exact paused.runsOn ((RunsOn.refl none _).withdraw k .standIn)

theorem enterRecovering_turns (u : State) (k : Seg) : Turns (some k) k 0 u (u.enterRecovering k) :=
  .stopped u k Engine.toRecovering rfl

/-- Once the engine has failed, all that R71 lists before its answers runs on: no other flag stands or falls with it. -/
theorem failing_runsOn (u : State) (k : Seg) :
    RunsOn none (u.failing k) ((u.failedRefused k).endDiscovery k .segmentFault) := by
  have emptied : RunsOn none (u.failing k) (u.failedEmptied k) :=
    ((RunsOn.refl none _).withdraw k .standIn).purgeAndRetire k _
  have refused : RunsOn none (u.failing k) (u.failedRefused k) := by
    refine RunsOn.refuseProbes ?_ _
    exact emptied.atEngine k _ fun _ => ⟨rfl, rfl, rfl, rfl, rfl⟩
  exact refused.endDiscovery k .segmentFault

/-- The PAUSE and the RESUME that wait on an engine that enters FAILED are answered (R71, R145). -/
theorem enterFailed_turns (u : State) (k : Seg) : Turns (some k) k 0 u (u.enterFailed k) := by
  have failed : Turns (some k) k 0 u (u.failing k) := .stopped u k _ rfl
  have answered := ((failed.runsOn (failing_runsOn u k)).answerPause .segmentFault).answerResume .segmentFault
  rw [enterFailed_eq]
  exact answered.runsOn ((RunsOn.refl none _).still rfl rfl rfl)

/-! ### Inside an event (R132, R167) -/

/-- Commands queued, taken and not answered, and answered and not popped (R167). -/
def State.owing (s : State) : Nat := s.mp.commands.length + s.dc.ops.length + s.mp.responses.length

/-- `u` is reached in an event from `s`, in which `taken` commands have left the queue and have neither been answered nor
joined DC's operations; the bus of engine `off` is being released. -/
structure Underway (off : Option Seg) (taken : Nat) (s u : State) : Prop where
  counted : s.OutstandingLaw → u.mp.outstanding = u.owing + taken ∧ u.mp.outstanding ≤ 8
  flags : s.TxLaw → s.FlagsLaw → u.FlagsStand
  timers : s.StallLaw → ∀ j, off ≠ some j → (u.engine j).Timed

/-- What CommandLawsKept says of a step from `s` to `t`. -/
structure KeepsCommandLaws (s t : State) : Prop where
  noAnswer : t.NoAnswerHeld
  outstanding : s.OutstandingLaw → t.OutstandingLaw
  flags : s.TxLaw → s.FlagsLaw → t.FlagsLaw
  stall : s.StallLaw → t.StallLaw

theorem Underway.refl (h : s.NoAnswerHeld) : Underway none 0 s s :=
  ⟨id, fun _ => (flagsLaw_iff h).mp, fun stall j _ => stallLaw_iff.mp stall j⟩

/-- DC has taken the head of the command queue. -/
theorem Underway.take (h : s.NoAnswerHeld) {c : Command} {rest : List Command} (head : s.mp.commands = c :: rest) :
    Underway none 1 s (s.taken rest) := by
  have same := Underway.refl h
  refine ⟨fun law => ?_, same.flags, same.timers⟩
  obtain ⟨equal, atMost⟩ := law
  refine ⟨?_, atMost⟩
  rw [head] at equal
  change s.mp.outstanding = rest.length + s.dc.ops.length + s.mp.responses.length + 1
  rw [equal, List.length_cons]
  omega

theorem Underway.runsOn (h : Underway off taken s u) (g : RunsOn off u v) : Underway off taken s v where
  counted law := by
    rw [State.owing, g.mp, g.count]
    exact h.counted law
  flags tx law := g.flagsStand (h.flags tx law)
  timers law j hj := g.timers j hj (h.timers law j hj)

theorem Underway.weaken (h : Underway none taken s u) (off : Option Seg) : Underway off taken s u :=
  { h with timers := fun law j _ => h.timers law j nofun }

/-- One engine has turned, and its flags are those of what waits on it. -/
theorem Underway.turned (h : Underway off (taken + joined) s u) (turn : Turns off k joined u v)
    (flagged : s.TxLaw → u.FlagsStand → (v.engine k).Flagged (v.awaits (.pause k)) (v.awaits (.resume k))) :
    Underway none taken s v where
  counted law := by
    have before := h.counted law
    rw [State.owing] at before ⊢
    rw [turn.mp, turn.count]
    omega
  flags tx law j := by
    have stand := h.flags tx law
    by_cases here : j = k
    · rw [here]
      exact flagged tx stand
    · have other : ∀ a : Seg, a = j → a ≠ k := fun a e => e ▸ here
      rw [turn.waiting (.pause j) rfl (by simpa using here) nofun,
        turn.waiting (.resume j) rfl nofun (by simpa using here)]
      exact (stand j).sameFlags (turn.flags j here)
  timers law j _ := turn.timers j (h.timers law j)

theorem Underway.addOp (h : Underway none 1 s u) (tag : Byte) (quiet : w.flagged = false) :
    Underway none 0 s (u.addOp w tag) where
  counted law := by
    have before := h.counted law
    have added : (u.addOp w tag).owing = u.owing + 1 := by
      simp only [State.owing, State.addOp, setDc_dc, setDc_mp, List.length_append, List.length_singleton]
      omega
    rw [added]
    exact before
  flags tx law k := by
    rw [awaits_addOp, awaits_addOp, beq_false_of_ne (LongWork.ne_of_flagged rfl quiet).symm,
      beq_false_of_ne (LongWork.ne_of_flagged rfl quiet).symm, Bool.or_false, Bool.or_false]
    exact h.flags tx law k
  timers := h.timers

/-! #### The end of the event (R132, R167) -/

theorem Underway.between (h : Underway none 0 s t) (noAnswer : t.NoAnswerHeld) : KeepsCommandLaws s t :=
  ⟨noAnswer, h.counted, fun tx law => (flagsLaw_iff noAnswer).mpr (h.flags tx law),
    fun law => stallLaw_iff.mpr fun j => h.timers law j nofun⟩

/-- The answers leave DC's operations for the response queue, so the count stays. -/
theorem deliver_owing (u : State) : u.deliver.owing = u.owing := by
  have parts : ∀ ops : List LongOp, (ops.filter fun o => o.answer.isNone).length +
      (ops.filterMap fun o => o.answer).length = ops.length := fun ops => by
    induction ops with
    | nil => rfl
    | cons o rest ih =>
      cases ha : o.answer with
      | none => simp only [List.filter_cons, List.filterMap_cons, ha, Option.isNone_none, if_true, List.length_cons]; omega
      | some r => simp only [List.filter_cons, List.filterMap_cons, ha, Option.isNone_some, Bool.false_eq_true, if_false,
          List.length_cons]; omega
  have split := parts u.dc.ops
  simp only [State.owing, deliver_dc, deliver_mp, List.length_append]
  omega

theorem deliver_awaits (u : State) (w : LongWork) : u.deliver.awaits w = u.awaits w := by
  unfold State.awaits
  rw [deliver_dc, List.any_filter]
  congr 1
  funext o
  cases o.answer <;> simp

theorem Underway.deliver (h : Underway none taken s u) : Underway none taken s u.deliver where
  counted law := by
    rw [deliver_owing]
    exact h.counted law
  flags tx law k := by
    rw [deliver_awaits, deliver_awaits]
    exact h.flags tx law k
  timers := h.timers

theorem Underway.evaluate (h : Underway off taken s u) : Underway off taken s u.evaluate :=
  ⟨h.counted, h.flags, h.timers⟩

theorem Underway.conclude (h : Underway none 0 s u) : KeepsCommandLaws s u.conclude :=
  h.deliver.evaluate.between (conclude_noAnswer u)

theorem Underway.settle (h : Underway none 0 s u) (low : LowLines) : KeepsCommandLaws s (u.settle low) :=
  (h.runsOn ((RunsOn.refl none u).arbitrateAll low)).conclude

/-- The command taken is answered in its event. -/
theorem Underway.concludeWith (h : Underway none 1 s u) (r : Response) : KeepsCommandLaws s (u.concludeWith r) := by
  have delivered := h.deliver
  refine Underway.between ⟨fun law => ?_, delivered.flags, delivered.timers⟩ (conclude_noAnswer u)
  obtain ⟨equal, atMost⟩ := delivered.counted law
  have pushed : (u.concludeWith r).owing = u.deliver.owing + 1 := by
    simp only [State.owing, State.concludeWith, State.pushResponse, evaluate_mp, evaluate_dc, setMp_mp, setMp_dc,
      List.length_append, List.length_singleton]
    omega
  rw [pushed]
  exact ⟨equal, atMost⟩

theorem Underway.answer (h : Underway none 1 s u) (c : Command) (code : ResultCode) :
    KeepsCommandLaws s (u.answer c code) := h.concludeWith _

theorem Underway.answerDone (h : Underway none 1 s u) (c : Command) (results : List Byte) :
    KeepsCommandLaws s (u.answerDone c results) := h.concludeWith _

theorem Underway.settleDone (h : Underway none 1 s u) (low : LowLines) (c : Command) (results : List Byte) :
    KeepsCommandLaws s (u.settleDone low c results) :=
  (h.runsOn ((RunsOn.refl none u).arbitrateAll low)).concludeWith _

/-- An event in which nothing is answered. -/
theorem RunsOn.quiet (h : RunsOn none s t) (noAnswer : s.NoAnswerHeld) (dc : t.dc = s.dc) : KeepsCommandLaws s t :=
  ((Underway.refl noAnswer).runsOn h).between fun o ho => noAnswer o (dc ▸ ho)

theorem KeepsCommandLaws.refl (noAnswer : s.NoAnswerHeld) : KeepsCommandLaws s s := (RunsOn.refl none s).quiet noAnswer rfl

end Sys2Proof.Machine
end

section
namespace Sys2Proof.Machine

variable {off : Option Seg} {joined taken : Nat} {s u v t : State} {k : Seg} {x : Tx}

/-! ### Buses that are left, and recoveries (R58, R69 to R71, R73) -/

/-- An engine that enters PAUSED has no flag left: no RESUME waits on an engine that is PAUSED or about to be. -/
theorem enterPaused_flagged (stand : u.FlagsStand) (unresumed : (u.engine k).resumeWaiting = false) :
    ((u.enterPaused k).engine k).Flagged ((u.enterPaused k).awaits (.pause k)) ((u.enterPaused k).awaits (.resume k)) := by
  have resume : u.awaits (.resume k) = false := (stand k).resume.symm.trans unresumed
  rw [awaits_enterPaused, awaits_enterPaused, resume, bne_self_eq_false, Bool.and_false, Bool.false_and]
  refine .unset ?_ ?_ <;> rw [enterPaused_engine, if_pos rfl]
  exact unresumed

/-- The end of a transaction of engine `k`, once its bus is released (R58). -/
theorem RunsOn.releaseBus (h : RunsOn (some k) s u) (noAnswer : s.NoAnswerHeld) (onBus : (s.engine k).tx.isSome = true) :
    Underway none 0 s (u.releaseBus k) := by
  have before := ((Underway.refl noAnswer).weaken (some k)).runsOn h
  have unresumed : s.TxLaw → u.FlagsStand → (u.engine k).resumeWaiting = false := fun tx stand => by
    have active := (tx k).mp onBus
    have same := (h.flags k).state (by rw [active]; nofun)
    refine Bool.eq_false_iff.mpr fun waits => ?_
    have recovering := (stand k).recovers waits
    rw [same, active] at recovering
    cases recovering
  unfold State.releaseBus
  split
  · exact before.turned (enterPaused_turns u k) fun tx stand => enterPaused_flagged stand (unresumed tx stand)
  · rename_i unpaused
    refine before.turned (joined := 0) (.stopped u k _ rfl) fun tx stand => ?_
    have pause := Bool.eq_false_iff.mpr unpaused
    have resume := unresumed tx stand
    have flags := stand k
    rw [awaits_modEngine, awaits_modEngine, ← flags.pause, ← flags.resume, pause, resume, engine_modEngine_self]
    exact .unset pause resume

/-- RECOVERING is a state in which either flag may stand (R52). -/
theorem RunsOn.enterRecovering (h : RunsOn (some k) s u) (noAnswer : s.NoAnswerHeld) :
    Underway none 0 s (u.enterRecovering k) := by
  have before := ((Underway.refl noAnswer).weaken (some k)).runsOn h
  refine before.turned (joined := 0) (enterRecovering_turns u k) fun tx stand => ?_
  obtain ⟨pause, resume, -, -, one⟩ := stand k
  rw [State.enterRecovering, engine_modEngine_self]
  exact ⟨pause, resume, fun _ => .inr rfl, fun _ => rfl, one⟩

theorem enterFailed_flagged (u : State) (k : Seg) :
    ((u.enterFailed k).engine k).Flagged ((u.enterFailed k).awaits (.pause k)) ((u.enterFailed k).awaits (.resume k)) := by
  have kept := (failing_runsOn u k).flags k
  rw [State.failing, engine_modEngine_self] at kept
  obtain ⟨-, pause, resume⟩ := kept
  rw [enterFailed_eq]
  generalize (u.failedRefused k).endDiscovery k .segmentFault = v at pause resume
  have waits : ∀ w, (((v.answerPause k .segmentFault).answerResume k .segmentFault).markFault k
      fun m => { m with failed := true }).awaits w = ((v.awaits w && w != .pause k) && w != .resume k) := fun w => by
    rw [← awaits_answerPause v k .segmentFault, ← awaits_answerResume _ k .segmentFault]
    rfl
  rw [waits, waits, bne_self_eq_false, bne_self_eq_false, Bool.and_false, Bool.and_false, Bool.false_and]
  exact .unset pause resume

/-- An attempt fails: the engine waits for the next one, or enters FAILED (R69, R71). -/
theorem Underway.attemptFails (h : Underway none 0 s u) (k : Seg) : Underway none 0 s (u.attemptFails k) := by
  have counted := fun timer : Timer => h.runsOn ((RunsOn.refl none u).atEngine k
    (fun e => { e with attemptCount := e.attemptCount + 1, attempt := some timer }) fun _ => ⟨rfl, rfl, rfl, rfl, rfl⟩)
  unfold State.attemptFails
  dsimp only
  split
  · exact counted _
  · exact ((counted _).weaken (some k)).turned (joined := 0) (enterFailed_turns _ k) fun _ _ => enterFailed_flagged _ k

/-- An engine that is RECOVERING enters PAUSED where a PAUSE waits, and IDLE with any waiting RESUME answered where none
does (R70). -/
theorem Underway.attemptSucceeds (h : Underway none 0 s u) : Underway none 0 s (u.attemptSucceeds k) := by
  have freed : RunsOn none u (u.recovered k) :=
    ((RunsOn.refl none u).atEngine k (fun e => { e with attemptCount := 0, attempt := none })
      fun _ => ⟨rfl, rfl, rfl, rfl, rfl⟩).still rfl rfl rfl
  have before := h.runsOn freed
  have engine : (u.recovered k).engine k = { u.engine k with attemptCount := 0, attempt := none } := by
    rw [recovered_engine, if_pos rfl]
  rw [attemptSucceeds_eq]
  split
  · rename_i paused
    refine (before.weaken (some k)).turned (joined := 0) (enterPaused_turns _ k) fun _ stand => enterPaused_flagged stand ?_
    have one := (stand k).one
    rw [engine] at one ⊢
    rw [paused, Bool.true_and] at one
    exact one
  · rename_i unpaused
    have pause := Bool.eq_false_iff.mpr unpaused
    split
    · have turns := (Turns.setFlags (u.recovered k) k (fun e => { e with state := .idle, resumeWaiting := false })
        fun _ => ⟨rfl, rfl⟩).answerResume .done
      refine (before.turned (joined := 0) turns fun _ stand => ?_).runsOn ((RunsOn.refl none _).requestProbes _)
      have unwaited := (stand k).pause
      rw [engine] at unwaited
      rw [awaits_answerResume, awaits_answerResume, bne_self_eq_false, Bool.and_false, awaits_modEngine, ← unwaited,
        pause, Bool.false_and, engine_answerResume, engine_modEngine_self, engine]
      exact .unset pause rfl
    · rename_i unresumed
      have resume := Bool.eq_false_iff.mpr unresumed
      refine before.turned (joined := 0) (.setFlags _ k _ fun _ => ⟨rfl, rfl⟩) fun _ stand => ?_
      have unwaited := stand k
      rw [engine] at unwaited
      rw [awaits_modEngine, awaits_modEngine, ← unwaited.pause, ← unwaited.resume, pause, resume, engine_modEngine_self,
        engine]
      exact .unset pause resume

/-! ### The commands that set and clear the flags (R73, R74, R146) -/

/-- With no RESUME waiting on it, an engine takes a PAUSE by its state (R73). -/
theorem Underway.presentPause (h : Underway none 1 s u) (c : Command) (unresumed : u.waitsResume k = false) : KeepsCommandLaws s (u.presentPause c k) := by
  have resume : u.FlagsStand → (u.engine k).resumeWaiting = false := fun stand =>
    (stand k).resume.trans (awaits_le unresumed)
  have waits : ∀ state, state = .active ∨ state = .recovering → (u.engine k).state = state →
      KeepsCommandLaws s (((u.modEngine k fun e => { e with pausePending := true }).addOp (.pause k) c.tag).conclude) := by
    intro state busy hs
    have pending : Turns none k 1 u ((u.modEngine k fun e => { e with pausePending := true }).addOp (.pause k) c.tag) :=
      (Turns.setFlags u k (fun e => { e with pausePending := true }) fun _ => ⟨rfl, rfl⟩).addOp c.tag (.inl rfl)
    refine (h.turned (taken := 0) pending fun _ stand => ?_).conclude
    have off := resume stand
    rw [awaits_addOp, awaits_addOp, beq_self_eq_true, Bool.or_true, awaits_modEngine, awaits_le unresumed,
      engine_addOp, engine_modEngine_self]
    exact ⟨rfl, off, fun _ => hs ▸ busy, fun on => Bool.noConfusion (off.symm.trans on), off⟩
  unfold State.presentPause
  split
  · have paused := (h.weaken (some k)).turned (taken := 1) (joined := 0) (enterPaused_turns u k)
      fun _ stand => enterPaused_flagged stand (resume stand)
    exact paused.answerDone c _
  · rename_i hs
    exact waits _ (.inl rfl) hs
  · rename_i hs
    exact waits _ (.inr rfl) hs
  · exact h.answerDone c _
  · exact h.answer c _

theorem Underway.runPause (h : Underway none 1 s u) (c : Command) : KeepsCommandLaws s (u.runPause c) := by
  unfold State.runPause
  split
  · exact h.answer c _
  · split
    · exact h.answer c _
    · rename_i free
      exact h.presentPause c (Bool.or_eq_false_iff.mp (Bool.eq_false_iff.mpr free)).2

/-- With no RESUME waiting on it, an engine takes a RESUME by its state (R74). -/
theorem Underway.presentResume (h : Underway none 1 s u) (low : LowLines) (c : Command)
    (unresumed : u.waitsResume k = false) : KeepsCommandLaws s (u.presentResume low c k) := by
  have resume : u.FlagsStand → (u.engine k).resumeWaiting = false := fun stand =>
    (stand k).resume.trans (awaits_le unresumed)
  have unset : u.FlagsStand → (u.engine k).state ≠ .active → (u.engine k).state ≠ .recovering →
      (u.engine k).pausePending = false := fun stand active recovering =>
    Bool.eq_false_iff.mpr fun on => ((stand k).busy on).elim active recovering
  have withdrawn : KeepsCommandLaws s (((u.modEngine k fun e => { e with pausePending := false }).answerPause k
      .cancelled).answerDone c []) := by
    have turns : Turns none k 0 u ((u.modEngine k fun e => { e with pausePending := false }).answerPause k .cancelled) :=
      (Turns.setFlags u k (fun e => { e with pausePending := false }) fun _ => ⟨rfl, rfl⟩).answerPause .cancelled
    refine (h.turned (taken := 1) turns fun _ stand => ?_).answerDone c _
    rw [awaits_answerPause, awaits_answerPause, bne_self_eq_false, Bool.and_false, awaits_modEngine,
      awaits_le unresumed, Bool.false_and, engine_answerPause, engine_modEngine_self]
    exact .unset rfl (resume stand)
  unfold State.presentResume
  split
  · rename_i hs
    have idle : Turns none k 0 u (u.modEngine k fun e => { e with state := .idle }) :=
      .setFlags u k _ fun _ => ⟨rfl, rfl⟩
    refine (h.turned (taken := 1) idle fun _ stand => ?_).settleDone low c _
    have pause := unset stand (by rw [hs]; nofun) (by rw [hs]; nofun)
    rw [awaits_modEngine, awaits_modEngine, ← (stand k).pause, pause, awaits_le unresumed, engine_modEngine_self]
    exact .unset pause (resume stand)
  · exact withdrawn
  · exact withdrawn
  · exact h.answerDone c _
  · rename_i hs
    have turns : Turns (some k) k 1 u (((u.modEngine k fun e => { e with resumeWaiting := true }).enterRecovering
        k).addOp (.resume k) c.tag) := by
      rw [State.enterRecovering, modEngine_modEngine]
      exact (Turns.stopped u k _ rfl).addOp c.tag (.inr rfl)
    refine ((h.weaken (some k)).turned (taken := 0) turns fun _ stand => ?_).conclude
    have pause := unset stand (by rw [hs]; nofun) (by rw [hs]; nofun)
    rw [awaits_addOp, awaits_addOp, beq_self_eq_true, Bool.or_true, State.enterRecovering, modEngine_modEngine,
      awaits_modEngine, ← (stand k).pause, pause, engine_addOp, engine_modEngine_self]
    exact ⟨pause, rfl, fun on => Bool.noConfusion (pause.symm.trans on), fun _ => rfl, by
      change ((u.engine k).pausePending && true) = false
      rw [pause, Bool.false_and]⟩

theorem Underway.runResume (h : Underway none 1 s u) (low : LowLines) (c : Command) :
    KeepsCommandLaws s (u.runResume low c) := by
  unfold State.runResume
  split
  · exact h.answer c _
  · split
    · exact h.answer c _
    · rename_i free
      exact h.presentResume low c (Bool.eq_false_iff.mpr free)

end Sys2Proof.Machine
end

section
namespace Sys2Proof.Machine

variable {s u t : State} {k : Seg} {x : Tx}

/-! ### The commands that leave the flags alone (R131, R132)

Each is answered in its event or joins DC's operations. -/

theorem Underway.runLookup (h : Underway none 1 s u) (c : Command) : KeepsCommandLaws s (u.runLookup c) := by
  unfold State.runLookup
  split
  · exact h.answer c _
  · split
    · exact h.answer c _
    · split
      · exact h.answer c _
      · exact h.answerDone c _

theorem Underway.runBind (h : Underway none 1 s u) (low : LowLines) (c : Command) :
    KeepsCommandLaws s (u.runBind low c) := by
  unfold State.runBind
  split
  · exact h.answer c _
  · split
    · exact h.answer c _
    · exact (h.runsOn (((RunsOn.refl none u).createRec _ _).requestProbe _)).settleDone low c _

theorem Underway.runEdit (h : Underway none 1 s u) (c : Command) : KeepsCommandLaws s (u.runEdit c) := by
  unfold State.runEdit
  split
  · exact h.answer c _
  · split
    · exact h.answer c _
    · split
      · exact h.answer c _
      · split
        · exact h.answer c _
        · exact (h.runsOn ((RunsOn.refl none u).applyEdit _ _ _)).answerDone c _

theorem Underway.runRebind (h : Underway none 1 s u) (low : LowLines) (c : Command) :
    KeepsCommandLaws s (u.runRebind low c) := by
  unfold State.runRebind
  split
  · exact h.answer c _
  · split
    · exact h.answer c _
    · exact (h.runsOn ((RunsOn.refl none u).applyRebind _ _ _ _)).settleDone low c _
    · exact h.answer c _

/-- A RETIRE is answered where its slot is FREE, and else waits (R21, R22). -/
theorem Underway.finishRetire (h : Underway none 1 s u) (c : Command) (i : Slot) (removed : Nat) :
    KeepsCommandLaws s (u.finishRetire c i removed) := by
  have same := RunsOn.refl none u
  unfold State.finishRetire
  split
  · exact h.answerDone c _
  · split
    · exact ((h.runsOn (same.enterRetiring i)).addOp c.tag rfl).conclude
    · exact (h.runsOn (same.freeSlot i)).answerDone c _

theorem Underway.runRetire (h : Underway none 1 s u) (c : Command) : KeepsCommandLaws s (u.runRetire c) := by
  have answered := fun i => (RunsOn.refl none u).answerProbes i .retired
  unfold State.runRetire
  split
  · exact h.answer c _
  · split
    · exact h.answer c _
    · split
      · exact h.answer c _
      · unfold State.applyRetire
        dsimp only
        split
        · exact (h.runsOn ((answered _).purgeAndRetire _ _)).finishRetire c _ _
        · exact (h.runsOn (answered _)).finishRetire c _ 0

theorem Underway.runClearCounts (h : Underway none 1 s u) (c : Command) : KeepsCommandLaws s (u.runClearCounts c) := by
  have same := RunsOn.refl none u
  unfold State.runClearCounts
  split
  · exact h.answer c _
  · have cleared : RunsOn none u u.clearAllCounts := same.still (setDir_mp ..) (setDir_dc ..) (setDir_eng ..)
    exact (h.runsOn cleared).answerDone c _
  · split
    · exact h.answer c _
    · exact (h.runsOn (same.modRec _ _)).answerDone c _

theorem Underway.runProbe (h : Underway none 1 s u) (low : LowLines) (c : Command) :
    KeepsCommandLaws s (u.runProbe low c) := by
  unfold State.runProbe
  split
  · exact h.answer c _
  · split
    · exact h.answer c _
    · split
      · exact h.answer c _
      · split
        · exact h.answer c _
        · exact ((h.runsOn ((RunsOn.refl none u).enqueueProbe _ _)).addOp c.tag rfl).settle low

theorem Underway.runDiscover (h : Underway none 1 s u) (low : LowLines) (c : Command) :
    KeepsCommandLaws s (u.runDiscover low c) := by
  unfold State.runDiscover
  split
  · exact h.answer c _
  · split
    · exact h.answer c _
    · split
      · exact h.answer c _
      · exact ((h.runsOn ((RunsOn.refl none u).putDiscovery _ _)).addOp c.tag rfl).settle low

theorem Underway.runCancel (h : Underway none 1 s u) (c : Command) : KeepsCommandLaws s (u.runCancel c) := by
  unfold State.runCancel
  split
  · exact h.answer c _
  · split
    · exact (h.runsOn ((RunsOn.refl none u).cancelAll _)).answerDone c _
    · exact h.answer c _

theorem Underway.runFlush (h : Underway none 1 s u) (low : LowLines) (c : Command) :
    KeepsCommandLaws s (u.runFlush low c) := by
  unfold State.runFlush
  split
  · exact h.answer c _
  · exact (h.runsOn ((RunsOn.refl none u).purgeAndRetire _ _)).settleDone low c _

theorem Underway.runPartition (h : Underway none 1 s u) (c : Command) : KeepsCommandLaws s (u.runPartition c) := by
  have shared := fun q => h.runsOn ((RunsOn.refl none u).still (t := u.setShares q) rfl rfl rfl)
  unfold State.runPartition
  split
  · exact h.answer c _
  · split
    · split
      · exact (shared _).answerDone c _
      · exact h.answer c _
    · exact h.answer c _

theorem Underway.runSetTiming (h : Underway none 1 s u) (c : Command) : KeepsCommandLaws s (u.runSetTiming c) := by
  unfold State.runSetTiming
  split
  · exact h.answer c _
  · exact (h.runsOn ((RunsOn.refl none u).retime _)).answerDone c _

theorem Underway.runSetProtect (h : Underway none 1 s u) (c : Command) : KeepsCommandLaws s (u.runSetProtect c) := by
  have set := fun p => h.runsOn ((RunsOn.refl none u).still (t := u.setPu p) rfl rfl rfl)
  unfold State.runSetProtect
  split
  · exact h.answer c _
  · split
    · exact h.answer c _
    · split
      · exact h.answer c _
      · split
        · exact h.answer c _
        · exact (set _).answerDone c _

theorem Underway.runFixProtect (h : Underway none 1 s u) (c : Command) : KeepsCommandLaws s (u.runFixProtect c) := by
  have set := fun p => h.runsOn ((RunsOn.refl none u).still (t := u.setPu p) rfl rfl rfl)
  unfold State.runFixProtect
  split
  · exact h.answer c _
  · exact (set _).answerDone c _

theorem Underway.runSetAlert (h : Underway none 1 s u) (c : Command) : KeepsCommandLaws s (u.runSetAlert c) := by
  have set := fun a => h.runsOn ((RunsOn.refl none u).still (t := u.setAu a) rfl rfl rfl)
  unfold State.runSetAlert
  split
  · exact h.answer c _
  · exact (set _).answerDone c _

theorem Underway.runChanges (h : Underway none 1 s u) (c : Command) : KeepsCommandLaws s (u.runChanges c) :=
  (h.runsOn ((RunsOn.refl none u).still (t := u.setAu u.au.emptySets) rfl rfl rfl)).answerDone c _

/-! ### Frames of the management port, resets and restarts (R162, R166 to R168, R171) -/

/-- An event of the other blocks, or a frame, that counts what it queues or takes. -/
theorem KeepsCommandLaws.port (noAnswer : s.NoAnswerHeld) (dc : t.dc = s.dc) (eng : t.eng = s.eng)
    (counted : s.OutstandingLaw → t.OutstandingLaw) : KeepsCommandLaws s t := by
  have same := Underway.refl noAnswer
  refine Underway.between ⟨counted, fun tx law k => ?_, fun law k hk => ?_⟩ fun o ho => noAnswer o (dc ▸ ho)
  · rw [awaits_of_dc dc, awaits_of_dc dc, engine_of_eng eng]
    exact same.flags tx law k
  · rw [engine_of_eng eng]
    exact same.timers law k hk

/-- A PUSH passes its checks only below the limit of the outstanding count (R166). -/
theorem checkPush_below {m : Port} {bytes : List Byte} {cmd : Command} (h : m.checkPush bytes = .ok cmd) :
    m.outstanding < 8 := by
  unfold Port.checkPush at h
  split at h
  · cases h
  · split at h
    · cases h
    · split at h
      · cases h
      · split at h
        · cases h
        · rename_i below
          exact Nat.lt_of_not_le below

theorem runPush_keepsCommandLaws (noAnswer : s.NoAnswerHeld) (bytes : List Byte) :
    KeepsCommandLaws s (s.runPush bytes) := by
  unfold State.runPush
  split
  · exact .port noAnswer rfl rfl id
  · rename_i cmd accepted
    refine .port noAnswer rfl rfl fun law => ⟨?_, checkPush_below accepted⟩
    have joined : (s.mp.commands ++ [cmd]).length = s.mp.commands.length + 1 := List.length_append ..
    change s.mp.outstanding + 1 = (s.mp.commands ++ [cmd]).length + s.dc.ops.length + s.mp.responses.length
    rw [joined, law.1]
    omega

theorem runPop_keepsCommandLaws (noAnswer : s.NoAnswerHeld) (clocks : Nat) (empty : Bool) :
    KeepsCommandLaws s (s.runPop clocks empty) := by
  unfold State.runPop
  split
  · rename_i r rest head
    split
    · exact .port noAnswer rfl rfl id
    · split
      · refine .port noAnswer rfl rfl fun law => ?_
        obtain ⟨equal, atMost⟩ := law
        refine ⟨?_, (Nat.sub_le ..).trans atMost⟩
        rw [head, List.length_cons] at equal
        change s.mp.outstanding - 1 = s.mp.commands.length + s.dc.ops.length + rest.length
        omega
      · exact .port noAnswer rfl rfl id
  · exact .port noAnswer rfl rfl id

/-- After a restart nothing is queued, nothing waits, and no flag and no stall timer stands (R76, R152, R162). -/
theorem restartBlocks_underway (s u : State) (level2 : Bool) : Underway none 0 s (u.restartBlocks level2) := by
  have engines : ∀ j, ∃ e : Engine, (u.restartBlocks level2).engine j = e.restart := fun j => by
    obtain ⟨e, he, -⟩ := restartBlocks_engine u level2 j
    exact ⟨e, he⟩
  have idle : ∀ w, (u.restartBlocks level2).awaits w = false := fun _ => rfl
  refine ⟨fun _ => ⟨rfl, Nat.zero_le _⟩, fun _ _ j => ?_, fun _ j _ => ?_⟩
  · obtain ⟨e, he⟩ := engines j
    rw [idle, idle, he]
    exact .unset rfl rfl
  · obtain ⟨e, he⟩ := engines j
    rw [he]
    exact fun running => absurd rfl running

theorem runRestart_keepsCommandLaws (noAnswer : s.NoAnswerHeld) (bytes : List Byte) (low : LowLines) :
    KeepsCommandLaws s (s.runRestart bytes low) := by
  unfold State.runRestart
  split
  · exact ((restartBlocks_underway s _ _).runsOn ((RunsOn.refl none _).requestProbes _)).settle low
  · exact .port noAnswer rfl rfl id

theorem heldReset_keepsCommandLaws (s : State) : KeepsCommandLaws s s.heldReset := by
  have laws := resetKeepsLaws
  unfold Obligations.ResetKeepsLaws at laws
  obtain ⟨-, -, -, -, -, -, flags, -, outstanding, noAnswer, -, -, stall⟩ := laws
  exact ⟨noAnswer, fun _ => outstanding, fun _ _ => flags, fun _ => stall⟩

theorem KeepsCommandLaws.frame {f : State → State} (noAnswer : s.NoAnswerHeld) (h : KeepsCommandLaws s (f s)) :
    KeepsCommandLaws s (s.frame f) := by
  rcases frame_cases s f with e | e | e <;> rw [e]
  · exact .refl noAnswer
  · exact .port noAnswer rfl rfl id
  · exact h

theorem KeepsCommandLaws.live {f : State → State} (noAnswer : s.NoAnswerHeld) (h : KeepsCommandLaws s (f s)) :
    KeepsCommandLaws s (s.live f) := by
  rcases live_cases s f with e | e <;> rw [e]
  · exact .refl noAnswer
  · exact h

theorem KeepsCommandLaws.timed {f : State → State} (noAnswer : s.NoAnswerHeld) (h : KeepsCommandLaws s (f s)) :
    KeepsCommandLaws s (s.timed f) := by
  rcases timed_cases s f with e | e <;> rw [e]
  · exact .refl noAnswer
  · exact h

theorem KeepsCommandLaws.taking {kind : CmdKind} {f : Command → State → State} (noAnswer : s.NoAnswerHeld)
    (h : ∀ c u, Underway none 1 s u → KeepsCommandLaws s (f c u)) : KeepsCommandLaws s (s.taking kind f) := by
  rcases taking_cases s kind f with e | ⟨c, rest, head, -, e⟩ <;> rw [e]
  · exact .refl noAnswer
  · exact h c _ (.take noAnswer head)

/-! ### The events of the segment buses that end a transaction (R58, R63 to R69) -/

theorem endForward_keepsCommandLaws (noAnswer : s.NoAnswerHeld) (k : Seg) (low : LowLines) :
    KeepsCommandLaws s (s.endForward k low) := by
  unfold State.endForward
  split
  · rename_i x hx
    split
    · have ended := ((RunsOn.refl (some k) s).closeDownstream k).forwardOver x.slot (decide (x.reason = some .addressNak))
      exact (ended.releaseBus noAnswer (by rw [hx]; rfl)).settle low
    · exact .refl noAnswer
  · exact .refl noAnswer

theorem endDelivery_keepsCommandLaws (noAnswer : s.NoAnswerHeld) (k : Seg) (o : DeliveryEnd) (low : LowLines) :
    KeepsCommandLaws s (s.endDelivery k o low) := by
  unfold State.endDelivery
  split
  · rename_i hx _
    split
    · exact (((RunsOn.refl _ s).deliveryOver _ _ _).releaseBus noAnswer (by rw [hx]; rfl)).settle low
    · exact .refl noAnswer
  · exact .refl noAnswer

theorem endProbe_keepsCommandLaws (noAnswer : s.NoAnswerHeld) (k : Seg) (answer : ProbeAnswer) (low : LowLines) :
    KeepsCommandLaws s (s.endProbe k answer low) := by
  unfold State.endProbe
  split
  · rename_i hx
    split
    · split
      · exact (((RunsOn.refl _ s).probeOver k _ _ answer).releaseBus noAnswer (by rw [hx]; rfl)).settle low
      · exact .refl noAnswer
    · exact .refl noAnswer
  · exact .refl noAnswer

theorem endDiscoveryProbe_keepsCommandLaws (noAnswer : s.NoAnswerHeld) (k : Seg) (found : Bool) (low : LowLines) :
    KeepsCommandLaws s (s.endDiscoveryProbe k found low) := by
  unfold State.endDiscoveryProbe
  split
  · rename_i hx
    split
    · exact (((RunsOn.refl _ s).discoveryProbeOver k _ found).releaseBus noAnswer (by rw [hx]; rfl)).settle low
    · exact .refl noAnswer
  · exact .refl noAnswer

theorem takeStall_keepsCommandLaws (noAnswer : s.NoAnswerHeld) (k : Seg) (low : LowLines) :
    KeepsCommandLaws s (s.takeStall k low) := by
  have same := RunsOn.refl (some k) s
  unfold State.takeStall
  split
  · rename_i hx _
    split
    · exact (same.releaseBus noAnswer (by rw [hx]; rfl)).settle low
    · exact ((same.stallOver _).enterRecovering noAnswer).conclude
  · exact .refl noAnswer

theorem takeFault_keepsCommandLaws (noAnswer : s.NoAnswerHeld) (k : Seg) : KeepsCommandLaws s (s.takeFault k).conclude := by
  have same := RunsOn.refl (some k) s
  unfold State.takeFault
  split
  · split
    · exact (same.enterRecovering noAnswer).conclude
    · exact ((same.cutOver _).enterRecovering noAnswer).conclude
  · exact (Underway.refl noAnswer).conclude

/-! ### Every event, and the passing of one ms -/

theorem exec_keepsCommandLaws (noAnswer : s.NoAnswerHeld) (c : Instr) (he : exec c s = .next t) :
    KeepsCommandLaws s t := by
  have same := RunsOn.refl none s
  have start := Underway.refl noAnswer
  cases c with
  | addressEvent a d low =>
    cases he
    refine .live noAnswer (Underway.settle (start.runsOn (RunsOn.resolve ?_ a d)) low)
    split
    · exact same
    · exact (same.closeForRestart false).arbitrateAll low
  | repeatedStart cut next low =>
    cases he
    have closed := same.closeForRestart cut
    refine .live noAnswer ?_
    dsimp only
    split
    · exact (start.runsOn ((closed.arbitrateAll low).resolve _ _)).settle low
    · exact (start.runsOn closed).settle low
  | stopCondition low => cases he; exact .live noAnswer ((start.runsOn same.closeForStop).settle low)
  | writeEvent b => cases he; exact .live noAnswer (start.runsOn (same.takeByte b)).conclude
  | masterReadAnswer ack => cases he; exact .live noAnswer (start.runsOn (same.takeReadAnswer ack)).conclude
  | targetAddressAnswer k ack => cases he; exact .live noAnswer (start.runsOn (same.addressAnswer k ack)).conclude
  | targetByteAnswer k ack => cases he; exact .live noAnswer (start.runsOn (same.byteAnswer k ack)).conclude
  | readByteArrives k b => cases he; exact .live noAnswer (start.runsOn (same.byteArrives k b)).conclude
  | holdLimitExpiry => cases he; exact .live noAnswer (start.runsOn same.holdExpiry).conclude
  | forwardEnd k low => cases he; exact .live noAnswer (endForward_keepsCommandLaws noAnswer k low)
  | deliveryEnd k o low => cases he; exact .live noAnswer (endDelivery_keepsCommandLaws noAnswer k o low)
  | probeEnd k answer low => cases he; exact .live noAnswer (endProbe_keepsCommandLaws noAnswer k answer low)
  | discoveryProbeEnd k found low =>
    cases he
    exact .live noAnswer (endDiscoveryProbe_keepsCommandLaws noAnswer k found low)
  | stall k clock =>
    cases he
    refine .live noAnswer ?_
    cases clock with
    | heldLow =>
      refine (same.clockHeld k).quiet noAnswer ?_
      rcases clockHeld_cases s k with e | ⟨-, -, e⟩ <;> rw [e]
      rfl
    | rises => exact (same.clockRises k).quiet noAnswer rfl
    | expires low => exact takeStall_keepsCommandLaws noAnswer k low
  | busFault k => cases he; exact .live noAnswer (takeFault_keepsCommandLaws noAnswer k)
  | recoveryAttemptSucceeds k low =>
    cases he
    split
    · exact start.attemptSucceeds.settle low
    · exact .refl noAnswer
  | recoveryAttemptFails k =>
    cases he
    split
    · exact (start.attemptFails k).conclude
    · exact .refl noAnswer
  | attemptTimerExpiry k =>
    cases he
    split
    · exact (same.atEngine k (fun e => { e with attempt := none, busRate := e.rate })
        fun _ => ⟨rfl, rfl, rfl, rfl, rfl⟩).quiet noAnswer rfl
    · exact .refl noAnswer
  | closingEnd k low =>
    cases he
    split
    · rename_i silent
      have onBus : (s.engine k).tx.isSome = true := by
        cases hx : (s.engine k).tx with
        | none => simp [State.closingSilently, hx] at silent
        | some x => rfl
      exact ((RunsOn.refl (some k) s).releaseBus noAnswer onBus).settle low
    · exact .refl noAnswer
  | surveyTimerExpiry low => cases he; exact .timed noAnswer ((start.runsOn same.surveyPass).settle low)
  | idleTimerExpiry =>
    cases he
    refine .timed noAnswer ?_
    split
    · exact .port noAnswer rfl rfl id
    · exact .refl noAnswer
  | stepTimerExpiry low =>
    cases he
    have started : RunsOn none s (s.setHm { s.hm with stepRun := 0 }) := same.still rfl rfl rfl
    exact .timed noAnswer ((start.runsOn (started.holdOffSteps allSlots)).settle low)
  | secondTimerExpiry =>
    cases he
    have started : RunsOn none s (s.setHm { s.hm with secondRun := 0 }) := same.still rfl rfl rfl
    exact .timed noAnswer (start.runsOn (started.absenceSeconds allSlots)).conclude
  | lookup => cases he; exact .taking noAnswer fun c _ h => h.runLookup c
  | bind low => cases he; exact .taking noAnswer fun c _ h => h.runBind low c
  | edit => cases he; exact .taking noAnswer fun c _ h => h.runEdit c
  | rebind low => cases he; exact .taking noAnswer fun c _ h => h.runRebind low c
  | retire => cases he; exact .taking noAnswer fun c _ h => h.runRetire c
  | clearCounts => cases he; exact .taking noAnswer fun c _ h => h.runClearCounts c
  | probe low => cases he; exact .taking noAnswer fun c _ h => h.runProbe low c
  | discover low => cases he; exact .taking noAnswer fun c _ h => h.runDiscover low c
  | cancel => cases he; exact .taking noAnswer fun c _ h => h.runCancel c
  | pause => cases he; exact .taking noAnswer fun c _ h => h.runPause c
  | resume low => cases he; exact .taking noAnswer fun c _ h => h.runResume low c
  | flush low => cases he; exact .taking noAnswer fun c _ h => h.runFlush low c
  | partition => cases he; exact .taking noAnswer fun c _ h => h.runPartition c
  | setTiming => cases he; exact .taking noAnswer fun c _ h => h.runSetTiming c
  | setProtect => cases he; exact .taking noAnswer fun c _ h => h.runSetProtect c
  | fixProtect => cases he; exact .taking noAnswer fun c _ h => h.runFixProtect c
  | setAlert => cases he; exact .taking noAnswer fun c _ h => h.runSetAlert c
  | changes => cases he; exact .taking noAnswer fun c _ h => h.runChanges c
  | status c => cases he; exact .frame noAnswer (.port noAnswer rfl rfl id)
  | writeEnable => cases he; exact .frame noAnswer (.port noAnswer rfl rfl id)
  | writeDisable => cases he; exact .frame noAnswer (.port noAnswer rfl rfl id)
  | push bytes => cases he; exact .frame noAnswer (runPush_keepsCommandLaws noAnswer bytes)
  | pop clocks empty => cases he; exact .frame noAnswer (runPop_keepsCommandLaws noAnswer clocks empty)
  | restartEnable => cases he; exact .frame noAnswer (.port noAnswer rfl rfl id)
  | restart bytes low => cases he; exact .frame noAnswer (runRestart_keepsCommandLaws noAnswer bytes low)
  | ackRestart => cases he; exact .frame noAnswer (.port noAnswer rfl rfl id)
  | unknownFrame code =>
    cases he
    split
    · exact .frame noAnswer (.port noAnswer rfl rfl id)
    · exact .refl noAnswer
  | partialFrame bits =>
    cases he
    split
    · exact .frame noAnswer (.port noAnswer rfl rfl id)
    · exact .refl noAnswer
  | emptyFrame => cases he; exact .frame noAnswer (.refl noAnswer)
  | fullReset => cases he; exact heldReset_keepsCommandLaws s
  | protChange high => cases he; exact .port noAnswer rfl rfl id
  | fullResetEnd mcs =>
    cases he
    split
    · exact .port noAnswer rfl rfl id
    · exact .refl noAnswer

/-- Settles O58: every operation of an event runs on the commands that wait, but those that turn one engine and answer
the PAUSE or RESUME of its flags; and what an event takes from the queue it answers, or lets join DC's operations. -/
theorem commandLawsKept : Obligations.CommandLawsKept := by
  unfold Obligations.CommandLawsKept
  intro s t noAnswer he
  unfold step at he
  split at he
  · cases he
    obtain ⟨answered, outstanding, flags, stall⟩ := (RunsOn.refl none s).tick.quiet noAnswer (tick_blocks s).2
    exact ⟨answered, outstanding, flags, stall⟩
  · rename_i c rest _
    obtain ⟨answered, outstanding, flags, stall⟩ :=
      exec_keepsCommandLaws (s := { s with pending := rest }) noAnswer c he
    exact ⟨answered, outstanding, flags, stall⟩

end Sys2Proof.Machine
end

section
namespace Sys2Proof.Machine

variable {s : State}

/-! ### Frames that MP takes (R161, R163) -/

/-- Neither held nor left over from a full reset, a frame is what its row says. -/
theorem frame_taken (h : s.framesTaken) (f : State → State) : s.frame f = f s := by
  obtain ⟨running, noneLeft⟩ := h
  simp [State.frame, running, noneLeft]

/-! ### PUSH (R166) -/

theorem exec_push_taken (h : s.framesTaken) (bytes : List Byte) : exec (.push bytes) s = .next (s.runPush bytes) :=
  congrArg Host.Outcome.next (frame_taken h _)

/-- The checks after the kind byte, in the order of R166. -/
theorem checkPush_of_kind (m : Port) {b : Byte} {kind : CmdKind} (hk : kindOf b = some kind) (rest : List Byte) :
    m.checkPush (b :: rest) =
      if (b :: rest).length ≠ commandLength kind then .error .form
      else if 8 ≤ m.outstanding then .error .full
      else if modifying kind ∧ m.latch = false then .error .notEnabled
      else match rest with
        | tag :: args => .ok { kind := kind, tag := tag, args := args }
        | [] => .error .form := by
  simp only [Port.checkPush, hk]
  rfl

theorem checkPush_unknown (m : Port) {bytes : List Byte}
    (h : bytes = [] ∨ ∃ b rest, bytes = b :: rest ∧ kindOf b = none) : m.checkPush bytes = .error .kind := by
  obtain rfl | ⟨b, rest, rfl, hk⟩ := h
  · rfl
  · simp only [Port.checkPush, hk]

theorem exec_push_refused (h : s.framesTaken) {bytes : List Byte} {r : FrameResult}
    (refused : s.mp.checkPush bytes = .error r) : exec (.push bytes) s =
      .next { s with mp := { s.mp with lastResult := r, restartEnable := false, mdo := .zeros } } := by
  rw [exec_push_taken h, State.runPush, refused]
  rfl

theorem exec_push_accepted (h : s.framesTaken) {bytes : List Byte} {c : Command}
    (accepted : s.mp.checkPush bytes = .ok c) : exec (.push bytes) s = .next { s with mp := s.mp.accept c } := by
  rw [exec_push_taken h, State.runPush, accepted]
  rfl

/-- Settles O10: each check is reached only past the ones before it, and each outcome is one write of MP. -/
theorem pushIsCheckedInOrder : Obligations.PushIsCheckedInOrder := by
  unfold Obligations.PushIsCheckedInOrder
  intro bytes s h
  refine ⟨fun unknown => exec_push_refused h (checkPush_unknown s.mp unknown), ?_⟩
  rintro b rest kind rfl hk
  have checks := checkPush_of_kind s.mp hk rest
  refine ⟨fun length => ?_, fun length full => ?_, fun length room modifies unset => ?_,
    fun length room enabled tag args split => ?_⟩
  · exact exec_push_refused h (checks.trans (if_pos length))
  · exact exec_push_refused h (by rw [checks, if_neg (not_not.mpr length), if_pos full])
  · exact exec_push_refused h
      (by rw [checks, if_neg (not_not.mpr length), if_neg (Nat.not_le.mpr room), if_pos ⟨modifies, unset⟩])
  · have latched : ¬(modifying kind = true ∧ s.mp.latch = false) := fun ⟨modifies, unset⟩ =>
      absurd ((enabled modifies).symm.trans unset) nofun
    subst split
    exact exec_push_accepted h
      (by rw [checks, if_neg (not_not.mpr length), if_neg (Nat.not_le.mpr room), if_neg latched])

/-! ### POP (R168, R187) -/

theorem exec_pop_taken (h : s.framesTaken) (clocks : Nat) (empty : Bool) :
    exec (.pop clocks empty) s = .next (s.runPop clocks empty) :=
  congrArg Host.Outcome.next (frame_taken h _)

/-- Past its bytes a POP goes on with 0x00, and it ends where the host stops. -/
theorem popShift_eq_take (bytes : List Byte) (n : Nat) :
    popShift bytes n = (bytes ++ List.replicate (n - bytes.length) 0x00).take n := by
  rw [popShift, List.take_append, List.take_replicate, Nat.min_self]

theorem popShift_empty (n : Nat) : popShift [0x00] n = List.replicate n 0x00 := by
  cases n with
  | zero => rfl
  | succ n => simp [popShift, List.replicate_succ]

theorem bytes_length (r : Response) : r.bytes.length = r.results.length + 4 := rfl

/-- A response as POP shifts it in `n` bytes, with 0x00 after it and cut where the frame ends. -/
theorem popShift_response (r : Response) (n : Nat) : popShift r.bytes n =
    (oneByte (3 + r.results.length) :: r.kind.code :: r.tag :: r.code.code ::
      (r.results ++ List.replicate (n - (r.results.length + 4)) 0x00)).take n :=
  popShift_eq_take r.bytes n

theorem popShift_whole (r : Response) {n : Nat} (whole : r.results.length + 4 ≤ n) : popShift r.bytes n =
    oneByte (3 + r.results.length) :: r.kind.code :: r.tag :: r.code.code ::
      (r.results ++ List.replicate (n - (r.results.length + 4)) 0x00) := by
  rw [popShift, List.take_of_length_le whole]
  rfl

/-- The end of an event that changed the response queue writes AU's lines and ATTN alone (R178, R180). -/
theorem evaluate_eq (s : State) :
    s.evaluate = { s with au := { s.au with alert := s.evaluate.au.alert, attn := s.evaluate.au.attn } } := rfl

/-- ATTN at the end of an event outside a full reset (R180). -/
theorem evaluate_attn (running : s.inReset = false) : s.evaluate.au.attn =
    (s.mp.notice || (!s.mp.responses.isEmpty && s.au.responsesEnabled) || (s.au.anyChange && s.au.changesEnabled)) := by
  change s.attnLevel = _
  rw [State.attnLevel, running]
  rfl

theorem runPop_whole {r : Response} {rest : List Response} (head : s.mp.responses = r :: rest) {clocks : Nat}
    (boundary : clocks % 8 = 0) (whole : r.results.length + 4 ≤ clocks / 8) :
    s.runPop clocks false = (s.setMp { s.mp.framed .ok with
      responses := rest, outstanding := s.mp.outstanding - 1, mdo := .bytes (popShift r.bytes (clocks / 8)) }).evaluate := by
  have leaves : clocks % 8 = 0 ∧ r.bytes.length ≤ clocks / 8 := ⟨boundary, whole⟩
  simp only [State.runPop, head]
  exact if_pos leaves

theorem runPop_cut {r : Response} {rest : List Response} (head : s.mp.responses = r :: rest) {clocks : Nat}
    (cut : clocks % 8 ≠ 0 ∨ clocks / 8 < r.results.length + 4) :
    s.runPop clocks false =
      s.setMp { s.mp.framed .partialEnd with mdo := .bytes (popShift r.bytes (clocks / 8)) } := by
  have notWhole : ¬(clocks % 8 = 0 ∧ r.bytes.length ≤ clocks / 8) := by
    rw [bytes_length]
    omega
  simp only [State.runPop, head]
  exact if_neg notWhole

theorem runPop_empty {clocks : Nat} {empty : Bool} (h : s.mp.responses = [] ∨ empty = true) :
    s.runPop clocks empty = s.setMp { s.mp.framed (if clocks % 8 = 0 then .empty else .partialEnd) with
      mdo := .bytes (List.replicate (clocks / 8) 0x00) } := by
  rw [← popShift_empty]
  unfold State.runPop
  obtain none | rfl := h
  · rw [none]
  · cases s.mp.responses <;> rfl

/-- Settles O12: a row of the table of R168 for each way a POP can end. -/
theorem popRemovesAWholeResponse : Obligations.PopRemovesAWholeResponse := by
  unfold Obligations.PopRemovesAWholeResponse
  refine ⟨rfl, fun clocks s h => ⟨fun r rest head boundary whole => ?_, fun r rest head cut => ?_, fun empty none => ?_⟩⟩
  · refine ⟨_, (exec_pop_taken h clocks false).trans (congrArg _ (runPop_whole head boundary whole)), ?_, ?_, ?_⟩
    · rw [popShift_whole r whole]
      rfl
    · exact evaluate_attn h.1
    · exact evaluate_eq _
  · refine ⟨_, (exec_pop_taken h clocks false).trans (congrArg _ (runPop_cut head cut)), ?_, rfl⟩
    rw [popShift_response]
    rfl
  · exact ⟨_, (exec_pop_taken h clocks empty).trans (congrArg _ (runPop_empty none)), rfl, rfl⟩

end Sys2Proof.Machine
end

section
namespace Sys2Proof.Machine

variable {s m n : State}

/-! ### What a restart writes (R27, R51, R76, R93, R94, R115, R117, R152, R162, R171, R174) -/

/-- The settings with which a restart of this level starts. -/
def State.restartSettings (s : State) (level2 : Bool) : State := if level2 then s.defaultSettings else s

/-- Claims write the records' counts and the changed-slot set alone (R19). -/
theorem undeliveredClaims_eq (s : State) (es : List Entry) : ∃ v c, s.undeliveredClaims es =
    { s with dir := { s.dir with slots := v }, au := { s.au with changed := c } } := by
  induction es generalizing s with
  | nil => exact ⟨s.dir.slots, s.au.changed, rfl⟩
  | cons e rest ih =>
    have first : ∃ v c, s.undeliveredClaim e.slot =
        { s with dir := { s.dir with slots := v }, au := { s.au with changed := c } } := by
      unfold State.undeliveredClaim
      split
      · split
        · exact ⟨_, _, rfl⟩
        · exact ⟨s.dir.slots, s.au.changed, rfl⟩
      · exact ⟨s.dir.slots, s.au.changed, rfl⟩
    obtain ⟨v, c, he⟩ := first
    obtain ⟨v', c', hrest⟩ := ih (s.undeliveredClaim e.slot)
    refine ⟨v', c', hrest.trans ?_⟩
    rw [he]

/-- PWP and DIR at a restart write the pool, the directory and the changed-slot set (R27, R93). -/
theorem restartStores_eq (s : State) (level2 : Bool) : ∃ d p c, (s.restartPool level2).restartDir level2 =
    { s with dir := d, pool := p, au := { s.au with changed := c } } := by
  obtain ⟨v, c, claims⟩ := undeliveredClaims_eq
    (s.setPool { segs := s.pool.segs.map fun p => { p with queue := [], purgeMark := false }, reservation := none })
    ((s.pool.segs.toList.map fun p => p.queue).flatten.filter fun e => s.survives level2 e.slot)
  have pool : s.restartPool level2 = _ := claims
  rw [pool]
  exact ⟨_, _, c, rfl⟩

/-- Each block after a restart but for DIR's records and PWP's queues. -/
theorem restartBlocks_eq (s : State) (level2 : Bool) : ∃ d p, s.restartBlocks level2 =
    { s.restartSettings level2 with
      dir := d, pool := p, eng := (s.restartSettings level2).eng.map Engine.restart
      up := { (s.restartSettings level2).up with ctx := .unaddressed none, out := .released }
      hm := (s.restartSettings level2).hm.restart, dc := { ops := [] }, mp := s.mp.restart
      au := { (s.restartSettings level2).au with
        changed := Vector.replicate 48 false, faults := Quad.fill FaultMarks.none } } := by
  have mp : s.mp = (s.restartSettings level2).mp := by cases level2 <;> rfl
  obtain ⟨d, p, c, stores⟩ := restartStores_eq (s.restartSettings level2) level2
  refine ⟨d, p, ?_⟩
  rw [mp]
  unfold State.restartBlocks
  dsimp only
  rw [← State.restartSettings, stores]
  rfl

theorem restartSettings_engine (level2 : Bool) (k : Seg) : (s.restartSettings level2).engine k =
    { s.engine k with rate := if level2 = false then (s.engine k).rate else .khz100 } := by
  cases level2 with
  | false => rfl
  | true => exact Quad.get_map _ _ k

theorem restartBlocks_engine_eq (level2 : Bool) (k : Seg) : (s.restartBlocks level2).engine k =
    Engine.restart { s.engine k with rate := if level2 = false then (s.engine k).rate else .khz100 } := by
  obtain ⟨d, p, blocks⟩ := restartBlocks_eq s level2
  rw [blocks, ← restartSettings_engine]
  exact Quad.get_map _ Engine.restart k

/-! ### The first probes after a restart (R76, R96) -/

/-- The part after a restart and before its arbiters choose: the blocks restarted and the first probes asked for. -/
def State.restarted (s : State) (level2 : Bool) : State :=
  (s.restartBlocks level2).requestProbes ((s.restartBlocks level2).pendingSlots fun _ => true)

theorem takeRestart_eq (s : State) (level2 : Bool) (low : LowLines) :
    s.takeRestart level2 low = (s.restarted level2).settle low := rfl

theorem restartBlocks_serves (level2 : Bool) (k : Seg) : (s.restartBlocks level2).segInService k = true := by
  rw [segInService_iff, restartBlocks_engine_eq]
  unfold Engine.restart
  dsimp only
  split <;> exact ⟨nofun, nofun⟩

/-- Every request of the restart is queued. -/
theorem restarted_asksProbes (s : State) (level2 : Bool) : AsksProbes (s.restartBlocks level2) (s.restarted level2)
    ((s.restartBlocks level2).pendingSlots fun _ => true) := by
  refine (requestProbes_serves ((pendingSlots_ascending _ _).imp ne_of_lt) fun i asked => ?_).1
  obtain ⟨r, hr, -⟩ := pendingSlots_mem _ _ i asked
  exact ⟨r, hr, restartBlocks_serves level2 r.segment⟩

/-- The PENDING records of a restart are those of before that it keeps (R27). -/
theorem restartBlocks_pending (level2 : Bool) (k : Seg) (i : Slot) :
    (∃ r, (s.restartBlocks level2).recAt i = some r ∧ r.state = .pending ∧ r.segment = k) ↔
      ∃ r, s.recAt i = some r ∧ r.state = .pending ∧ r.segment = k ∧ (level2 = false ∨ s.isProtected i = true) := by
  rw [restartBlocks_recAt]
  cases hr : s.recAt i with
  | none =>
    rw [afterRestart_freed s level2 i fun r c => by rw [hr] at c; cases c]
    simp
  | some r =>
    by_cases kept : r.state ≠ .retiring ∧ (level2 = false ∨ s.isProtected i = true)
    · obtain ⟨stays, level⟩ := kept
      rw [afterRestart_kept s level2 i r hr stays fun two => level.resolve_left (by simp [two])]
      simp [Record.restart, level]
    · have freed : s.afterRestart level2 i = none := afterRestart_freed s level2 i fun q hq => by
        cases hr.symm.trans hq
        by_cases retiring : r.state = .retiring
        · exact .inl retiring
        · exact .inr (by simpa [retiring] using kept)
      rw [freed]
      constructor
      · rintro ⟨q, ⟨⟩, -⟩
      · rintro ⟨q, ⟨⟩, pending, -, level⟩
        exact absurd ⟨by rw [pending]; nofun, level⟩ kept

/-- Every engine once the probes of a restart are asked for (R76, R96). -/
theorem restarted_engine (level2 : Bool) (k : Seg) : ∃ probes,
    (s.restarted level2).engine k =
      { Engine.restart { s.engine k with rate := if level2 = false then (s.engine k).rate else .khz100 } with
        probeQueue := probes } ∧
    probes.Pairwise (· < ·) ∧ ∀ i, i ∈ probes ↔ ∃ r, s.recAt i = some r ∧ r.state = .pending ∧ r.segment = k ∧
      (level2 = false ∨ s.isProtected i = true) := by
  obtain ⟨probes, engine, ascending, joined⟩ := (restarted_asksProbes s level2).joins
    (p := fun r => r.state = .pending) (pendingSlots_ascending _ _)
    (fun i => by simp [pendingSlots_iff, restartBlocks_serves]) k
  have noProbes : ((s.restartBlocks level2).engine k).probeQueue = [] := by rw [restartBlocks_engine_eq]; rfl
  refine ⟨probes, ?_, ascending, fun i => ?_⟩
  · rw [engine, noProbes, restartBlocks_engine_eq]
    rfl
  · rw [joined, noProbes, ← restartBlocks_pending]
    have inService := (segInService_iff _ k).mp (restartBlocks_serves (s := s) level2 k)
    exact ⟨fun ⟨_, r, hr, hk, _, hp⟩ => ⟨r, hr, hp, hk⟩, fun ⟨r, hr, hp, hk⟩ => ⟨nofun, r, hr, hk, inService, hp⟩⟩

/-- The pool once the probes of a restart are asked for (R93, R94). -/
theorem restarted_poolSeg (level2 : Bool) (k : Seg) : (s.restarted level2).pool.reservation = none ∧
    ((s.restarted level2).poolSeg k).queue = [] ∧ ((s.restarted level2).poolSeg k).purgeMark = false ∧
    ((s.restarted level2).poolSeg k).share = if level2 then 128 else (s.poolSeg k).share := by
  have pool : (s.restarted level2).pool = (s.restartBlocks level2).pool := by simp [State.restarted]
  rw [pool, poolSeg_of_pool pool]
  obtain ⟨queue, mark⟩ := restartBlocks_poolSeg s level2 k
  exact ⟨(restartBlocks_emptied s level2).1, queue, mark, restartBlocks_share s level2 k⟩

/-- Every other block once the probes of a restart are asked for. -/
theorem restarted_eq (s : State) (level2 : Bool) : ∃ d p e, s.restarted level2 =
    { s.restartSettings level2 with
      dir := d, pool := p, eng := e
      up := { (s.restartSettings level2).up with ctx := .unaddressed none, out := .released }
      hm := (s.restartSettings level2).hm.restart, dc := { ops := [] }, mp := s.mp.restart
      au := { (s.restartSettings level2).au with
        changed := Vector.replicate 48 false, faults := Quad.fill FaultMarks.none } } := by
  obtain ⟨e, v, asked⟩ := (restarted_asksProbes s level2).rest
  obtain ⟨d, p, blocks⟩ := restartBlocks_eq s level2
  exact ⟨{ d with slots := v }, p, e, by rw [asked, blocks]⟩

/-! ### RESTART (R170, R171) -/

/-- With no operation of DC's there is nothing to answer at the end of an event. -/
theorem settle_mp_of_noOps (noOps : m.dc.ops = []) (low : LowLines) : (m.settle low).mp = m.mp := by
  obtain ⟨-, -, -, -, -, -, -, ops, -⟩ := arbitrateAll_onlyArbiters m low
  rw [noOps] at ops
  have still : (m.arbitrateAll low).dc.ops = [] := List.map_eq_nil_iff.mp ops
  change (m.arbitrateAll low).deliver.mp = m.mp
  rw [deliver_mp, still, (arbitrateAll_frame m low).2.2.2.1]
  simp

theorem settle_attn_of_notice (low : LowLines) (running : m.inReset = false) (notice : (m.settle low).mp.notice = true) :
    (m.settle low).au.attn = true := by
  obtain ⟨-, -, -, -, reset, -⟩ := settle_frame m low
  rw [(settle_lines m low).2, State.attnLevel, reset, running, notice]
  rfl

theorem exec_restart_ignored (h : s.framesTaken) (low : LowLines) {bytes : List Byte}
    (ignored : s.mp.restartEnable = false ∨ restartLevel bytes = none) : exec (.restart bytes low) s =
      .next { s with mp := { s.mp with lastResult := .ignored, restartEnable := false, mdo := .zeros } } := by
  refine congrArg Host.Outcome.next ((frame_taken h _).trans ?_)
  unfold State.runRestart
  obtain e | e := ignored
  · rw [e]
    rfl
  · rw [e]
    cases s.mp.restartEnable <;> rfl

/-- Only the bytes 1 and 2, each alone, name a level (R170). -/
theorem restartLevel_none {bytes : List Byte} (h1 : bytes ≠ [0x01]) (h2 : bytes ≠ [0x02]) :
    restartLevel bytes = none := by
  match bytes with
  | [] | _ :: _ :: _ => rfl
  | [b] =>
    have one : b ≠ 0x01 := fun e => h1 (e ▸ rfl)
    have two : b ≠ 0x02 := fun e => h2 (e ▸ rfl)
    exact (if_neg one).trans (if_neg two)

theorem changedSlots_none (a : Alerts) (h : a.changed = Vector.replicate 48 false) : a.changedSlots = [] := by
  simp [Alerts.changedSlots, h]

/-- The settings of DC, UP, HM and AU after a restart that keeps them (R51, R76, R117, R174). -/
theorem restarted_level1 (s : State) : let m := s.restarted false
    m.up.holdLimit = s.up.holdLimit ∧ m.up.catchAll = s.up.catchAll ∧ m.stallLimit = s.stallLimit ∧
    m.hm = { s.hm with
      cadence := .active, surveyLeft := s.hm.activePeriod * 100
      idleLeft := if s.hm.idleTimeout = 0 then none else some (s.hm.idleTimeout * 1000) } ∧
    m.au.lines = s.au.lines ∧ m.au.responsesEnabled = s.au.responsesEnabled ∧
    m.au.changesEnabled = s.au.changesEnabled := by
  obtain ⟨d, p, e, blocks⟩ := restarted_eq s false
  rw [blocks]
  exact ⟨rfl, rfl, rfl, rfl, rfl, rfl, rfl⟩

/-- The same after a restart that brings back the defaults. -/
theorem restarted_level2 (s : State) : let m := s.restarted true
    m.up.holdLimit = 25 ∧ m.up.catchAll = none ∧ m.stallLimit = 10 ∧
    m.hm = { s.hm with
      cadence := .active, surveyLeft := 1000, idleLeft := some 30000, activePeriod := 10, relaxedPeriod := 8
      idleTimeout := 30, holdOff := 20, lifetime := 60 } ∧
    m.au.lines = Quad.fill AlertConfig.reset ∧ m.au.responsesEnabled = true ∧ m.au.changesEnabled = true := by
  obtain ⟨d, p, e, blocks⟩ := restarted_eq s true
  rw [blocks]
  refine ⟨rfl, rfl, rfl, ?_, rfl, rfl, rfl⟩
  simp [State.restartSettings, State.defaultSettings, Health.restart, Health.idleStart, Config.stepMs, Config.secondMs,
    Config.defaultActivePeriod, Config.defaultRelaxedPeriod, Config.defaultIdleTimeout, Config.defaultHoldOff,
    Config.defaultLifetime]

/-- The end of a transaction cut on request goes on from its step, or to the stop (R76). -/
theorem closing_eq (x : BusStep) : x.closing = match x with
    | .waitUp | .hold _ | .nak => .stop
    | other => other := by
  cases x <;> rfl

/-- What both levels leave alone, and what both clear. -/
theorem restarted_both (s : State) (level2 : Bool) : let m := s.restarted level2
    m.mp = { Port.reset with mdo := s.mp.mdo } ∧ m.dc.ops = [] ∧ m.up.ctx = .unaddressed none ∧
    m.up.out = .released ∧ m.pu = s.pu ∧ m.au.changedSlots = [] ∧ (∀ k, m.au.faults.get k = FaultMarks.none) ∧
    m.inReset = s.inReset ∧ m.pending = s.pending := by
  obtain ⟨d, p, e, blocks⟩ := restarted_eq s level2
  rw [blocks]
  refine ⟨rfl, rfl, rfl, rfl, ?_, changedSlots_none _ rfl, fun k => Quad.get_fill _ k, ?_, ?_⟩ <;> cases level2 <;> rfl

/-- In the frame of a RESTART that is taken MDO shifts 0x00 (R161). -/
def State.shiftsZeros (s : State) : State := s.setMp { s.mp with mdo := .zeros }

/-- Settles O14: a RESTART that fails a check is one write of MP; one that is taken restarts every block, asks for the
first probes, and has no operation left to answer. -/
theorem restartIsTakenOrIgnored : Obligations.RestartIsTakenOrIgnored := by
  unfold Obligations.RestartIsTakenOrIgnored
  intro bytes low s h
  refine ⟨fun ignored => exec_restart_ignored h low (ignored.imp_right fun ⟨h1, h2⟩ => restartLevel_none h1 h2), ?_⟩
  intro enabled level
  obtain ⟨level2, rfl⟩ : ∃ level2 : Bool, bytes = [if level2 then 0x02 else 0x01] := by
    rcases level with rfl | rfl
    · exact ⟨false, rfl⟩
    · exact ⟨true, rfl⟩
  have one : ([if level2 then 0x02 else 0x01] : List Byte) = [0x01] ↔ level2 = false := by cases level2 <;> decide
  have two : ([if level2 then 0x02 else 0x01] : List Byte) = [0x02] ↔ level2 = true := by cases level2 <;> decide
  have names : restartLevel [if level2 then 0x02 else 0x01] = some level2 := by cases level2 <;> rfl
  obtain ⟨mp, ops, ctx, out, pu, slots, faults, inReset, pending⟩ := restarted_both s.shiftsZeros level2
  have running := inReset.trans h.1
  have port := settle_mp_of_noOps ops low
  simp only [one, two]
  refine ⟨s.shiftsZeros.restarted level2, exec_restart_taken s _ low h enabled level2 names, mp, port,
    settle_attn_of_notice low running (by rw [port, mp]; rfl), ops, ctx, out,
    (restarted_poolSeg level2 0).1, fun k => ?_, pu, slots, faults, running, pending, fun k => ?_, ?_, ?_⟩
  · obtain ⟨-, queue, mark, -⟩ := restarted_poolSeg (s := s.shiftsZeros) level2 k
    exact ⟨queue, mark⟩
  · obtain ⟨probes, engine, ascending, asked⟩ := restarted_engine (s := s.shiftsZeros) level2 k
    refine ⟨probes, engine.trans ?_, ascending, asked⟩
    simp only [Engine.restart, closing_eq]
    rfl
  · rintro rfl
    obtain ⟨limit, catchAll, stall, hm, au⟩ := restarted_level1 s.shiftsZeros
    refine ⟨limit, catchAll, stall, fun k => ?_, hm, au⟩
    obtain ⟨-, -, -, share⟩ := restarted_poolSeg (s := s.shiftsZeros) false k
    exact share
  · rintro rfl
    obtain ⟨limit, catchAll, stall, hm, au⟩ := restarted_level2 s.shiftsZeros
    refine ⟨limit, catchAll, stall, fun k => ?_, hm, au⟩
    obtain ⟨-, -, -, share⟩ := restarted_poolSeg (s := s.shiftsZeros) true k
    exact share

end Sys2Proof.Machine
end

section
namespace Sys2Proof.Machine

variable {s : State}

/-! ### STATUS and the status word (R164, R181) -/

theorem exec_status_taken (h : s.framesTaken) (c : StatusStretch) :
    exec (.status c) s = .next { s with mp := { s.mp with mdo := s.mp.mdo.stretch c s.statusWord } } :=
  congrArg Host.Outcome.next (frame_taken h _)

/-- A status word shifts its high byte first. -/
theorem statusByte_eq (word : BitVec 16) (j : Nat) :
    statusByte word j = BitVec.ofNat 8 (if j % 2 = 0 then word.toNat / 256 else word.toNat % 256) := by
  unfold statusByte
  split
  · refine BitVec.eq_of_toNat_eq ?_
    simp [Nat.shiftRight_eq_div_pow]
  · refine BitVec.eq_of_toNat_eq ?_
    simp

theorem bit_toNat (b : Bool) {n : Nat} (h : n < 16) : (bit b n).toNat = b.toNat * 2 ^ n := by
  cases b with
  | false => simp [bit]
  | true => simp [bit, Nat.pow_lt_pow_right (by decide : 1 < 2) h]

theorem code_lt (r : FrameResult) : r.code < 16 := by cases r <;> decide

theorem shifted_or_eq_add (a : Nat) {b i : Nat} (below : b < 2 ^ i) : a * 2 ^ i ||| b = a * 2 ^ i + b := by
  rw [Nat.mul_comm, Nat.two_pow_add_eq_or_of_lt below]

/-- The fields of the status word do not overlap: it is their sum. -/
theorem statusWord_toNat (s : State) : s.statusWord.toNat =
    s.mp.notice.toNat * 2 ^ 15 + (s.mp.latch.toNat * 2 ^ 14 + (s.mp.restartEnable.toNat * 2 ^ 13 +
      (s.pu.inForce.toNat * 2 ^ 12 + (s.mp.lastResult.code * 2 ^ 8 + (s.mp.responses.length % 16 * 2 ^ 4 +
        s.mp.outstanding % 16))))) := by
  have latch := s.mp.latch.toNat_le
  have enable := s.mp.restartEnable.toNat_le
  have lock := s.pu.inForce.toNat_le
  have result := code_lt s.mp.lastResult
  have code : s.mp.lastResult.code * 256 % 2 ^ 16 = s.mp.lastResult.code * 2 ^ 8 := by omega
  have responses : s.mp.responses.length % 16 * 16 % 2 ^ 16 = s.mp.responses.length % 16 * 2 ^ 4 := by omega
  have outstanding : s.mp.outstanding % 16 % 2 ^ 16 = s.mp.outstanding % 16 := by omega
  unfold State.statusWord
  simp only [BitVec.toNat_or, BitVec.toNat_ofNat, bit_toNat _ (by decide : 15 < 16), bit_toNat _ (by decide : 14 < 16),
    bit_toNat _ (by decide : 13 < 16), bit_toNat _ (by decide : 12 < 16), code, responses, outstanding, Nat.or_assoc]
  rw [shifted_or_eq_add (i := 4), shifted_or_eq_add (i := 8), shifted_or_eq_add (i := 12),
    shifted_or_eq_add (i := 13), shifted_or_eq_add (i := 14), shifted_or_eq_add (i := 15)]
  all_goals omega

theorem getLsbD_of_toNat {word : BitVec 16} {i : Nat} {b : Bool} (h : word.toNat / 2 ^ i % 2 = b.toNat) :
    word.getLsbD i = b := by
  rw [BitVec.getLsbD, Nat.testBit_eq_decide_div_mod_eq, h]
  cases b <;> rfl

/-- Settles O7: the captures are those of a stretch, a word is shifted by its two bytes, and each bit and field of the
status word is read off it as a sum. -/
theorem statusFrameShiftsTheWord : Obligations.StatusFrameShiftsTheWord := by
  unfold Obligations.StatusFrameShiftsTheWord
  refine ⟨fun n s h => ⟨?_, fun words bits shifting => ?_, fun other => ?_⟩, fun words bits j => ⟨rfl, ?_, ?_⟩,
    fun n stretches => ⟨rfl, rfl⟩, fun s responses outstanding => ?_⟩
  · rw [exec_status_taken h, stretch_first]
  · rw [exec_status_taken h, shifting, stretch_onward]
    rfl
  · rw [exec_status_taken h, stretch_of_other _ _ _ other]
  · exact fun past => if_neg (Nat.not_lt.mpr past)
  · intro word within captured
    rw [MdoShift.shown, if_pos within, captured, Option.map_some, statusByte_eq]
  · have sum := statusWord_toNat s
    have notice := s.mp.notice.toNat_le
    have latch := s.mp.latch.toNat_le
    have enable := s.mp.restartEnable.toNat_le
    have lock := s.pu.inForce.toNat_le
    have result := code_lt s.mp.lastResult
    refine ⟨getLsbD_of_toNat ?_, getLsbD_of_toNat ?_, getLsbD_of_toNat ?_,
      getLsbD_of_toNat (b := s.pu.inForce) ?_, ?_, ?_, ?_, rfl⟩
    all_goals omega

end Sys2Proof.Machine
end

section
namespace Sys2Proof.Machine

variable {s : State}

/-! ### The frames of one byte (R161, R163, R165, R170, R172) -/

theorem exec_partialFrame_taken (h : s.framesTaken) {bits : Nat} (cut : bits % 8 ≠ 0) :
    exec (.partialFrame bits) s = .next (s.setMp (s.mp.framed .partialEnd)) := by
  have off : offBoundary bits = true := bne_iff_ne.mpr cut
  exact congrArg Host.Outcome.next ((if_pos off).trans (frame_taken h _))

/-- Settles O8: each of these frames is one write of MP, and ACK_RESTART also ends its event. -/
theorem framesWithoutACommand : Obligations.FramesWithoutACommand := by
  unfold Obligations.FramesWithoutACommand
  refine ⟨fun m => ⟨rfl, rfl⟩, fun j => rfl, fun s p => rfl, fun s h => ⟨fun bits cut => ?_, ?_, ?_, ?_, ?_, ?_⟩⟩
  · exact exec_partialFrame_taken h cut
  · exact congrArg Host.Outcome.next (frame_taken h _)
  · exact congrArg Host.Outcome.next (frame_taken h _)
  · exact congrArg Host.Outcome.next (frame_taken h _)
  · exact congrArg Host.Outcome.next (frame_taken h _)
  · refine ⟨_, congrArg Host.Outcome.next (frame_taken h _), rfl, rfl, ?_, rfl⟩
    exact evaluate_attn h.1

/-! ### Unknown codes, and the row that a frame received is (R161, R163, R173, R181) -/

/-- A code outside the list of R181 names no frame. -/
theorem frameOf_of_not_mem {code : Byte} (h : code ∉ frameCodes) : frameOf code = none := by
  rw [frameOf_none, unknownCode, Bool.not_eq_true', List.contains_eq_mem, decide_eq_false_iff_not]
  exact h

theorem exec_unknownFrame_taken (h : s.framesTaken) {code : Byte} (unknown : code ∉ frameCodes) :
    exec (.unknownFrame code) s = .next (s.setMp (s.mp.framed .unknown)) :=
  congrArg Host.Outcome.next ((if_pos (frameOf_of_not_mem unknown)).trans (frame_taken h _))

/-- STATUS and POP have a code each (R181). -/
theorem frameOf_status (code : Byte) : frameOf code = some .status ↔ code = 0xA0 := by
  revert code
  decide +kernel

theorem frameOf_pop (code : Byte) : frameOf code = some .pop ↔ code = 0xB2 := by
  revert code
  decide +kernel

theorem decodeCoded_unknown {code : Byte} (unknown : code ∉ frameCodes) (rest : List Byte) (empty : Bool)
    (low : LowLines) : decodeCoded code rest 0 empty low = .unknownFrame code := by
  rw [decodeCoded, frameOf_of_not_mem unknown]
  rfl

/-- Every frame but STATUS and POP is partial when it ends off a byte boundary (R163). -/
theorem decodeCoded_partial {code : Byte} (notStatus : code ≠ 0xA0) (notPop : code ≠ 0xB2) {tail : Nat}
    (cut : tail ≠ 0) (rest : List Byte) (empty : Bool) (low : LowLines) :
    decodeCoded code rest tail empty low = .partialFrame (8 * (rest.length + 1) + tail) := by
  have status := (frameOf_status code).not.mpr notStatus
  have pop := (frameOf_pop code).not.mpr notPop
  unfold decodeCoded
  split
  · contradiction
  · contradiction
  · exact if_pos cut

/-- Settles O13: the eight codes are looked up, every other is unknown, and no command kind is among the eight. -/
theorem unknownCodesAreIgnored : Obligations.UnknownCodesAreIgnored := by
  unfold Obligations.UnknownCodesAreIgnored
  refine ⟨⟨rfl, fun j => rfl⟩, fun code s h unknown => exec_unknownFrame_taken h unknown,
    fun k => by cases k <;> decide, fun rest tail empty low => ?_⟩
  refine ⟨rfl, rfl, rfl, rfl, rfl, rfl, rfl, rfl, fun code unknown => decodeCoded_unknown unknown rest empty low,
    fun code notStatus notPop cut => decodeCoded_partial notStatus notPop cut rest empty low, fun cut => ?_, rfl⟩
  exact if_neg cut

end Sys2Proof.Machine
end
